-- ==== Sys2Proof/Word.lean ====
section
/-!
DEFINITION. The machine's words: a byte, a vector lane (R22), a scalar register or virtual address (R23, R81).
-/
namespace Sys2Proof

/-- One byte of memory. -/
abbrev Byte := BitVec 8

/-- One lane of a vector register, 32 bits (R22). -/
abbrev Lane := BitVec 32

/-- A scalar register, mask register or virtual address, 64 bits (R23, R24, R81). -/
abbrev Word := BitVec 64

end Sys2Proof
end

