-- ==== Sys2Proof/Config.lean ====
section
/-!
DEFINITION. What an implementation fixes and the free values: constants without a body, so that nothing can be
proved of their values.
-/
namespace Sys2Proof

/-- A free value of the machine, by a counter in the state: log 6.
Log 6: DESIGN CHOICE. -/
opaque Config.freeValue : Nat → Word

/-- The row-group (DRAM row of a pseudo-channel) of an HBM4 sector (R395 names it; no rule maps it): log 7.
Log 7: DESIGN CHOICE. -/
opaque Config.rowGroup : Nat → Nat

/-- The part's own error of a special function, in units of the last place from the nearest F32 value, by
sub-operation and input code (R176 bounds it and leaves it open): log 8.
Log 8: DESIGN CHOICE. -/
opaque Config.sfuErr : Nat → Nat → Int

/-- ADDR of an error record of a fabric unit: it holds the port number and the source node, in places that R390 does
not give: log 11. -/
opaque Config.fabricAddr : Nat → Nat → Word

/-- A byte of a packet in a flit's payload, by kind, node, words and place (R332 gives its length; UALink its layout, which is not
in the source): log 95. -/
opaque Config.packetByte : Nat → Nat → List Nat → Nat → Nat

/-- The buffers, beyond the first, that a rotor relay holds for a slot of the next hop (R293 gives no number): log 110.
Log 110: DESIGN CHOICE. -/
opaque Config.relayBuffers : Nat → Nat

/-- SHA3-384 of a byte string, as a number (R402, R403 name it by its standard): log 12.
Log 12: DESIGN CHOICE. -/
opaque Config.sha3 : List Nat → Nat

/-- A signature by a public key over a message verifies: Ed25519 (0) or ML-DSA-65 (1), with key, message and signature (R402 names
them by their standards): log 12. -/
opaque Config.sigVerify : Nat → List Nat → List Nat → List Nat → Bool

/-- The boot ROM's copy of the digest of the Ed25519 key (0) or the ML-DSA-65 key (1) (R402): log 12. -/
opaque Config.keyDigest : Nat → Nat

/-- A quote's signature over the attestation slots and a nonce by identity key 0 (Ed25519) or 1 (ML-DSA-65) (R403):
log 12. -/
opaque Config.quoteSig : Nat → List Nat → Nat → Nat

/-- The attestation slot that a segment header names (R402 gives no place): log 12. -/
opaque Config.segmentSlot : List Nat → Nat

/-- The bytes that the readback image needs (R407): log 13.
Log 13: DESIGN CHOICE. -/
opaque Config.imageBytes : Nat

end Sys2Proof
end

