-- ==== Sys2Proof/Syntax.lean ====
section
/-!
DEFINITION. The instructions and events of the JNX part: one constructor per row of spec/opcode_table.json.
Rows with an encoding carry the word's fields (register numbers and unsigned immediates as Nat, signed
immediates as Int, in the spec's meaning: RNG's vd and an atomic's va are the whole register number).
Rows without an encoding are the part's own steps and the events of parties outside it; the data an event
brings stands in the state (State.inp), in the order its docstring names.
-/
namespace Sys2Proof

/-- The instructions and events (spec/opcode_table.json, spec/95_what_each_step_holds.md). -/
inductive Instr where
  /-- TRAP (R377). Raises TRAPI precisely with code n in TINFO; code 0 traps ILLEGAL. -/
  | trap (n : Nat)
  /-- SADD (R142). Sd := Sa + Sb modulo 2^64. -/
  | sadd (d : Nat) (a : Nat) (b : Nat)
  /-- SSUB (R142). Sd := Sa - Sb modulo 2^64. -/
  | ssub (d : Nat) (a : Nat) (b : Nat)
  /-- SMUL (R142). Sd := low 64 bits of Sa times Sb. -/
  | smul (d : Nat) (a : Nat) (b : Nat)
  /-- SMULH (R142). Sd := high 64 bits of the signed product. -/
  | smulh (d : Nat) (a : Nat) (b : Nat)
  /-- SMULHU (R142). Sd := high 64 bits of the unsigned product. -/
  | smulhu (d : Nat) (a : Nat) (b : Nat)
  /-- SDIV (R143). Signed scalar quotient, with DZ/DOV flags, DIVMASK := 0 and optional DIVZ trap. -/
  | sdiv (d : Nat) (a : Nat) (b : Nat)
  /-- SDIVU (R143). Unsigned scalar quotient, with DZ flag and optional DIVZ trap. -/
  | sdivu (d : Nat) (a : Nat) (b : Nat)
  /-- SREM (R143). Signed scalar remainder with the dividend's sign, divide-fault handling as SDIV. -/
  | srem (d : Nat) (a : Nat) (b : Nat)
  /-- SREMU (R143). Unsigned scalar remainder, divide-fault handling as SDIVU. -/
  | sremu (d : Nat) (a : Nat) (b : Nat)
  /-- SAND (R142). Sd := Sa and Sb. -/
  | sand (d : Nat) (a : Nat) (b : Nat)
  /-- SOR (R142). Sd := Sa or Sb. -/
  | sor (d : Nat) (a : Nat) (b : Nat)
  /-- SXOR (R142). Sd := Sa xor Sb. -/
  | sxor (d : Nat) (a : Nat) (b : Nat)
  /-- SSHL (R142). Sd := Sa shifted left by bits(Sb,5,0). -/
  | sshl (d : Nat) (a : Nat) (b : Nat)
  /-- SSHR (R142). Sd := Sa shifted right logically by bits(Sb,5,0). -/
  | sshr (d : Nat) (a : Nat) (b : Nat)
  /-- SSAR (R142). Sd := Sa shifted right arithmetically by bits(Sb,5,0). -/
  | ssar (d : Nat) (a : Nat) (b : Nat)
  /-- SMIN (R142). Sd := signed minimum of Sa and Sb. -/
  | smin (d : Nat) (a : Nat) (b : Nat)
  /-- SMINU (R142). Sd := unsigned minimum of Sa and Sb. -/
  | sminu (d : Nat) (a : Nat) (b : Nat)
  /-- SMAX (R142). Sd := signed maximum of Sa and Sb. -/
  | smax (d : Nat) (a : Nat) (b : Nat)
  /-- SMAXU (R142). Sd := unsigned maximum of Sa and Sb. -/
  | smaxu (d : Nat) (a : Nat) (b : Nat)
  /-- SSEQ (R142). Sd := 1 if Sa equals Sb, else 0. -/
  | sseq (d : Nat) (a : Nat) (b : Nat)
  /-- SSNE (R142). Sd := 1 if Sa differs from Sb, else 0. -/
  | ssne (d : Nat) (a : Nat) (b : Nat)
  /-- SSLT (R142). Sd := signed Sa < Sb. -/
  | sslt (d : Nat) (a : Nat) (b : Nat)
  /-- SSLTU (R142). Sd := unsigned Sa < Sb. -/
  | ssltu (d : Nat) (a : Nat) (b : Nat)
  /-- SCLZ (R142). Sd := count of leading zero bits of Sa. -/
  | sclz (d : Nat) (a : Nat)
  /-- SPOPC (R142). Sd := count of one bits of Sa. -/
  | spopc (d : Nat) (a : Nat)
  /-- SADDI (R144). Sd := Sa + sext(imm13). -/
  | saddi (d : Nat) (a : Nat) (i : Int)
  /-- SANDI (R144). Sd := Sa and sext(imm13). -/
  | sandi (d : Nat) (a : Nat) (i : Int)
  /-- SORI (R144). Sd := Sa or sext(imm13). -/
  | sori (d : Nat) (a : Nat) (i : Int)
  /-- SXORI (R144). Sd := Sa xor sext(imm13). -/
  | sxori (d : Nat) (a : Nat) (i : Int)
  /-- SSHLI (R144). Sd := Sa shifted left by imm13 (0-63). -/
  | sshli (d : Nat) (a : Nat) (i : Nat)
  /-- SSHRI (R144). Sd := Sa shifted right logically by imm13 (0-63). -/
  | sshri (d : Nat) (a : Nat) (i : Nat)
  /-- SSARI (R144). Sd := Sa shifted right arithmetically by imm13 (0-63). -/
  | ssari (d : Nat) (a : Nat) (i : Nat)
  /-- SSLTI (R144). Sd := signed Sa < sext(imm13). -/
  | sslti (d : Nat) (a : Nat) (i : Int)
  /-- SLI (R145). Sd := sext(imm13). -/
  | sli (d : Nat) (i : Int)
  /-- SLIW (R145). Two-word form: Sd := sext(imm32), with FETCH2 on an absent word1 page. -/
  | sliw (d : Nat) (i : Int)
  /-- SLIH (R145). Two-word form: replaces the high half of Sd with imm32. -/
  | slih (d : Nat) (i : Nat)
  /-- SGET (R146). Moves lane bits(Sb,5,0) of Va into Sd, ignoring masks. -/
  | sget (d : Nat) (a : Nat) (b : Nat)
  /-- VSET (R146). Writes Sa into lane bits(Sb,5,0) of Vd, ignoring masks. -/
  | vset (d : Nat) (a : Nat) (b : Nat)
  /-- MODE (R147). Writes md24 into MD; reserved ET or RM codes trap ILLEGAL. -/
  | mode (m : Nat)
  /-- BRA (R151). Branches the slot to PC + 4*imm25. -/
  | bra (o : Int)
  /-- CALL (R151). Writes S62 := PC + 4 and branches to PC + 4*imm25. -/
  | call (o : Int)
  /-- JMP (R151). Jumps to Sa + 4*imm13, trapping ALIGN on a misaligned target. -/
  | jmp (a : Nat) (i : Int)
  /-- CALLR (R151). Computes the target from Sa, writes S62 := PC + 4 and jumps. -/
  | callr (a : Nat) (i : Int)
  /-- BC (R152). Branches the whole slot when Sa meets condition c. -/
  | bc (c : Nat) (h : Nat) (a : Nat) (o : Int)
  /-- SPLIT (R155). Divides the slot's lanes by Mk, pushing a join record and a slot or parked path, or trapping DIVSPILL. -/
  | split (k : Nat) (n : Nat) (t : Int) (j : Int)
  /-- ANYB (R153). Branches the slot when any of its lanes is set in Mk. -/
  | anyb (k : Nat) (h : Nat) (o : Int)
  /-- ALLB (R153). Branches the slot when all of its lanes are set in Mk. -/
  | allb (k : Nat) (h : Nat) (o : Int)
  /-- MFC (R148). Reads a control register into Sd, waiting for earlier vector events for status registers. -/
  | mfc (d : Nat) (c : Nat)
  /-- MTC (R148). Writes Sa to a control register that has no row of its own, under privilege and access-code rules. -/
  | mtc (a : Nat) (c : Nat)
  /-- CHMAP_WRITE (R231). An MTC to CHMAP requests a one-channel remap onto the spare, runs R229 steps 1-5, or traps ILLEGAL. -/
  | chmapWrite (v : Nat)
  /-- NOP (R149). Changes nothing but the PC. -/
  | nop
  /-- JOIN (R157). Arrives the slot's lanes at its matching join record and completes it when all have arrived. -/
  | join
  /-- EXIT (R158). Ends the slot's lanes, removes them from join records and walks outward completing records. -/
  | exit
  /-- YIELD (R378). Ends a save routine, or swaps the sheaf with a ready pending sheaf, or acts as NOP. -/
  | yield
  /-- SAFEPT (R381). Stops the sheaf at safe point n when a pre-emption request is pending and it is safe; else NOP. -/
  | safept (n : Nat)
  /-- RDV (R267). Stalls until every engine program the sheaf forked has ended; a join edge. -/
  | rdv
  /-- EEND (R266). Ends an engine program once its four completion counts are zero. -/
  | eend
  /-- CLK (R149). Writes the 64-bit device time in ns to Sd. -/
  | clk (d : Nat)
  /-- RFT (R375). Returns from a trap: restores privilege, unmasks traps and resumes at TPC. -/
  | rft
  /-- HALT (R376). Stops issue device-wide, stops links and writes the readback image. -/
  | halt
  /-- TLBI (R379). Removes the context's TLB and walk-cache entries for one VA, then raises EPOCH. -/
  | tlbi (a : Nat)
  /-- TLBI_ALL (R379). Removes every TLB entry of the issuing context, then raises EPOCH. -/
  | tlbiAll
  /-- CFLUSH (R380). Writes back every dirty copy of a line and invalidates L1 and cluster cache copies. -/
  | cflush (a : Nat)
  /-- CINV (R380). Discards a line from L1, cluster cache and L2 without write-back. -/
  | cinv (a : Nat)
  /-- FENCE (R125). Orders earlier against later accesses at a scope, by kind REL, ACQ, SC or U. -/
  | fence (k : Nat) (s : Nat)
  /-- BRK (R377). Raises BRKPT precisely with the code in TINFO. -/
  | brk (n : Nat)
  /-- SYSC (R377). Raises TRAPI precisely with TINFO[25] set and the service number. -/
  | sysc (n : Nat)
  /-- CHINJ (R228). Adds a value to one residue of one accumulator element as a tile operation. -/
  | chinj (a : Nat)
  /-- FORK (R263). Appends named engine programs with a register snapshot to the sequencers' fork queues. -/
  | fork (a : Nat) (b : Nat)
  /-- SPAWN (R360). Queues a child launch from a record, taking a pool record and budget, or returns 0. -/
  | spawn (d : Nat) (a : Nat) (b : Nat)
  /-- CONT (R361). Arms a continuation record, adding the count to JOIN and making it runnable at zero. -/
  | cont (d : Nat) (a : Nat) (b : Nat)
  /-- WAIT (R127). Stalls the slot until each completion-class count is at most its field. -/
  | wait (l : Nat) (s : Nat) (c : Nat) (t : Nat)
  /-- BARI (R252). Initialises a barrier's EXP and clears ARR, PEND and ERR. -/
  | bari (n : Nat) (a : Nat) (i : Nat)
  /-- BARA (R252). Arrives v times at a barrier, checking for phase completion. -/
  | bara (n : Nat) (a : Nat) (i : Nat)
  /-- BARW (R252). Waits while the barrier's phase bit equals the given parity. -/
  | barw (n : Nat) (a : Nat) (i : Nat)
  /-- BARS (R252). Arrives v times and waits for the phase to complete. -/
  | bars (n : Nat) (a : Nat) (i : Nat)
  /-- BARX (R252). Adds expected pending bytes to a barrier. -/
  | barx (n : Nat) (a : Nat) (i : Nat)
  /-- BARQ (R252). Reads one half of a barrier word into Sd. -/
  | barq (n : Nat) (d : Nat) (i : Nat)
  /-- QINIT (R258). Initialises a queue's ring in PIN_CORE SRAM with capacity 2^c. -/
  | qinit (n : Nat) (a : Nat) (i : Nat)
  /-- QPUSH (R257). Waits for allowance, then appends a handle to the queue; a release. -/
  | qpush (n : Nat) (a : Nat) (i : Nat)
  /-- QPOP (R257). Waits for a handle, then removes it into Sd; an acquire. -/
  | qpop (n : Nat) (d : Nat) (i : Nat)
  /-- QTRY (R257). Pops a handle if one is held, else returns all ones. -/
  | qtry (n : Nat) (d : Nat) (i : Nat)
  /-- QGRANT (R257). Adds allowance to a queue, trapping QERR on overflow. -/
  | qgrant (n : Nat) (a : Nat) (i : Nat)
  /-- QSTAT (R257). Returns the queue state word in Sd. -/
  | qstat (n : Nat) (d : Nat) (i : Nat)
  /-- CPB (R129). Hands one copy slice to the copy engine, crediting a barrier; opens or closes a copy. -/
  | cpb (n : Nat) (a : Nat)
  /-- CPB_STATUS (R129). Hands one copy slice to the copy engine with the status word to Sd. -/
  | cpbStatus (d : Nat) (a : Nat)
  /-- CPL (R140). Copies 16 bytes per active lane, crediting a barrier as lanes land. -/
  | cpl (d : Nat) (b : Nat) (a : Nat)
  /-- MMA (R200). Checks and issues a matrix multiply-accumulate into a tile. -/
  | mma (t : Nat) (a : Nat) (b : Nat) (f : Nat) (g : Nat) (m : Nat)
  /-- MMA_CLR (R213). Checks and issues an MMA that first clears the tile and sets its mode. -/
  | mmaClr (t : Nat) (a : Nat) (b : Nat) (f : Nat) (g : Nat) (m : Nat)
  /-- ACLR (R214). Clears a tile and sets its floor and FR mode as a tile operation. -/
  | aclr (t : Nat) (f : Int)
  /-- ADRN (R216). Checks and issues a drain of a tile through the thresher to memory with a status word. -/
  | adrn (t : Nat) (a : Nat) (b : Nat) (f : Nat) (x : Nat)
  /-- SKUPD (R242). Adds each lane's scaled signed value into its DEPTH sketch counters. -/
  | skupd (d : Nat) (b : Nat) (a : Nat) (h : Nat)
  /-- SKQRY (R244). Writes the median of each lane's sketch estimates to Vd. -/
  | skqry (d : Nat) (b : Nat) (a : Nat) (h : Nat)
  /-- SKADD (R245). Engine operation adding a source sketch into a destination sketch with saturation. -/
  | skadd (n : Nat) (a : Nat) (b : Nat)
  /-- SKCLR (R245). Engine operation clearing every counter and SATF of a sketch. -/
  | skclr (n : Nat) (a : Nat)
  /-- SKDEC (R245). Engine operation decaying each counter C to C - floor(C/2^k). -/
  | skdec (n : Nat) (a : Nat) (b : Nat)
  /-- NWR (R309). Writes each lane's element into a peer's window. -/
  | nwr (d : Nat) (a : Nat) (b : Nat)
  /-- NRD (R309). Reads each lane's element from a peer's window. -/
  | nrd (d : Nat) (a : Nat) (b : Nat)
  /-- NRED (R309). Adds each lane's element atomically into a peer's window element. -/
  | nred (d : Nat) (a : Nat) (b : Nat)
  /-- CCALL (R311). Hands a collective call to the collective engine, crediting a barrier. -/
  | ccall (n : Nat) (a : Nat)
  /-- CCALL_STATUS (R311). Hands a collective call to the collective engine with the status word to Sd. -/
  | ccallStatus (d : Nat) (a : Nat)
  /-- XALLOC (R303). Requests n contiguous 2 MiB granary units from switch s. -/
  | xalloc (d : Nat) (a : Nat) (b : Nat)
  /-- XFREE (R304). Releases the granary allocation at the base PA in Sa. -/
  | xfree (d : Nat) (a : Nat) (b : Nat)
  /-- XQUOTA (R306). Reports the job key's granary units held and remaining on a switch. -/
  | xquota (d : Nat) (a : Nat) (b : Nat)
  /-- RNG (R179). Writes four Culm-10 output words per active lane into Vd..Vd+3. -/
  | rng (d : Nat) (a : Nat) (b : Nat)
  /-- ADD (R164). Lane-wise add of Va and Vb under MD. -/
  | add (d : Nat) (a : Nat) (b : Nat)
  /-- ADD_SCALAR (R164). Lane-wise add of Va and broadcast Sb. -/
  | addScalar (d : Nat) (a : Nat) (b : Nat)
  /-- SUB (R164). Lane-wise subtract Vb from Va. -/
  | sub (d : Nat) (a : Nat) (b : Nat)
  /-- SUB_SCALAR (R164). Lane-wise subtract broadcast Sb from Va. -/
  | subScalar (d : Nat) (a : Nat) (b : Nat)
  /-- MUL (R164). Lane-wise multiply of Va and Vb. -/
  | mul (d : Nat) (a : Nat) (b : Nat)
  /-- MUL_SCALAR (R164). Lane-wise multiply of Va and broadcast Sb. -/
  | mulScalar (d : Nat) (a : Nat) (b : Nat)
  /-- MULH (R164). Lane-wise high half of the exact integer product. -/
  | mulh (d : Nat) (a : Nat) (b : Nat)
  /-- MULH_SCALAR (R164). Lane-wise high half of the product with broadcast Sb. -/
  | mulhScalar (d : Nat) (a : Nat) (b : Nat)
  /-- MAD (R165). Lane-wise a*b + Vd, fused for floats. -/
  | mad (d : Nat) (a : Nat) (b : Nat)
  /-- MAD_SCALAR (R165). Lane-wise a*Sb + Vd, fused for floats. -/
  | madScalar (d : Nat) (a : Nat) (b : Nat)
  /-- DIV (R169). Lane-wise divide with divide-fault flags, DIVMASK and optional DIVZ trap. -/
  | div (d : Nat) (a : Nat) (b : Nat)
  /-- DIV_SCALAR (R169). Lane-wise divide by broadcast Sb. -/
  | divScalar (d : Nat) (a : Nat) (b : Nat)
  /-- REM (R169). Lane-wise integer remainder with divide-fault handling. -/
  | rem (d : Nat) (a : Nat) (b : Nat)
  /-- REM_SCALAR (R169). Lane-wise integer remainder by broadcast Sb. -/
  | remScalar (d : Nat) (a : Nat) (b : Nat)
  /-- MIN (R167). Lane-wise minimum. -/
  | min (d : Nat) (a : Nat) (b : Nat)
  /-- MIN_SCALAR (R167). Lane-wise minimum with broadcast Sb. -/
  | minScalar (d : Nat) (a : Nat) (b : Nat)
  /-- MAX (R167). Lane-wise maximum. -/
  | max (d : Nat) (a : Nat) (b : Nat)
  /-- MAX_SCALAR (R167). Lane-wise maximum with broadcast Sb. -/
  | maxScalar (d : Nat) (a : Nat) (b : Nat)
  /-- AND (R164). Lane-wise bitwise and of element bits. -/
  | and (d : Nat) (a : Nat) (b : Nat)
  /-- AND_SCALAR (R164). Lane-wise bitwise and with broadcast Sb. -/
  | andScalar (d : Nat) (a : Nat) (b : Nat)
  /-- OR (R164). Lane-wise bitwise or of element bits. -/
  | or (d : Nat) (a : Nat) (b : Nat)
  /-- OR_SCALAR (R164). Lane-wise bitwise or with broadcast Sb. -/
  | orScalar (d : Nat) (a : Nat) (b : Nat)
  /-- XOR (R164). Lane-wise bitwise xor of element bits. -/
  | xor (d : Nat) (a : Nat) (b : Nat)
  /-- XOR_SCALAR (R164). Lane-wise bitwise xor with broadcast Sb. -/
  | xorScalar (d : Nat) (a : Nat) (b : Nat)
  /-- SHL (R166). Lane-wise shift left, saturating under SAT. -/
  | shl (d : Nat) (a : Nat) (b : Nat)
  /-- SHL_SCALAR (R166). Lane-wise shift left by broadcast Sb. -/
  | shlScalar (d : Nat) (a : Nat) (b : Nat)
  /-- SHR (R166). Lane-wise logical shift right. -/
  | shr (d : Nat) (a : Nat) (b : Nat)
  /-- SHR_SCALAR (R166). Lane-wise logical shift right by broadcast Sb. -/
  | shrScalar (d : Nat) (a : Nat) (b : Nat)
  /-- SAR (R166). Lane-wise arithmetic shift right. -/
  | sar (d : Nat) (a : Nat) (b : Nat)
  /-- SAR_SCALAR (R166). Lane-wise arithmetic shift right by broadcast Sb. -/
  | sarScalar (d : Nat) (a : Nat) (b : Nat)
  /-- SEL (R168). Selects Va or Vb per lane by the guard mask, active by slot mask only. -/
  | sel (d : Nat) (a : Nat) (b : Nat)
  /-- SEL_SCALAR (R168). Selects Va or broadcast Sb per lane by the guard mask. -/
  | selScalar (d : Nat) (a : Nat) (b : Nat)
  /-- ABS (R170). Lane-wise absolute value; float clears the sign bit. -/
  | abs (d : Nat) (a : Nat)
  /-- NEG (R170). Lane-wise negation; float inverts the sign bit. -/
  | neg (d : Nat) (a : Nat)
  /-- NOT (R170). Lane-wise inversion of every element bit. -/
  | not (d : Nat) (a : Nat)
  /-- CLZ (R170). Lane-wise count of leading zeros within the element. -/
  | clz (d : Nat) (a : Nat)
  /-- POPC (R170). Lane-wise count of one bits within the element. -/
  | popc (d : Nat) (a : Nat)
  /-- MOV (R171). Copies the lane or pair of Vb to Vd bit for bit. -/
  | mov (d : Nat) (b : Nat)
  /-- MOV_SCALAR (R171). Broadcasts Sb into every active lane of Vd. -/
  | movScalar (d : Nat) (b : Nat)
  /-- LID (R172). Writes each active lane's index into Vd. -/
  | lid (d : Nat)
  /-- CVT (R174). Converts each lane from the source type to MD.ET, with Q4X and S8 block forms. -/
  | cvt (d : Nat) (a : Nat) (t : Nat)
  /-- RCP (R176). Lane-wise reciprocal within 1 ulp. -/
  | rcp (d : Nat) (a : Nat)
  /-- RSQ (R176). Lane-wise reciprocal square root within 2 ulp. -/
  | rsq (d : Nat) (a : Nat)
  /-- SQRT (R176). Lane-wise correctly rounded square root. -/
  | sqrt (d : Nat) (a : Nat)
  /-- EXP2 (R176). Lane-wise 2^x within 2 ulp. -/
  | exp2 (d : Nat) (a : Nat)
  /-- LOG2 (R176). Lane-wise log2 x. -/
  | log2 (d : Nat) (a : Nat)
  /-- SINP (R178). Lane-wise sin(pi x) with exact argument reduction. -/
  | sinp (d : Nat) (a : Nat)
  /-- COSP (R178). Lane-wise cos(pi x) with exact argument reduction. -/
  | cosp (d : Nat) (a : Nat)
  /-- RINT (R178). Lane-wise rounding to an integral value by MD.RM. -/
  | rint (d : Nat) (a : Nat)
  /-- ADDI (R173). Lane-wise add of sext(imm9). -/
  | addi (d : Nat) (a : Nat) (i : Int)
  /-- ANDI (R173). Lane-wise and with imm9 reduced to the element width. -/
  | andi (d : Nat) (a : Nat) (i : Int)
  /-- SHLI (R173). Lane-wise shift left by imm9. -/
  | shli (d : Nat) (a : Nat) (i : Nat)
  /-- SHRI (R173). Lane-wise logical shift right by imm9. -/
  | shri (d : Nat) (a : Nat) (i : Nat)
  /-- SARI (R173). Lane-wise arithmetic shift right by imm9. -/
  | sari (d : Nat) (a : Nat) (i : Nat)
  /-- MULI (R173). Lane-wise multiply by sext(imm9). -/
  | muli (d : Nat) (a : Nat) (i : Int)
  /-- CMP (R183). Compares Va with Vb per active lane into mask Md under condition cc. -/
  | cmp (m : Nat) (c : Nat) (a : Nat) (b : Nat)
  /-- CMP_SCALAR (R183). Compares Va with broadcast Sb per active lane into Md. -/
  | cmpScalar (m : Nat) (c : Nat) (a : Nat) (b : Nat)
  /-- CMPI (R183). Compares Va with sext(imm9) per active lane into Md. -/
  | cmpi (m : Nat) (c : Nat) (a : Nat) (i : Int)
  /-- MAND (R184). M[md] := M[ma] and M[mb]. -/
  | mand (d : Nat) (a : Nat) (b : Nat)
  /-- MOR (R184). M[md] := M[ma] or M[mb]. -/
  | mor (d : Nat) (a : Nat) (b : Nat)
  /-- MXOR (R184). M[md] := M[ma] xor M[mb]. -/
  | mxor (d : Nat) (a : Nat) (b : Nat)
  /-- MANDN (R184). M[md] := M[ma] and not M[mb]. -/
  | mandn (d : Nat) (a : Nat) (b : Nat)
  /-- MNOT (R184). M[md] := not M[ma] within W lanes. -/
  | mnot (d : Nat) (a : Nat)
  /-- MSET (R185). M[k] := Sa within W lanes. -/
  | mset (k : Nat) (a : Nat)
  /-- MGET (R185). Sd := M[k] zero-extended. -/
  | mget (d : Nat) (k : Nat)
  /-- MPOP (R185). Sd := number of set bits of M[k]. -/
  | mpop (d : Nat) (k : Nat)
  /-- MFST (R185). Sd := index of the lowest set bit of M[k], or W. -/
  | mfst (d : Nat) (k : Nat)
  /-- SHFL (R186). Each active lane takes Va from the lane named in Vb. -/
  | shfl (d : Nat) (a : Nat) (b : Nat)
  /-- SHFL_SCALAR (R186). Each active lane takes Va from the lane named in Sb. -/
  | shflScalar (d : Nat) (a : Nat) (b : Nat)
  /-- SHFLX (R186). Each active lane takes Va from lane i xor k. -/
  | shflx (d : Nat) (a : Nat) (i : Int)
  /-- SHFLU (R186). Each active lane takes Va from lane i - k. -/
  | shflu (d : Nat) (a : Nat) (i : Int)
  /-- SHFLD (R186). Each active lane takes Va from lane i + k. -/
  | shfld (d : Nat) (a : Nat) (i : Int)
  /-- BCAST (R186). Each active lane takes Va from lane k. -/
  | bcast (d : Nat) (a : Nat) (i : Int)
  /-- RSUM (R188). Sums active lanes over the fixed lane tree into Sd. -/
  | rsum (d : Nat) (a : Nat)
  /-- RMIN (R188). Minimum of active lanes into Sd. -/
  | rmin (d : Nat) (a : Nat)
  /-- RMAX (R188). Maximum of active lanes into Sd. -/
  | rmax (d : Nat) (a : Nat)
  /-- RAND (R188). Bitwise and of active lanes into Sd. -/
  | rand (d : Nat) (a : Nat)
  /-- ROR (R188). Bitwise or of active lanes into Sd. -/
  | ror (d : Nat) (a : Nat)
  /-- RXOR (R188). Bitwise xor of active lanes into Sd. -/
  | rxor (d : Nat) (a : Nat)
  /-- PSUM (R189). Inclusive prefix sum over lanes. -/
  | psum (d : Nat) (a : Nat)
  /-- PSUMX (R189). Exclusive prefix sum over lanes. -/
  | psumx (d : Nat) (a : Nat)
  /-- PMIN (R189). Inclusive prefix minimum over lanes. -/
  | pmin (d : Nat) (a : Nat)
  /-- PMAX (R189). Inclusive prefix maximum over lanes. -/
  | pmax (d : Nat) (a : Nat)
  /-- SORT (R191). Stably sorts the W keys of Va into Vd. -/
  | sort (d : Nat) (a : Nat)
  /-- SORTI (R191). Writes the source lane of each sorted rank. -/
  | sorti (d : Nat) (a : Nat)
  /-- MRGLO (R192). Writes the lower half of the merge of Va and Vb. -/
  | mrglo (d : Nat) (a : Nat) (b : Nat)
  /-- MRGHI (R192). Writes the upper half of the merge of Va and Vb. -/
  | mrghi (d : Nat) (a : Nat) (b : Nat)
  /-- MRGI (R193). Writes the merge's source indices into Vd and Vd+1. -/
  | mrgi (d : Nat) (a : Nat) (b : Nat)
  /-- LDS (R113). Scalar load of 1-8 bytes zero-extended into Sd. -/
  | lds (d : Nat) (a : Nat) (z : Nat) (o : Int)
  /-- STS (R113). Scalar store of the low bytes of Sd. -/
  | sts (d : Nat) (a : Nat) (z : Nat) (o : Int)
  /-- LDAQ (R114). Scalar acquire load at a scope. -/
  | ldaq (d : Nat) (a : Nat) (c : Nat) (w : Nat) (o : Int)
  /-- STRL (R114). Scalar release store at a scope. -/
  | strl (d : Nat) (a : Nat) (c : Nat) (w : Nat) (o : Int)
  /-- LDC (R115). Contiguous vector load, one element per active lane. -/
  | ldc (d : Nat) (a : Nat) (o : Int) (z : Nat)
  /-- STC (R115). Contiguous vector store, with bound checks under MD.BND. -/
  | stc (d : Nat) (a : Nat) (o : Int) (z : Nat)
  /-- LDV (R115). Indexed vector load at Sa + Vb per lane. -/
  | ldv (d : Nat) (b : Nat) (a : Nat) (z : Nat) (h : Nat)
  /-- STV (R115). Indexed vector store at Sa + Vb per lane, with bound checks. -/
  | stv (d : Nat) (b : Nat) (a : Nat) (z : Nat) (h : Nat)
  /-- PREF (R117). Asks for a line to be brought into L1, cluster cache or L2; never traps. -/
  | pref (a : Nat) (l : Nat) (o : Int)
  /-- ATADD (R118). Per-lane atomic fetch-and-add. -/
  | atadd (d : Nat) (a : Nat) (b : Nat) (h : Nat)
  /-- ATMIN (R118). Per-lane atomic fetch-and-minimum. -/
  | atmin (d : Nat) (a : Nat) (b : Nat) (h : Nat)
  /-- ATMAX (R118). Per-lane atomic fetch-and-maximum. -/
  | atmax (d : Nat) (a : Nat) (b : Nat) (h : Nat)
  /-- ATAND (R118). Per-lane atomic fetch-and-and. -/
  | atand (d : Nat) (a : Nat) (b : Nat) (h : Nat)
  /-- ATOR (R118). Per-lane atomic fetch-and-or. -/
  | ator (d : Nat) (a : Nat) (b : Nat) (h : Nat)
  /-- ATXOR (R118). Per-lane atomic fetch-and-xor. -/
  | atxor (d : Nat) (a : Nat) (b : Nat) (h : Nat)
  /-- ATXCH (R118). Per-lane atomic exchange. -/
  | atxch (d : Nat) (a : Nat) (b : Nat) (h : Nat)
  /-- ATCAS (R118). Per-lane atomic compare-and-swap. -/
  | atcas (d : Nat) (a : Nat) (b : Nat) (h : Nat)
  /-- IMPRECISE_TRAP_DELIVERY (R374). A held ENGERR, COLLABORT or COLLMISMATCH is delivered at the next instruction boundary of the target slot. -/
  | impreciseTrapDelivery
  /-- MEMORY_RESPONSE (R111). Load or atomic data returns, writing destinations or making a POISON trap pending. -/
  | memoryResponse
  /-- STORE_ACK (R126). A store is performed at its home and acknowledged, leaving the stores class. -/
  | storeAck
  /-- FRESP_WRITE (R105). A write to the fault ring's +0x800 retires records as resolved or fatal and frees ring space. -/
  | frespWrite
  /-- FAULT_REPLAY (R104). A resolved fault re-issues the sheaf instruction or resumes the engine at the faulting access. -/
  | faultReplay
  /-- FAULT_DOORBELL_REPEAT (R105). Every 100 us with unretired records and no response, FVEC is raised again. -/
  | faultDoorbellRepeat
  /-- FAULT_RING_RETRY (R105). Every 100 us a failed fault-ring record write is retried. -/
  | faultRingRetry
  /-- EPOCH_TICK (R107). EPOCH rises by one every 65,536 cycles. -/
  | epochTick
  /-- PIN_RELEASE (R106). A pin directory entry is released after the TLBI and the last MMA holding its lines, writing dirty lines back. -/
  | pinRelease
  /-- NEAR_ATOMIC_SERVICE (R123). The atomic service sheaf pops a request, applies it to the exclusive line and writes return slots. -/
  | nearAtomicService
  /-- ATOMIC_SERVICE_RESTART (R400). On fault or hang over 100 ms the root firmware restarts the untrusted partition and replays queued requests. -/
  | atomicServiceRestart
  /-- COPY_EXECUTE (R135). The copy engine takes a closed copy, validates it and converts and writes its rows. -/
  | copyExecute
  /-- COPY_COMPLETE (R136). A copy ends, writing the status word or finishing barrier credit and error bit. -/
  | copyComplete
  /-- FOLLOW_ON_MMA (R137). After the copy's last byte lands, the engine checks and issues the follow-on MMA. -/
  | followOnMma
  /-- CPL_LANE_LAND (R140). A CPL lane's 16 bytes land and subtract 16 from the barrier's pending bytes. -/
  | cplLaneLand
  /-- TILE_OP_START (R211). The matrix engine starts the next tile operation of the stream once its tile and groups are free. -/
  | tileOpStart
  /-- MMA_COMPLETE (R213). An MMA finishes accumulation into its tile and leaves the tile-op class. -/
  | mmaComplete
  /-- ADRN_COMPLETE (R219). The thresher finishes judging and storing a drain and writes the status word. -/
  | adrnComplete
  /-- SKETCH_COUNTER_STEP (R242). One indivisible counter update of a SKUPD at its execution place, with SATF set on saturation. -/
  | sketchCounterStep
  /-- SKOP_COUNTER_STEP (R245). One destination counter step of a SKOP at its far place, crediting the barrier. -/
  | skopCounterStep
  /-- SKQRY_RESPONSE (R244). A SKQRY's counter reads return and the lane medians are written to Vd. -/
  | skqryResponse
  /-- DIE_LASTING_FAULT (R229). The 65th correction in a window declares a die's fault lasting and runs the remap to the spare. -/
  | dieLastingFault
  /-- ERROR_WINDOW_BOUNDARY (R395). At each window boundary the per-unit event counts are cleared. -/
  | errorWindowBoundary
  /-- ROW_GROUP_RETIRE (R396). A row-group reaching LIMIT corrected sectors is retired and logged with KIND 3. -/
  | rowGroupRetire
  /-- WAVELENGTH_RETIRE (R397). A wavelength reaching the retrain LIMIT is retired and leaves the mask. -/
  | wavelengthRetire
  /-- BANK_ACKNOWLEDGE (R392). The error-policy service reads and clears a bank, advancing GEN. -/
  | bankAcknowledge
  /-- SEQUENCER_START (R263). A sequencer takes the next program from its fork queue and starts it. -/
  | sequencerStart
  /-- TAIL_WRITE (R352). The host writes a launch queue's TAIL doorbell, making records pending and resuming stopped service. -/
  | tailWrite
  /-- LAUNCH_TAKE (R353). The launch sequencer takes a launch record, checks it and expands it into stook records. -/
  | launchTake
  /-- RECORD_ADMIT (R345). A cluster admits the head record, placing its stook and initialising its state. -/
  | recordAdmit
  /-- STOOK_END (R339). A stook ends once its sheaves, programs and operations have ended, applying its record's end rule. -/
  | stookEnd
  /-- SHEAF_SWAP (R367). A sheaf waiting 64 cycles swaps with the first ready pending sheaf. -/
  | sheafSwap
  /-- SHEAF_DISPLACE (R368). A pending sheaf ready for 2,048 cycles displaces the oldest active sheaf. -/
  | sheafDisplace
  /-- PREEMPT_REQUEST (R381). The scheduler firmware requests pre-emption of a stook at safe points. -/
  | preemptRequest
  /-- PREEMPT_DEADLINE (R381). The pre-emption deadline expires and the part pre-empts hard. -/
  | preemptDeadline
  /-- PREEMPT_RESUME (R382). A hard-pre-empted stook is restored exactly on its core. -/
  | preemptResume
  /-- FLIT_BOUNDARY (R291). A port starts its next flit, applying mask changes and testing auto-wake. -/
  | flitBoundary
  /-- FLIT_RECEIVE (R292). A flit arrives, is FEC-checked, delivered in SEQ order or discarded with a RETRY request. -/
  | flitReceive
  /-- RETRY (R292). A RETRY control flit makes the sender resend from the named SEQ. -/
  | retry
  /-- BER_THRESHOLD (R333). A wavelength's corrected-symbol count reaches LNK.THR and a retrain starts. -/
  | berThreshold
  /-- RETRAIN (R333). A RETRAIN control flit makes the peer drop the wavelength from its next flit's mask. -/
  | retrain
  /-- TRAINDONE (R298). A training-complete set is received; matching digests apply the configuration, else fall back. -/
  | traindone
  /-- TRAINING_TIMEOUT (R298). A training attempt lasting over 100 us fails; three failures retire the wavelength or down the port. -/
  | trainingTimeout
  /-- BER_WINDOW (R297). Every 2^24 beat times the LNK.BER counts are cleared. -/
  | berWindow
  /-- LINK_TRAIN (R296). Writing LNK.CTL.TRAIN starts full training of the port. -/
  | linkTrain
  /-- LINK_PARK (R299). An MTC to LNK.PARK parks wavelengths or clears bits to start a wake. -/
  | linkPark
  /-- PARKSET (R299). A PARKSET control flit conveys the sender's park bits. -/
  | parkset
  /-- WAKE (R299). A WAKE control flit clears bits of the receiver's LNK.PARK and starts its wake. -/
  | wake
  /-- ALIGNED (R299). An ALIGNED control flit reports woken wavelengths aligned at the sender. -/
  | aligned
  /-- WAKE_COMPLETE (R334). Once both ends report alignment, woken wavelengths join the mask at the next flit. -/
  | wakeComplete
  /-- BEACON (R320). A rotor beacon adjusts device time by its median skew or declares loss of sync. -/
  | beacon
  /-- FABRIC_REQUEST (R309). A device serves an incoming remote NWR, NRD or NRED at its window after the group check. -/
  | fabricRequest
  /-- GRANARY_REQUEST (R301). A granary switch serves a memory, atomic, sketch or XMEM request in arrival order. -/
  | granaryRequest
  /-- XMEM_RESULT (R302). A switch's XMEM reply writes the result word to Sd. -/
  | xmemResult
  /-- RESPONSE_TIMEOUT (R305). A fabric request with no response within 10 ms completes with the lost-access outcome. -/
  | responseTimeout
  /-- GRANARY_LOST (R101). The fabric manager declares a switch lost and the device marks its allocations at T_mark. -/
  | granaryLost
  /-- FIRST_PACKET (R316). A collective first packet arrives; when all agree the call is matched, else MISMATCH aborts it. -/
  | firstPacket
  /-- COLLECTIVE_ABORT (R327). An ABORT for a call arrives and the member completes the call with ABORT. -/
  | collectiveAbort
  /-- PAUSE (R326). A PAUSE stops sending the call, freezes timers and starts the pause timer. -/
  | pause
  /-- RESUME (R326). A RESUME restarts the call at the first granted occurrence after the next rotation. -/
  | resume
  /-- PAUSE_QUOTA_RELEASE (R326). After two rotations paused the member releases the call's quota use. -/
  | pauseQuotaRelease
  /-- PAUSE_BUDGET_EXPIRE (R327). The pause timer reaches PBUDGET and the member sends ABORT and completes with ABORT. -/
  | pauseBudgetExpire
  /-- SLOT_OCCURRENCE (R324). A graticule slot begins; timed calls start and send data within quota after the guard. -/
  | slotOccurrence
  /-- COLLECTIVE_COMPLETE (R319). A collective call's writes are performed and its status or barrier credit is set. -/
  | collectiveComplete
  /-- GROUP_TABLE_WRITE (R308). The fabric manager writes a group table entry through the root controller. -/
  | groupTableWrite
  /-- GRATICULE_WRITE (R323). The fabric manager writes the graticule slot and quota table. -/
  | graticuleWrite
  /-- LOADER_REQUEST (R405). A mailbox loader request verifies, measures and marks a code segment's frames. -/
  | loaderRequest
  /-- CONTEXT_REGISTER (R348). The driver registers a context descriptor through the mailbox. -/
  | contextRegister
  /-- READBACK_REGISTER (R407). The driver registers the readback region through the mailbox. -/
  | readbackRegister
  /-- RESET (R404). Reset runs measured boot, configuration, start-up verification and enables host decoding. -/
  | reset
  /-- POWER_CAP (R409). A firmware power cap or a 100 C die enters P1 with a lower clock. -/
  | powerCap
  /-- IDLE_ENTRY (R409). No resident stook or queued record for 1 ms enters P2. -/
  | idleEntry
  /-- IDLE_EXIT (R409). A record arriving in P2 returns the device to P0 within 20 us. -/
  | idleExit
  /-- THERMAL_TRIP (R409). A die at 110 C halts the device under R376. -/
  | thermalTrip
  /-- RESERVED_ENCODING (R42). A fetched word whose major opcode is 0x26 or 0x6F-0x7F, or whose sub-operation code is reserved, traps ILLEGAL precisely. -/
  | reservedEncoding
  /-- FETCH_FAULT (R150). An instruction fetch that meets an absent, malformed or non-executable page traps FETCH at the fetched address. -/
  | fetchFault
  /-- HOST_ACCESS (R399). A host PCIe, AtomicOps, CXL.mem or CXL.cache request to device memory or caches arrives and is served, clearing measured-code marks on written frames. -/
  | hostAccess
  /-- COLLECTIVE_CONTRIBUTION (R317). A collective data packet from a peer arrives; it is group-checked, held until matching, or folded into DST and credited. -/
  | collectiveContribution
  /-- ACLR_COMPLETE (R214). An ACLR finishes clearing its tile within 64 cycles of starting and leaves the tile-op class. -/
  | aclrComplete
  /-- CHINJ_COMPLETE (R228). A CHINJ finishes adding to the residue within 8 cycles and leaves the tile-op class. -/
  | chinjComplete
  /-- REMAP_COMPLETE (R229). The remap sequence finishes rebuild and verification, writes CHMAP, logs the record and releases held matrix issue. -/
  | remapComplete
  /-- READBACK_REQUEST (R387). A SYSTEM request makes the root controller write the readback image. -/
  | readbackRequest
  /-- QUOTE_REQUEST (R403). A requester supplies a 32-byte nonce, and the root firmware signs the 16 attestation slots and the nonce with both identity keys. -/
  | quoteRequest
deriving DecidableEq, Repr

end Sys2Proof
end

