-- ==== Sys2Proof/WellFormed.lean ====
section
/-!
DEFINITION. Which instructions are well formed: every field inside its width (spec 02 R35, R36) and no
value the opcode map excludes (R29, R32, R37, R39, R40, R41). A row without an encoding has no fields.
-/
namespace Sys2Proof

/-- A register number or unsigned field of n bits. -/
def okU (n v : Nat) : Bool := decide (v < 2 ^ n)

/-- A signed field of n bits (R36). -/
def okS (n : Nat) (v : Int) : Bool := decide (-(2 : Int) ^ (n - 1) ≤ v) && decide (v < 2 ^ (n - 1))

/-- The control register numbers that are assigned (R31, R32; windows: R232, R225, R261, R296, R389). -/
def cregAssigned (c : Nat) : Bool :=
  (c ≤ 0x003) || (0x010 ≤ c && c ≤ 0x01F) || (0x020 ≤ c && c ≤ 0x024) || (0x030 ≤ c && c ≤ 0x037) ||
  (0x100 ≤ c && c ≤ 0x1FF) || (0x200 ≤ c && c ≤ 0x201) || (0x210 ≤ c && c ≤ 0x21A) ||
  (0x220 ≤ c && c ≤ 0x221) || (0x400 ≤ c && c ≤ 0x48F) ||
  (0x1000 ≤ c && c ≤ 0x13FF && c % 32 < 16) || (0x1800 ≤ c && c ≤ 0x1BFF && c % 8 < 6) ||
  c = 0x1C00 || c = 0x1C01

/-- The mode words MODE accepts: 23 bits, no reserved ET or RM code (R29, R147). -/
def okMode (m : Nat) : Bool := decide (m < 2 ^ 23) && decide (m / 2 ^ 5 % 32 ≤ 14) && decide (m / 2 ^ 10 % 8 ≤ 5)

/-- The instruction's fields are within the encoding's limits. -/
def Instr.WellFormed : Instr → Bool
  | .trap n => okU 25 n
  | .sadd d a b => okU 6 d && okU 6 a && okU 6 b
  | .ssub d a b => okU 6 d && okU 6 a && okU 6 b
  | .smul d a b => okU 6 d && okU 6 a && okU 6 b
  | .smulh d a b => okU 6 d && okU 6 a && okU 6 b
  | .smulhu d a b => okU 6 d && okU 6 a && okU 6 b
  | .sdiv d a b => okU 6 d && okU 6 a && okU 6 b
  | .sdivu d a b => okU 6 d && okU 6 a && okU 6 b
  | .srem d a b => okU 6 d && okU 6 a && okU 6 b
  | .sremu d a b => okU 6 d && okU 6 a && okU 6 b
  | .sand d a b => okU 6 d && okU 6 a && okU 6 b
  | .sor d a b => okU 6 d && okU 6 a && okU 6 b
  | .sxor d a b => okU 6 d && okU 6 a && okU 6 b
  | .sshl d a b => okU 6 d && okU 6 a && okU 6 b
  | .sshr d a b => okU 6 d && okU 6 a && okU 6 b
  | .ssar d a b => okU 6 d && okU 6 a && okU 6 b
  | .smin d a b => okU 6 d && okU 6 a && okU 6 b
  | .sminu d a b => okU 6 d && okU 6 a && okU 6 b
  | .smax d a b => okU 6 d && okU 6 a && okU 6 b
  | .smaxu d a b => okU 6 d && okU 6 a && okU 6 b
  | .sseq d a b => okU 6 d && okU 6 a && okU 6 b
  | .ssne d a b => okU 6 d && okU 6 a && okU 6 b
  | .sslt d a b => okU 6 d && okU 6 a && okU 6 b
  | .ssltu d a b => okU 6 d && okU 6 a && okU 6 b
  | .sclz d a => okU 6 d && okU 6 a
  | .spopc d a => okU 6 d && okU 6 a
  | .saddi d a i => okU 6 d && okU 6 a && okS 13 i
  | .sandi d a i => okU 6 d && okU 6 a && okS 13 i
  | .sori d a i => okU 6 d && okU 6 a && okS 13 i
  | .sxori d a i => okU 6 d && okU 6 a && okS 13 i
  | .sshli d a i => okU 6 d && okU 6 a && decide (i < 64)
  | .sshri d a i => okU 6 d && okU 6 a && decide (i < 64)
  | .ssari d a i => okU 6 d && okU 6 a && decide (i < 64)
  | .sslti d a i => okU 6 d && okU 6 a && okS 13 i
  | .sli d i => okU 6 d && okS 13 i
  | .sliw d i => okU 6 d && okS 32 i
  | .slih d i => okU 6 d && okU 32 i
  | .sget d a b => okU 6 d && okU 8 a && okU 6 b
  | .vset d a b => okU 8 d && okU 6 a && okU 6 b
  | .mode m => okMode m
  | .bra o => okS 25 o
  | .call o => okS 25 o
  | .jmp a i => okU 6 a && okS 13 i
  | .callr a i => okU 6 a && okS 13 i
  | .bc c h a o => decide (c < 6) && okU 1 h && okU 6 a && okS 14 o
  | .split k n t j => okU 4 k && okU 1 n && okS 10 t && okS 10 j
  | .anyb k h o => okU 4 k && okU 1 h && okS 14 o
  | .allb k h o => okU 4 k && okU 1 h && okS 14 o
  | .mfc d c => okU 6 d && decide (c < 2 ^ 13) && cregAssigned c
  | .mtc a c => okU 6 a && decide (c < 2 ^ 13) && cregAssigned c
  | .chmapWrite _ => true
  | .nop => true
  | .join => true
  | .exit => true
  | .yield => true
  | .safept n => okU 8 n
  | .rdv => true
  | .eend => true
  | .clk d => okU 6 d
  | .rft => true
  | .halt => true
  | .tlbi a => okU 6 a
  | .tlbiAll => true
  | .cflush a => okU 6 a
  | .cinv a => okU 6 a
  | .fence k s => okU 2 k && decide (s < 7)
  | .brk n => okU 14 n
  | .sysc n => okU 14 n
  | .chinj a => okU 6 a
  | .fork a b => okU 6 a && okU 6 b
  | .spawn d a b => okU 6 d && okU 6 a && okU 6 b
  | .cont d a b => okU 6 d && okU 6 a && okU 6 b
  | .wait l s c t => okU 6 l && okU 6 s && okU 6 c && okU 6 t
  | .bari n a i => okU 10 n && okU 6 a && okU 6 i
  | .bara n a i => okU 10 n && okU 6 a && okU 6 i
  | .barw n a i => okU 10 n && okU 6 a && okU 6 i
  | .bars n a i => okU 10 n && okU 6 a && okU 6 i
  | .barx n a i => okU 10 n && okU 6 a && okU 6 i
  | .barq n d i => okU 10 n && okU 6 d && okU 6 i
  | .qinit n a i => okU 6 n && okU 6 a && okU 6 i
  | .qpush n a i => okU 6 n && okU 6 a && okU 6 i
  | .qpop n d i => okU 6 n && okU 6 d && okU 6 i
  | .qtry n d i => okU 6 n && okU 6 d && okU 6 i
  | .qgrant n a i => okU 6 n && okU 6 a && okU 6 i
  | .qstat n d i => okU 6 n && okU 6 d && okU 6 i
  | .cpb n a => okU 10 n && okU 6 a
  | .cpbStatus d a => okU 6 d && okU 6 a
  | .cpl d b a => okU 8 d && okU 8 b && okU 6 a
  | .mma t a b f g m => okU 3 t && okU 6 a && okU 6 b && decide (f < 7) && decide (g < 7) && decide (m < 3)
  | .mmaClr t a b f g m => okU 3 t && okU 6 a && okU 6 b && decide (f < 7) && decide (g < 7) && decide (m < 3)
  | .aclr t f => okU 3 t && okS 10 f
  | .adrn t a b f x => okU 3 t && okU 6 a && okU 6 b && decide (f < 9) && okU 6 x
  | .skupd d b a h => okU 8 d && okU 8 b && okU 6 a && okU 1 h
  | .skqry d b a h => okU 8 d && okU 8 b && okU 6 a && okU 1 h
  | .skadd n a b => okU 10 n && okU 6 a && okU 6 b
  | .skclr n a => okU 10 n && okU 6 a
  | .skdec n a b => okU 10 n && okU 6 a && okU 6 b
  | .nwr d a b => okU 8 d && okU 8 a && okU 8 b
  | .nrd d a b => okU 8 d && okU 8 a && okU 8 b
  | .nred d a b => okU 8 d && okU 8 a && okU 8 b
  | .ccall n a => okU 10 n && okU 6 a
  | .ccallStatus d a => okU 6 d && okU 6 a
  | .xalloc d a b => okU 6 d && okU 6 a && okU 6 b
  | .xfree d a b => okU 6 d && okU 6 a && okU 6 b
  | .xquota d a b => okU 6 d && okU 6 a && okU 6 b
  | .rng d a b => okU 8 d && decide (d % 4 = 0) && okU 8 a && okU 6 b
  | .add d a b => okU 8 d && okU 8 a && okU 8 b
  | .addScalar d a b => okU 8 d && okU 8 a && okU 6 b
  | .sub d a b => okU 8 d && okU 8 a && okU 8 b
  | .subScalar d a b => okU 8 d && okU 8 a && okU 6 b
  | .mul d a b => okU 8 d && okU 8 a && okU 8 b
  | .mulScalar d a b => okU 8 d && okU 8 a && okU 6 b
  | .mulh d a b => okU 8 d && okU 8 a && okU 8 b
  | .mulhScalar d a b => okU 8 d && okU 8 a && okU 6 b
  | .mad d a b => okU 8 d && okU 8 a && okU 8 b
  | .madScalar d a b => okU 8 d && okU 8 a && okU 6 b
  | .div d a b => okU 8 d && okU 8 a && okU 8 b
  | .divScalar d a b => okU 8 d && okU 8 a && okU 6 b
  | .rem d a b => okU 8 d && okU 8 a && okU 8 b
  | .remScalar d a b => okU 8 d && okU 8 a && okU 6 b
  | .min d a b => okU 8 d && okU 8 a && okU 8 b
  | .minScalar d a b => okU 8 d && okU 8 a && okU 6 b
  | .max d a b => okU 8 d && okU 8 a && okU 8 b
  | .maxScalar d a b => okU 8 d && okU 8 a && okU 6 b
  | .and d a b => okU 8 d && okU 8 a && okU 8 b
  | .andScalar d a b => okU 8 d && okU 8 a && okU 6 b
  | .or d a b => okU 8 d && okU 8 a && okU 8 b
  | .orScalar d a b => okU 8 d && okU 8 a && okU 6 b
  | .xor d a b => okU 8 d && okU 8 a && okU 8 b
  | .xorScalar d a b => okU 8 d && okU 8 a && okU 6 b
  | .shl d a b => okU 8 d && okU 8 a && okU 8 b
  | .shlScalar d a b => okU 8 d && okU 8 a && okU 6 b
  | .shr d a b => okU 8 d && okU 8 a && okU 8 b
  | .shrScalar d a b => okU 8 d && okU 8 a && okU 6 b
  | .sar d a b => okU 8 d && okU 8 a && okU 8 b
  | .sarScalar d a b => okU 8 d && okU 8 a && okU 6 b
  | .sel d a b => okU 8 d && okU 8 a && okU 8 b
  | .selScalar d a b => okU 8 d && okU 8 a && okU 6 b
  | .abs d a => okU 8 d && okU 8 a
  | .neg d a => okU 8 d && okU 8 a
  | .not d a => okU 8 d && okU 8 a
  | .clz d a => okU 8 d && okU 8 a
  | .popc d a => okU 8 d && okU 8 a
  | .mov d b => okU 8 d && okU 8 b
  | .movScalar d b => okU 8 d && okU 6 b
  | .lid d => okU 8 d
  | .cvt d a t => okU 8 d && okU 8 a && decide (t < 15)
  | .rcp d a => okU 8 d && okU 8 a
  | .rsq d a => okU 8 d && okU 8 a
  | .sqrt d a => okU 8 d && okU 8 a
  | .exp2 d a => okU 8 d && okU 8 a
  | .log2 d a => okU 8 d && okU 8 a
  | .sinp d a => okU 8 d && okU 8 a
  | .cosp d a => okU 8 d && okU 8 a
  | .rint d a => okU 8 d && okU 8 a
  | .addi d a i => okU 8 d && okU 8 a && okS 9 i
  | .andi d a i => okU 8 d && okU 8 a && okS 9 i
  | .shli d a i => okU 8 d && okU 8 a && decide (i < 64)
  | .shri d a i => okU 8 d && okU 8 a && decide (i < 64)
  | .sari d a i => okU 8 d && okU 8 a && decide (i < 64)
  | .muli d a i => okU 8 d && okU 8 a && okS 9 i
  | .cmp m c a b => okU 4 m && decide (c < 12) && okU 8 a && okU 8 b
  | .cmpScalar m c a b => okU 4 m && decide (c < 12) && okU 8 a && okU 6 b
  | .cmpi m c a i => okU 4 m && decide (c < 12) && okU 8 a && okS 9 i
  | .mand d a b => okU 4 d && okU 4 a && okU 4 b
  | .mor d a b => okU 4 d && okU 4 a && okU 4 b
  | .mxor d a b => okU 4 d && okU 4 a && okU 4 b
  | .mandn d a b => okU 4 d && okU 4 a && okU 4 b
  | .mnot d a => okU 4 d && okU 4 a
  | .mset k a => okU 4 k && okU 6 a
  | .mget d k => okU 6 d && okU 4 k
  | .mpop d k => okU 6 d && okU 4 k
  | .mfst d k => okU 6 d && okU 4 k
  | .shfl d a b => okU 8 d && okU 8 a && okU 8 b
  | .shflScalar d a b => okU 8 d && okU 8 a && okU 6 b
  | .shflx d a i => okU 8 d && okU 8 a && okS 9 i
  | .shflu d a i => okU 8 d && okU 8 a && okS 9 i
  | .shfld d a i => okU 8 d && okU 8 a && okS 9 i
  | .bcast d a i => okU 8 d && okU 8 a && okS 9 i
  | .rsum d a => okU 6 d && okU 8 a
  | .rmin d a => okU 6 d && okU 8 a
  | .rmax d a => okU 6 d && okU 8 a
  | .rand d a => okU 6 d && okU 8 a
  | .ror d a => okU 6 d && okU 8 a
  | .rxor d a => okU 6 d && okU 8 a
  | .psum d a => okU 8 d && okU 8 a
  | .psumx d a => okU 8 d && okU 8 a
  | .pmin d a => okU 8 d && okU 8 a
  | .pmax d a => okU 8 d && okU 8 a
  | .sort d a => okU 8 d && okU 8 a
  | .sorti d a => okU 8 d && okU 8 a
  | .mrglo d a b => okU 8 d && okU 8 a && okU 8 b
  | .mrghi d a b => okU 8 d && okU 8 a && okU 8 b
  | .mrgi d a b => okU 8 d && okU 8 a && okU 8 b
  | .lds d a z o => okU 6 d && okU 6 a && okU 2 z && okS 11 o
  | .sts d a z o => okU 6 d && okU 6 a && okU 2 z && okS 11 o
  | .ldaq d a c w o => okU 6 d && okU 6 a && decide (c < 7) && okU 1 w && okS 9 o
  | .strl d a c w o => okU 6 d && okU 6 a && decide (c < 7) && okU 1 w && okS 9 o
  | .ldc d a o z => okU 8 d && okU 6 a && okS 9 o && okU 2 z
  | .stc d a o z => okU 8 d && okU 6 a && okS 9 o && okU 2 z
  | .ldv d b a z h => okU 8 d && okU 8 b && okU 6 a && okU 2 z && okU 1 h
  | .stv d b a z h => okU 8 d && okU 8 b && okU 6 a && okU 2 z && okU 1 h
  | .pref a l o => okU 6 a && decide (l < 3) && okS 11 o
  | .atadd d a b h => okU 8 d && okU 8 a && decide (a % 2 = 0) && okU 8 b && okU 1 h
  | .atmin d a b h => okU 8 d && okU 8 a && decide (a % 2 = 0) && okU 8 b && okU 1 h
  | .atmax d a b h => okU 8 d && okU 8 a && decide (a % 2 = 0) && okU 8 b && okU 1 h
  | .atand d a b h => okU 8 d && okU 8 a && decide (a % 2 = 0) && okU 8 b && okU 1 h
  | .ator d a b h => okU 8 d && okU 8 a && decide (a % 2 = 0) && okU 8 b && okU 1 h
  | .atxor d a b h => okU 8 d && okU 8 a && decide (a % 2 = 0) && okU 8 b && okU 1 h
  | .atxch d a b h => okU 8 d && okU 8 a && decide (a % 2 = 0) && okU 8 b && okU 1 h
  | .atcas d a b h => okU 8 d && okU 8 a && decide (a % 2 = 0) && okU 8 b && okU 1 h
  | .impreciseTrapDelivery => true
  | .memoryResponse => true
  | .storeAck => true
  | .frespWrite => true
  | .faultReplay => true
  | .faultDoorbellRepeat => true
  | .faultRingRetry => true
  | .epochTick => true
  | .pinRelease => true
  | .nearAtomicService => true
  | .atomicServiceRestart => true
  | .copyExecute => true
  | .copyComplete => true
  | .followOnMma => true
  | .cplLaneLand => true
  | .tileOpStart => true
  | .mmaComplete => true
  | .adrnComplete => true
  | .sketchCounterStep => true
  | .skopCounterStep => true
  | .skqryResponse => true
  | .dieLastingFault => true
  | .errorWindowBoundary => true
  | .rowGroupRetire => true
  | .wavelengthRetire => true
  | .bankAcknowledge => true
  | .sequencerStart => true
  | .tailWrite => true
  | .launchTake => true
  | .recordAdmit => true
  | .stookEnd => true
  | .sheafSwap => true
  | .sheafDisplace => true
  | .preemptRequest => true
  | .preemptDeadline => true
  | .preemptResume => true
  | .flitBoundary => true
  | .flitReceive => true
  | .retry => true
  | .berThreshold => true
  | .retrain => true
  | .traindone => true
  | .trainingTimeout => true
  | .berWindow => true
  | .linkTrain => true
  | .linkPark => true
  | .parkset => true
  | .wake => true
  | .aligned => true
  | .wakeComplete => true
  | .beacon => true
  | .fabricRequest => true
  | .granaryRequest => true
  | .xmemResult => true
  | .responseTimeout => true
  | .granaryLost => true
  | .firstPacket => true
  | .collectiveAbort => true
  | .pause => true
  | .resume => true
  | .pauseQuotaRelease => true
  | .pauseBudgetExpire => true
  | .slotOccurrence => true
  | .collectiveComplete => true
  | .groupTableWrite => true
  | .graticuleWrite => true
  | .loaderRequest => true
  | .contextRegister => true
  | .readbackRegister => true
  | .reset => true
  | .powerCap => true
  | .idleEntry => true
  | .idleExit => true
  | .thermalTrip => true
  | .reservedEncoding => true
  | .fetchFault => true
  | .hostAccess => true
  | .collectiveContribution => true
  | .aclrComplete => true
  | .chinjComplete => true
  | .remapComplete => true
  | .readbackRequest => true
  | .quoteRequest => true

end Sys2Proof
end

