-- ==== Sys2Proof/Decode.lean ====
section
/-!
DEFINITION. The decoder, total on any bytes and rejecting by name (spec 02 R34 to R42), and after it the
encoder written from the same tables. `decodeTableWord` is the decoder on a word numbered as
spec/opcode_table.json numbers it.
-/
namespace Sys2Proof

/-- Why the bytes are no instruction (R42). -/
inductive DecodeError where
  /-- Fewer bytes than the instruction has. -/
  | truncated
  /-- Major opcode 0x26 or 0x6F to 0x7F. -/
  | reservedOpcode
  /-- A sub-operation, condition, type or format code that R29, R40 or R41 reserves. -/
  | reservedCode
  /-- A nonzero bit in a field that R35, R37, R39 or R41 requires to be zero. -/
  | mustBeZero
  /-- An immediate or register number that R39 excludes. -/
  | excluded
  /-- MFC or MTC of an unassigned control register (R32). -/
  | unassignedCreg
  /-- Scope code 7 (R7). -/
  | reservedScope
deriving DecidableEq, Repr

/-- Bits [hi:lo] of a word (R2). -/
def fld (w hi lo : Nat) : Nat := w / 2 ^ lo % 2 ^ (hi + 1 - lo)

/-- sext(x, n) of R9: an n-bit field read as two's complement (R36). -/
def sx (n x : Nat) : Int := if x < 2 ^ (n - 1) then (x : Int) else (x : Int) - 2 ^ n

/-- The n-bit field that holds a signed value. -/
def toField (n : Nat) (i : Int) : Nat := (i % (2 : Int) ^ n).toNat

/-- Accept `i` when the stated bits are zero (R42). -/
def zeroBits (z : Nat) (i : Instr) : Except DecodeError Instr :=
  if z = 0 then .ok i else .error .mustBeZero

/-- Accept `i` when the condition of R39 holds. -/
def allow (b : Bool) (i : Instr) : Except DecodeError Instr :=
  if b then .ok i else .error .excluded

/-- Accept `i` when the code is assigned (R40). -/
def coded (b : Bool) (i : Instr) : Except DecodeError Instr :=
  if b then .ok i else .error .reservedCode

/-- Accept `i` unless the scope code is 7 (R7, R42). -/
def inScope (sc : Nat) (i : Instr) : Except DecodeError Instr :=
  if sc < 7 then .ok i else .error .reservedScope

/-- Accept `i` when the control register is assigned (R32). -/
def creg (c : Nat) (i : Instr) : Except DecodeError Instr :=
  if cregAssigned c then .ok i else .error .unassignedCreg

/-- SALU, Form C (R40, R142). -/
def decodeSalu (w : Nat) : Except DecodeError Instr :=
  let d := fld w 24 19; let a := fld w 18 13; let b := fld w 12 7
  match fld w 6 0 with
  | 0 => .ok (.sadd d a b)
  | 1 => .ok (.ssub d a b)
  | 2 => .ok (.smul d a b)
  | 3 => .ok (.smulh d a b)
  | 4 => .ok (.smulhu d a b)
  | 5 => .ok (.sdiv d a b)
  | 6 => .ok (.sdivu d a b)
  | 7 => .ok (.srem d a b)
  | 8 => .ok (.sremu d a b)
  | 9 => .ok (.sand d a b)
  | 10 => .ok (.sor d a b)
  | 11 => .ok (.sxor d a b)
  | 12 => .ok (.sshl d a b)
  | 13 => .ok (.sshr d a b)
  | 14 => .ok (.ssar d a b)
  | 15 => .ok (.smin d a b)
  | 16 => .ok (.sminu d a b)
  | 17 => .ok (.smax d a b)
  | 18 => .ok (.smaxu d a b)
  | 19 => .ok (.sseq d a b)
  | 20 => .ok (.ssne d a b)
  | 21 => .ok (.sslt d a b)
  | 22 => .ok (.ssltu d a b)
  | 23 => zeroBits b (.sclz d a)
  | 24 => zeroBits b (.spopc d a)
  | _ => .error .reservedCode

/-- SYS, Form Z (R41). -/
def decodeSys (w : Nat) : Except DecodeError Instr :=
  let a := fld w 19 14; let m := fld w 13 0; let rest := fld w 19 0
  match fld w 24 20 with
  | 0 => zeroBits rest .nop
  | 1 => zeroBits rest .join
  | 2 => zeroBits rest .exit
  | 3 => zeroBits rest .yield
  | 4 => zeroBits (fld w 19 8) (.safept (fld w 7 0))
  | 5 => zeroBits rest .rdv
  | 6 => zeroBits rest .eend
  | 7 => zeroBits m (.clk a)
  | 8 => zeroBits rest .rft
  | 9 => zeroBits rest .halt
  | 10 => if m = 0 then .ok (.tlbi a) else if m = 1 then zeroBits a .tlbiAll else .error .reservedCode
  | 11 => zeroBits m (.cflush a)
  | 12 => zeroBits m (.cinv a)
  | 13 => if fld w 19 5 = 0 then inScope (fld w 2 0) (.fence (fld w 4 3) (fld w 2 0)) else .error .mustBeZero
  | 14 => zeroBits a (.brk m)
  | 15 => zeroBits a (.sysc m)
  | 16 => zeroBits m (.chinj a)
  | _ => .error .reservedCode

/-- BAR, Form Q (R40, R252). -/
def decodeBar (w : Nat) : Except DecodeError Instr :=
  let n := fld w 21 12; let a := fld w 11 6; let i := fld w 5 0
  match fld w 24 22 with
  | 0 => .ok (.bari n a i)
  | 1 => .ok (.bara n a i)
  | 2 => .ok (.barw n a i)
  | 3 => .ok (.bars n a i)
  | 4 => .ok (.barx n a i)
  | 5 => .ok (.barq n a i)
  | _ => .error .reservedCode

/-- QOP, Form Q, queue numbers below 64 (R40, R257, R39). -/
def decodeQop (w : Nat) : Except DecodeError Instr :=
  let n := fld w 17 12; let a := fld w 11 6; let i := fld w 5 0
  match fld w 24 22 with
  | 0 => zeroBits (fld w 21 18) (.qinit n a i)
  | 1 => zeroBits (fld w 21 18) (.qpush n a i)
  | 2 => zeroBits (fld w 21 18) (.qpop n a i)
  | 3 => zeroBits (fld w 21 18) (.qtry n a i)
  | 4 => zeroBits (fld w 21 18) (.qgrant n a i)
  | 5 => zeroBits (fld w 21 18) (.qstat n a i)
  | _ => .error .reservedCode

/-- SKOP, Form K with k = 0 (R39, R40). -/
def decodeSkop (w : Nat) : Except DecodeError Instr :=
  let n := fld w 23 14; let a := fld w 13 8; let b := fld w 7 2
  if fld w 24 24 = 0 then
    match fld w 1 0 with
    | 0 => .ok (.skadd n a b)
    | 1 => zeroBits b (.skclr n a)
    | 2 => .ok (.skdec n a b)
    | _ => .error .reservedCode
  else .error .mustBeZero

/-- XMEM, Form K with k = 1 (R39, R40). -/
def decodeXmem (w : Nat) : Except DecodeError Instr :=
  let d := fld w 19 14; let a := fld w 13 8; let b := fld w 7 2
  if fld w 24 20 = 16 then
    match fld w 1 0 with
    | 0 => .ok (.xalloc d a b)
    | 1 => .ok (.xfree d a b)
    | 2 => .ok (.xquota d a b)
    | _ => .error .reservedCode
  else .error .mustBeZero

/-- UNA, Form B (R40). -/
def decodeUna (w : Nat) : Except DecodeError Instr :=
  let d := fld w 24 17; let a := fld w 16 9
  match fld w 8 0 with
  | 0 => .ok (.abs d a)
  | 1 => .ok (.neg d a)
  | 2 => .ok (.not d a)
  | 3 => .ok (.clz d a)
  | 4 => .ok (.popc d a)
  | _ => .error .reservedCode

/-- SFU, Form B (R40). -/
def decodeSfu (w : Nat) : Except DecodeError Instr :=
  let d := fld w 24 17; let a := fld w 16 9
  match fld w 8 0 with
  | 0 => .ok (.rcp d a)
  | 1 => .ok (.rsq d a)
  | 2 => .ok (.sqrt d a)
  | 3 => .ok (.exp2 d a)
  | 4 => .ok (.log2 d a)
  | 5 => .ok (.sinp d a)
  | 6 => .ok (.cosp d a)
  | 7 => .ok (.rint d a)
  | _ => .error .reservedCode

/-- MLOG, Form Y (R40). -/
def decodeMlog (w : Nat) : Except DecodeError Instr :=
  let d := fld w 24 21; let a := fld w 20 17; let b := fld w 16 13
  if fld w 9 0 = 0 then
    match fld w 12 10 with
    | 0 => .ok (.mand d a b)
    | 1 => .ok (.mor d a b)
    | 2 => .ok (.mxor d a b)
    | 3 => .ok (.mandn d a b)
    | 4 => zeroBits b (.mnot d a)
    | _ => .error .reservedCode
  else .error .mustBeZero

/-- RED, Form T (R40). -/
def decodeRed (w : Nat) : Except DecodeError Instr :=
  let d := fld w 24 19; let a := fld w 18 11
  if fld w 10 5 = 0 ∧ fld w 1 0 = 0 then
    match fld w 4 2 with
    | 0 => .ok (.rsum d a)
    | 1 => .ok (.rmin d a)
    | 2 => .ok (.rmax d a)
    | 3 => .ok (.rand d a)
    | 4 => .ok (.ror d a)
    | 5 => .ok (.rxor d a)
    | _ => .error .reservedCode
  else .error .mustBeZero

/-- SCAN, Form B (R40). -/
def decodeScan (w : Nat) : Except DecodeError Instr :=
  let d := fld w 24 17; let a := fld w 16 9
  match fld w 8 0 with
  | 0 => .ok (.psum d a)
  | 1 => .ok (.psumx d a)
  | 2 => .ok (.pmin d a)
  | 3 => .ok (.pmax d a)
  | _ => .error .reservedCode

/-- Form A with the scalar broadcast of R37: `v` with x = 0, `sc` with x = 1 and bits [8:7] zero. -/
def formAx (w : Nat) (v sc : Nat → Nat → Nat → Instr) : Except DecodeError Instr :=
  let d := fld w 24 17; let a := fld w 16 9
  if fld w 0 0 = 0 then .ok (v d a (fld w 8 1)) else zeroBits (fld w 8 7) (sc d a (fld w 6 1))

/-- Form A with x required to be zero (R37). -/
def formA0 (w : Nat) (v : Nat → Nat → Nat → Instr) : Except DecodeError Instr :=
  zeroBits (fld w 0 0) (v (fld w 24 17) (fld w 16 9) (fld w 8 1))

/-- Form A of the atomics: x is the placement hint, va even (R37, R39). -/
def formAt (w : Nat) (v : Nat → Nat → Nat → Nat → Instr) : Except DecodeError Instr :=
  zeroBits (fld w 9 9) (v (fld w 24 17) (fld w 16 9) (fld w 8 1) (fld w 0 0))

/-- Form B with a signed imm9 (R36). -/
def formB (w : Nat) (v : Nat → Nat → Int → Instr) : Except DecodeError Instr :=
  .ok (v (fld w 24 17) (fld w 16 9) (sx 9 (fld w 8 0)))

/-- Form B of a shift: imm9 within 0 to 63 (R39). -/
def formBsh (w : Nat) (v : Nat → Nat → Nat → Instr) : Except DecodeError Instr :=
  allow (decide (fld w 8 0 < 64)) (v (fld w 24 17) (fld w 16 9) (fld w 8 0))

/-- Form D with a signed imm13 (R36). -/
def formD (w : Nat) (v : Nat → Nat → Int → Instr) : Except DecodeError Instr :=
  .ok (v (fld w 24 19) (fld w 18 13) (sx 13 (fld w 12 0)))

/-- Form D of a shift: imm13 within 0 to 63 (R39). -/
def formDsh (w : Nat) (v : Nat → Nat → Nat → Instr) : Except DecodeError Instr :=
  allow (decide (fld w 12 0 < 64)) (v (fld w 24 19) (fld w 18 13) (fld w 12 0))

/-- One instruction from its first word and, for a long form, its second (R34, R39).
Log 60: DEDUCED. -/
def decodeWord (w w1 : Nat) : Except DecodeError Instr :=
  match fld w 31 25 with
  | 0x00 => .ok (.trap (fld w 24 0))
  | 0x01 => decodeSalu w
  | 0x02 => formD w .saddi
  | 0x03 => formD w .sandi
  | 0x04 => formD w .sori
  | 0x05 => formD w .sxori
  | 0x06 => formDsh w .sshli
  | 0x07 => formDsh w .sshri
  | 0x08 => formDsh w .ssari
  | 0x09 => formD w .sslti
  | 0x0A => zeroBits (fld w 18 13) (.sli (fld w 24 19) (sx 13 (fld w 12 0)))
  | 0x0B => zeroBits (fld w 18 0) (.sliw (fld w 24 19) (sx 32 (fld w1 31 0)))
  | 0x0C => zeroBits (fld w 18 0) (.slih (fld w 24 19) (fld w1 31 0))
  | 0x0D => zeroBits (fld w 4 0) (.sget (fld w 24 19) (fld w 18 11) (fld w 10 5))
  | 0x0E => zeroBits (fld w 4 0) (.vset (fld w 24 17) (fld w 16 11) (fld w 10 5))
  | 0x0F => if fld w 24 23 = 0 then coded (okMode (fld w 22 0)) (.mode (fld w 22 0)) else .error .mustBeZero
  | 0x10 => .ok (.bra (sx 25 (fld w 24 0)))
  | 0x11 => .ok (.call (sx 25 (fld w 24 0)))
  | 0x12 => zeroBits (fld w 24 19) (.jmp (fld w 18 13) (sx 13 (fld w 12 0)))
  | 0x13 => zeroBits (fld w 24 19) (.callr (fld w 18 13) (sx 13 (fld w 12 0)))
  | 0x14 => coded (decide (fld w 24 21 < 6)) (.bc (fld w 24 21) (fld w 20 20) (fld w 19 14) (sx 14 (fld w 13 0)))
  | 0x15 => .ok (.split (fld w 24 21) (fld w 20 20) (sx 10 (fld w 19 10)) (sx 10 (fld w 9 0)))
  | 0x16 => zeroBits (fld w 19 14) (.anyb (fld w 24 21) (fld w 20 20) (sx 14 (fld w 13 0)))
  | 0x17 => zeroBits (fld w 19 14) (.allb (fld w 24 21) (fld w 20 20) (sx 14 (fld w 13 0)))
  | 0x18 => if fld w 18 13 = 0 then creg (fld w 12 0) (.mfc (fld w 24 19) (fld w 12 0)) else .error .mustBeZero
  | 0x19 => if fld w 24 19 = 0 then creg (fld w 12 0) (.mtc (fld w 18 13) (fld w 12 0)) else .error .mustBeZero
  | 0x1A => decodeSys w
  | 0x1B => if fld w 24 19 = 0 then zeroBits (fld w 6 0) (.fork (fld w 18 13) (fld w 12 7)) else .error .mustBeZero
  | 0x1C => if fld w 24 20 = 0 then zeroBits (fld w 1 0) (.spawn (fld w 19 14) (fld w 13 8) (fld w 7 2)) else .error .mustBeZero
  | 0x1D => if fld w 24 20 = 0 then zeroBits (fld w 1 0) (.cont (fld w 19 14) (fld w 13 8) (fld w 7 2)) else .error .mustBeZero
  | 0x1E => zeroBits (fld w 0 0) (.wait (fld w 24 19) (fld w 18 13) (fld w 12 7) (fld w 6 1))
  | 0x1F => decodeBar w
  | 0x20 => decodeQop w
  | 0x21 =>
    if fld w 7 0 = 0 then
      if fld w 24 24 = 0 then .ok (.cpb (fld w 23 14) (fld w 13 8))
      else zeroBits (fld w 23 20) (.cpbStatus (fld w 19 14) (fld w 13 8))
    else .error .mustBeZero
  | 0x22 => zeroBits (fld w 2 0) (.cpl (fld w 24 17) (fld w 16 9) (fld w 8 3))
  | 0x23 =>
    if fld w 0 0 = 0 then
      coded (decide (fld w 9 7 < 7) && decide (fld w 6 4 < 7) && decide (fld w 2 1 < 3))
        (if fld w 3 3 = 0 then .mma (fld w 24 22) (fld w 21 16) (fld w 15 10) (fld w 9 7) (fld w 6 4) (fld w 2 1)
         else .mmaClr (fld w 24 22) (fld w 21 16) (fld w 15 10) (fld w 9 7) (fld w 6 4) (fld w 2 1))
    else .error .mustBeZero
  | 0x24 => zeroBits (fld w 21 10) (.aclr (fld w 24 22) (sx 10 (fld w 9 0)))
  | 0x25 => coded (decide (fld w 9 6 < 9)) (.adrn (fld w 24 22) (fld w 21 16) (fld w 15 10) (fld w 9 6) (fld w 5 0))
  | 0x27 => zeroBits (fld w 2 1) (.skupd (fld w 24 17) (fld w 16 9) (fld w 8 3) (fld w 0 0))
  | 0x28 => zeroBits (fld w 2 1) (.skqry (fld w 24 17) (fld w 16 9) (fld w 8 3) (fld w 0 0))
  | 0x29 => decodeSkop w
  | 0x2A => formA0 w .nwr
  | 0x2B => formA0 w .nrd
  | 0x2C => formA0 w .nred
  | 0x2D =>
    if fld w 7 0 = 0 then
      if fld w 24 24 = 0 then .ok (.ccall (fld w 23 14) (fld w 13 8))
      else zeroBits (fld w 23 20) (.ccallStatus (fld w 19 14) (fld w 13 8))
    else .error .mustBeZero
  | 0x2E => decodeXmem w
  | 0x2F =>
    if fld w 0 0 = 1 ∧ fld w 8 7 = 0 ∧ fld w 18 17 = 0 then .ok (.rng (fld w 24 17) (fld w 16 9) (fld w 6 1))
    else .error .mustBeZero
  | 0x30 => formAx w .add .addScalar
  | 0x31 => formAx w .sub .subScalar
  | 0x32 => formAx w .mul .mulScalar
  | 0x33 => formAx w .mulh .mulhScalar
  | 0x34 => formAx w .mad .madScalar
  | 0x35 => formAx w .div .divScalar
  | 0x36 => formAx w .rem .remScalar
  | 0x37 => formAx w .min .minScalar
  | 0x38 => formAx w .max .maxScalar
  | 0x39 => formAx w .and .andScalar
  | 0x3A => formAx w .or .orScalar
  | 0x3B => formAx w .xor .xorScalar
  | 0x3C => formAx w .shl .shlScalar
  | 0x3D => formAx w .shr .shrScalar
  | 0x3E => formAx w .sar .sarScalar
  | 0x3F => formAx w .sel .selScalar
  | 0x40 => decodeUna w
  | 0x41 =>
    if fld w 16 9 = 0 then
      if fld w 0 0 = 0 then .ok (.mov (fld w 24 17) (fld w 8 1)) else zeroBits (fld w 8 7) (.movScalar (fld w 24 17) (fld w 6 1))
    else .error .mustBeZero
  | 0x42 => zeroBits (fld w 16 0) (.lid (fld w 24 17))
  | 0x43 => coded (decide (fld w 8 0 < 15)) (.cvt (fld w 24 17) (fld w 16 9) (fld w 8 0))
  | 0x44 => decodeSfu w
  | 0x45 => formB w .addi
  | 0x46 => formB w .andi
  | 0x47 => formBsh w .shli
  | 0x48 => formBsh w .shri
  | 0x49 => formBsh w .sari
  | 0x4A => formB w .muli
  | 0x4B =>
    if fld w 20 17 < 12 then
      if fld w 0 0 = 0 then .ok (.cmp (fld w 24 21) (fld w 20 17) (fld w 16 9) (fld w 8 1))
      else zeroBits (fld w 8 7) (.cmpScalar (fld w 24 21) (fld w 20 17) (fld w 16 9) (fld w 6 1))
    else .error .reservedCode
  | 0x4C => coded (decide (fld w 20 17 < 12)) (.cmpi (fld w 24 21) (fld w 20 17) (fld w 16 9) (sx 9 (fld w 8 0)))
  | 0x4D => decodeMlog w
  | 0x4E => if fld w 24 21 = 0 then zeroBits (fld w 10 0) (.mset (fld w 20 17) (fld w 16 11)) else .error .mustBeZero
  | 0x4F => if fld w 18 15 = 0 then zeroBits (fld w 10 0) (.mget (fld w 24 19) (fld w 14 11)) else .error .mustBeZero
  | 0x50 => if fld w 18 15 = 0 then zeroBits (fld w 10 0) (.mpop (fld w 24 19) (fld w 14 11)) else .error .mustBeZero
  | 0x51 => if fld w 18 15 = 0 then zeroBits (fld w 10 0) (.mfst (fld w 24 19) (fld w 14 11)) else .error .mustBeZero
  | 0x52 => formAx w .shfl .shflScalar
  | 0x53 => formB w .shflx
  | 0x54 => formB w .shflu
  | 0x55 => formB w .shfld
  | 0x56 => formB w .bcast
  | 0x57 => decodeRed w
  | 0x58 => decodeScan w
  | 0x59 => zeroBits (fld w 8 0) (.sort (fld w 24 17) (fld w 16 9))
  | 0x5A => zeroBits (fld w 8 0) (.sorti (fld w 24 17) (fld w 16 9))
  | 0x5B => formA0 w .mrglo
  | 0x5C => formA0 w .mrghi
  | 0x5D => formA0 w .mrgi
  | 0x5E => .ok (.lds (fld w 24 19) (fld w 18 13) (fld w 12 11) (sx 11 (fld w 10 0)))
  | 0x5F => .ok (.sts (fld w 24 19) (fld w 18 13) (fld w 12 11) (sx 11 (fld w 10 0)))
  | 0x60 => inScope (fld w 12 10) (.ldaq (fld w 24 19) (fld w 18 13) (fld w 12 10) (fld w 9 9) (sx 9 (fld w 8 0)))
  | 0x61 => inScope (fld w 12 10) (.strl (fld w 24 19) (fld w 18 13) (fld w 12 10) (fld w 9 9) (sx 9 (fld w 8 0)))
  | 0x62 => .ok (.ldc (fld w 24 17) (fld w 16 11) (sx 9 (fld w 10 2)) (fld w 1 0))
  | 0x63 => .ok (.stc (fld w 24 17) (fld w 16 11) (sx 9 (fld w 10 2)) (fld w 1 0))
  | 0x64 => .ok (.ldv (fld w 24 17) (fld w 16 9) (fld w 8 3) (fld w 2 1) (fld w 0 0))
  | 0x65 => .ok (.stv (fld w 24 17) (fld w 16 9) (fld w 8 3) (fld w 2 1) (fld w 0 0))
  | 0x66 =>
    if fld w 24 19 = 0 then coded (decide (fld w 12 11 < 3)) (.pref (fld w 18 13) (fld w 12 11) (sx 11 (fld w 10 0)))
    else .error .mustBeZero
  | 0x67 => formAt w .atadd
  | 0x68 => formAt w .atmin
  | 0x69 => formAt w .atmax
  | 0x6A => formAt w .atand
  | 0x6B => formAt w .ator
  | 0x6C => formAt w .atxor
  | 0x6D => formAt w .atxch
  | 0x6E => formAt w .atcas
  | _ => .error .reservedOpcode

/-- The word has a second word: SLIW or SLIH (R34). -/
def isLong (w : Nat) : Bool := fld w 31 25 = 0x0B || fld w 31 25 = 0x0C

/-- A little-endian number from bytes (R3). -/
def leNat : List Byte → Nat
  | [] => 0
  | b :: bs => b.toNat + 256 * leNat bs

/-- The n low bytes of a number, lowest first (R3). -/
def leBytes : Nat → Nat → List Byte
  | 0, _ => []
  | n + 1, v => BitVec.ofNat 8 v :: leBytes n (v / 256)

/-- The decoder on bytes: an instruction and the bytes after it, or why there is none. -/
def decode (bs : List Byte) : Except DecodeError (Instr × List Byte) :=
  if bs.length < 4 then .error .truncated
  else
    let w := leNat (bs.take 4)
    if isLong w then
      if bs.length < 8 then .error .truncated
      else match decodeWord w (leNat ((bs.drop 4).take 4)) with
        | .ok i => .ok (i, bs.drop 8)
        | .error e => .error e
    else match decodeWord w 0 with
      | .ok i => .ok (i, bs.drop 4)
      | .error e => .error e

/-- The instruction of an opcode-table word: bit 0 is the least significant bit of the first word; bits above
nbits are zero, up to the longest instruction's 64. -/
def decodeTableWord (nbits w : Nat) : Option Instr :=
  match decode (leBytes 8 (w % 2 ^ nbits)) with
  | .ok (i, _) => some i
  | .error _ => none

/-- A word with 1 field placed by their low bits (R35). -/
def word1 (m alo a : Nat) : Nat := m + a * 2 ^ alo

/-- A word with 2 fields placed by their low bits (R35). -/
def word2 (m alo a blo b : Nat) : Nat := m + a * 2 ^ alo + b * 2 ^ blo

/-- A word with 3 fields placed by their low bits (R35). -/
def word3 (m alo a blo b clo c : Nat) : Nat := m + a * 2 ^ alo + b * 2 ^ blo + c * 2 ^ clo

/-- A word with 4 fields placed by their low bits (R35). -/
def word4 (m alo a blo b clo c dlo d : Nat) : Nat := m + a * 2 ^ alo + b * 2 ^ blo + c * 2 ^ clo + d * 2 ^ dlo

/-- A word with 5 fields placed by their low bits (R35). -/
def word5 (m alo a blo b clo c dlo d elo e : Nat) : Nat := m + a * 2 ^ alo + b * 2 ^ blo + c * 2 ^ clo + d * 2 ^ dlo + e * 2 ^ elo

/-- A word with 6 fields placed by their low bits (R35). -/
def word6 (m alo a blo b clo c dlo d elo e flo f : Nat) : Nat := m + a * 2 ^ alo + b * 2 ^ blo + c * 2 ^ clo + d * 2 ^ dlo + e * 2 ^ elo + f * 2 ^ flo

/-- The words of an instruction, first word first (R34, R35, R39 to R41); none for a row without an encoding. -/
def encode : Instr → List Nat
  | .trap n => [word1 0x00000000 0 n]
  | .sadd d a b => [word3 0x02000000 19 d 13 a 7 b]
  | .ssub d a b => [word3 0x02000001 19 d 13 a 7 b]
  | .smul d a b => [word3 0x02000002 19 d 13 a 7 b]
  | .smulh d a b => [word3 0x02000003 19 d 13 a 7 b]
  | .smulhu d a b => [word3 0x02000004 19 d 13 a 7 b]
  | .sdiv d a b => [word3 0x02000005 19 d 13 a 7 b]
  | .sdivu d a b => [word3 0x02000006 19 d 13 a 7 b]
  | .srem d a b => [word3 0x02000007 19 d 13 a 7 b]
  | .sremu d a b => [word3 0x02000008 19 d 13 a 7 b]
  | .sand d a b => [word3 0x02000009 19 d 13 a 7 b]
  | .sor d a b => [word3 0x0200000A 19 d 13 a 7 b]
  | .sxor d a b => [word3 0x0200000B 19 d 13 a 7 b]
  | .sshl d a b => [word3 0x0200000C 19 d 13 a 7 b]
  | .sshr d a b => [word3 0x0200000D 19 d 13 a 7 b]
  | .ssar d a b => [word3 0x0200000E 19 d 13 a 7 b]
  | .smin d a b => [word3 0x0200000F 19 d 13 a 7 b]
  | .sminu d a b => [word3 0x02000010 19 d 13 a 7 b]
  | .smax d a b => [word3 0x02000011 19 d 13 a 7 b]
  | .smaxu d a b => [word3 0x02000012 19 d 13 a 7 b]
  | .sseq d a b => [word3 0x02000013 19 d 13 a 7 b]
  | .ssne d a b => [word3 0x02000014 19 d 13 a 7 b]
  | .sslt d a b => [word3 0x02000015 19 d 13 a 7 b]
  | .ssltu d a b => [word3 0x02000016 19 d 13 a 7 b]
  | .sclz d a => [word2 0x02000017 19 d 13 a]
  | .spopc d a => [word2 0x02000018 19 d 13 a]
  | .saddi d a i => [word3 0x04000000 19 d 13 a 0 (toField 13 i)]
  | .sandi d a i => [word3 0x06000000 19 d 13 a 0 (toField 13 i)]
  | .sori d a i => [word3 0x08000000 19 d 13 a 0 (toField 13 i)]
  | .sxori d a i => [word3 0x0A000000 19 d 13 a 0 (toField 13 i)]
  | .sshli d a i => [word3 0x0C000000 19 d 13 a 0 i]
  | .sshri d a i => [word3 0x0E000000 19 d 13 a 0 i]
  | .ssari d a i => [word3 0x10000000 19 d 13 a 0 i]
  | .sslti d a i => [word3 0x12000000 19 d 13 a 0 (toField 13 i)]
  | .sli d i => [word2 0x14000000 19 d 0 (toField 13 i)]
  | .sliw d i => [word1 0x16000000 19 d, toField 32 i]
  | .slih d i => [word1 0x18000000 19 d, i]
  | .sget d a b => [word3 0x1A000000 19 d 11 a 5 b]
  | .vset d a b => [word3 0x1C000000 17 d 11 a 5 b]
  | .mode m => [word1 0x1E000000 0 m]
  | .bra o => [word1 0x20000000 0 (toField 25 o)]
  | .call o => [word1 0x22000000 0 (toField 25 o)]
  | .jmp a i => [word2 0x24000000 13 a 0 (toField 13 i)]
  | .callr a i => [word2 0x26000000 13 a 0 (toField 13 i)]
  | .bc c h a o => [word4 0x28000000 21 c 20 h 14 a 0 (toField 14 o)]
  | .split k n t j => [word4 0x2A000000 21 k 20 n 10 (toField 10 t) 0 (toField 10 j)]
  | .anyb k h o => [word3 0x2C000000 21 k 20 h 0 (toField 14 o)]
  | .allb k h o => [word3 0x2E000000 21 k 20 h 0 (toField 14 o)]
  | .mfc d c => [word2 0x30000000 19 d 0 c]
  | .mtc a c => [word2 0x32000000 13 a 0 c]
  | .chmapWrite _ => []
  | .nop => [0x34000000]
  | .join => [0x34100000]
  | .exit => [0x34200000]
  | .yield => [0x34300000]
  | .safept n => [word1 0x34400000 0 n]
  | .rdv => [0x34500000]
  | .eend => [0x34600000]
  | .clk d => [word1 0x34700000 14 d]
  | .rft => [0x34800000]
  | .halt => [0x34900000]
  | .tlbi a => [word1 0x34A00000 14 a]
  | .tlbiAll => [0x34A00001]
  | .cflush a => [word1 0x34B00000 14 a]
  | .cinv a => [word1 0x34C00000 14 a]
  | .fence k s => [word2 0x34D00000 3 k 0 s]
  | .brk n => [word1 0x34E00000 0 n]
  | .sysc n => [word1 0x34F00000 0 n]
  | .chinj a => [word1 0x35000000 14 a]
  | .fork a b => [word2 0x36000000 13 a 7 b]
  | .spawn d a b => [word3 0x38000000 14 d 8 a 2 b]
  | .cont d a b => [word3 0x3A000000 14 d 8 a 2 b]
  | .wait l s c t => [word4 0x3C000000 19 l 13 s 7 c 1 t]
  | .bari n a i => [word3 0x3E000000 12 n 6 a 0 i]
  | .bara n a i => [word3 0x3E400000 12 n 6 a 0 i]
  | .barw n a i => [word3 0x3E800000 12 n 6 a 0 i]
  | .bars n a i => [word3 0x3EC00000 12 n 6 a 0 i]
  | .barx n a i => [word3 0x3F000000 12 n 6 a 0 i]
  | .barq n d i => [word3 0x3F400000 12 n 6 d 0 i]
  | .qinit n a i => [word3 0x40000000 12 n 6 a 0 i]
  | .qpush n a i => [word3 0x40400000 12 n 6 a 0 i]
  | .qpop n d i => [word3 0x40800000 12 n 6 d 0 i]
  | .qtry n d i => [word3 0x40C00000 12 n 6 d 0 i]
  | .qgrant n a i => [word3 0x41000000 12 n 6 a 0 i]
  | .qstat n d i => [word3 0x41400000 12 n 6 d 0 i]
  | .cpb n a => [word2 0x42000000 14 n 8 a]
  | .cpbStatus d a => [word2 0x43000000 14 d 8 a]
  | .cpl d b a => [word3 0x44000000 17 d 9 b 3 a]
  | .mma t a b f g m => [word6 0x46000000 22 t 16 a 10 b 7 f 4 g 1 m]
  | .mmaClr t a b f g m => [word6 0x46000008 22 t 16 a 10 b 7 f 4 g 1 m]
  | .aclr t f => [word2 0x48000000 22 t 0 (toField 10 f)]
  | .adrn t a b f x => [word5 0x4A000000 22 t 16 a 10 b 6 f 0 x]
  | .skupd d b a h => [word4 0x4E000000 17 d 9 b 3 a 0 h]
  | .skqry d b a h => [word4 0x50000000 17 d 9 b 3 a 0 h]
  | .skadd n a b => [word3 0x52000000 14 n 8 a 2 b]
  | .skclr n a => [word2 0x52000001 14 n 8 a]
  | .skdec n a b => [word3 0x52000002 14 n 8 a 2 b]
  | .nwr d a b => [word3 0x54000000 17 d 9 a 1 b]
  | .nrd d a b => [word3 0x56000000 17 d 9 a 1 b]
  | .nred d a b => [word3 0x58000000 17 d 9 a 1 b]
  | .ccall n a => [word2 0x5A000000 14 n 8 a]
  | .ccallStatus d a => [word2 0x5B000000 14 d 8 a]
  | .xalloc d a b => [word3 0x5D000000 14 d 8 a 2 b]
  | .xfree d a b => [word3 0x5D000001 14 d 8 a 2 b]
  | .xquota d a b => [word3 0x5D000002 14 d 8 a 2 b]
  | .rng d a b => [word3 0x5E000001 19 (d / 4) 9 a 1 b]
  | .add d a b => [word3 0x60000000 17 d 9 a 1 b]
  | .addScalar d a b => [word3 0x60000001 17 d 9 a 1 b]
  | .sub d a b => [word3 0x62000000 17 d 9 a 1 b]
  | .subScalar d a b => [word3 0x62000001 17 d 9 a 1 b]
  | .mul d a b => [word3 0x64000000 17 d 9 a 1 b]
  | .mulScalar d a b => [word3 0x64000001 17 d 9 a 1 b]
  | .mulh d a b => [word3 0x66000000 17 d 9 a 1 b]
  | .mulhScalar d a b => [word3 0x66000001 17 d 9 a 1 b]
  | .mad d a b => [word3 0x68000000 17 d 9 a 1 b]
  | .madScalar d a b => [word3 0x68000001 17 d 9 a 1 b]
  | .div d a b => [word3 0x6A000000 17 d 9 a 1 b]
  | .divScalar d a b => [word3 0x6A000001 17 d 9 a 1 b]
  | .rem d a b => [word3 0x6C000000 17 d 9 a 1 b]
  | .remScalar d a b => [word3 0x6C000001 17 d 9 a 1 b]
  | .min d a b => [word3 0x6E000000 17 d 9 a 1 b]
  | .minScalar d a b => [word3 0x6E000001 17 d 9 a 1 b]
  | .max d a b => [word3 0x70000000 17 d 9 a 1 b]
  | .maxScalar d a b => [word3 0x70000001 17 d 9 a 1 b]
  | .and d a b => [word3 0x72000000 17 d 9 a 1 b]
  | .andScalar d a b => [word3 0x72000001 17 d 9 a 1 b]
  | .or d a b => [word3 0x74000000 17 d 9 a 1 b]
  | .orScalar d a b => [word3 0x74000001 17 d 9 a 1 b]
  | .xor d a b => [word3 0x76000000 17 d 9 a 1 b]
  | .xorScalar d a b => [word3 0x76000001 17 d 9 a 1 b]
  | .shl d a b => [word3 0x78000000 17 d 9 a 1 b]
  | .shlScalar d a b => [word3 0x78000001 17 d 9 a 1 b]
  | .shr d a b => [word3 0x7A000000 17 d 9 a 1 b]
  | .shrScalar d a b => [word3 0x7A000001 17 d 9 a 1 b]
  | .sar d a b => [word3 0x7C000000 17 d 9 a 1 b]
  | .sarScalar d a b => [word3 0x7C000001 17 d 9 a 1 b]
  | .sel d a b => [word3 0x7E000000 17 d 9 a 1 b]
  | .selScalar d a b => [word3 0x7E000001 17 d 9 a 1 b]
  | .abs d a => [word2 0x80000000 17 d 9 a]
  | .neg d a => [word2 0x80000001 17 d 9 a]
  | .not d a => [word2 0x80000002 17 d 9 a]
  | .clz d a => [word2 0x80000003 17 d 9 a]
  | .popc d a => [word2 0x80000004 17 d 9 a]
  | .mov d b => [word2 0x82000000 17 d 1 b]
  | .movScalar d b => [word2 0x82000001 17 d 1 b]
  | .lid d => [word1 0x84000000 17 d]
  | .cvt d a t => [word3 0x86000000 17 d 9 a 0 t]
  | .rcp d a => [word2 0x88000000 17 d 9 a]
  | .rsq d a => [word2 0x88000001 17 d 9 a]
  | .sqrt d a => [word2 0x88000002 17 d 9 a]
  | .exp2 d a => [word2 0x88000003 17 d 9 a]
  | .log2 d a => [word2 0x88000004 17 d 9 a]
  | .sinp d a => [word2 0x88000005 17 d 9 a]
  | .cosp d a => [word2 0x88000006 17 d 9 a]
  | .rint d a => [word2 0x88000007 17 d 9 a]
  | .addi d a i => [word3 0x8A000000 17 d 9 a 0 (toField 9 i)]
  | .andi d a i => [word3 0x8C000000 17 d 9 a 0 (toField 9 i)]
  | .shli d a i => [word3 0x8E000000 17 d 9 a 0 i]
  | .shri d a i => [word3 0x90000000 17 d 9 a 0 i]
  | .sari d a i => [word3 0x92000000 17 d 9 a 0 i]
  | .muli d a i => [word3 0x94000000 17 d 9 a 0 (toField 9 i)]
  | .cmp m c a b => [word4 0x96000000 21 m 17 c 9 a 1 b]
  | .cmpScalar m c a b => [word4 0x96000001 21 m 17 c 9 a 1 b]
  | .cmpi m c a i => [word4 0x98000000 21 m 17 c 9 a 0 (toField 9 i)]
  | .mand d a b => [word3 0x9A000000 21 d 17 a 13 b]
  | .mor d a b => [word3 0x9A000400 21 d 17 a 13 b]
  | .mxor d a b => [word3 0x9A000800 21 d 17 a 13 b]
  | .mandn d a b => [word3 0x9A000C00 21 d 17 a 13 b]
  | .mnot d a => [word2 0x9A001000 21 d 17 a]
  | .mset k a => [word2 0x9C000000 17 k 11 a]
  | .mget d k => [word2 0x9E000000 19 d 11 k]
  | .mpop d k => [word2 0xA0000000 19 d 11 k]
  | .mfst d k => [word2 0xA2000000 19 d 11 k]
  | .shfl d a b => [word3 0xA4000000 17 d 9 a 1 b]
  | .shflScalar d a b => [word3 0xA4000001 17 d 9 a 1 b]
  | .shflx d a i => [word3 0xA6000000 17 d 9 a 0 (toField 9 i)]
  | .shflu d a i => [word3 0xA8000000 17 d 9 a 0 (toField 9 i)]
  | .shfld d a i => [word3 0xAA000000 17 d 9 a 0 (toField 9 i)]
  | .bcast d a i => [word3 0xAC000000 17 d 9 a 0 (toField 9 i)]
  | .rsum d a => [word2 0xAE000000 19 d 11 a]
  | .rmin d a => [word2 0xAE000004 19 d 11 a]
  | .rmax d a => [word2 0xAE000008 19 d 11 a]
  | .rand d a => [word2 0xAE00000C 19 d 11 a]
  | .ror d a => [word2 0xAE000010 19 d 11 a]
  | .rxor d a => [word2 0xAE000014 19 d 11 a]
  | .psum d a => [word2 0xB0000000 17 d 9 a]
  | .psumx d a => [word2 0xB0000001 17 d 9 a]
  | .pmin d a => [word2 0xB0000002 17 d 9 a]
  | .pmax d a => [word2 0xB0000003 17 d 9 a]
  | .sort d a => [word2 0xB2000000 17 d 9 a]
  | .sorti d a => [word2 0xB4000000 17 d 9 a]
  | .mrglo d a b => [word3 0xB6000000 17 d 9 a 1 b]
  | .mrghi d a b => [word3 0xB8000000 17 d 9 a 1 b]
  | .mrgi d a b => [word3 0xBA000000 17 d 9 a 1 b]
  | .lds d a z o => [word4 0xBC000000 19 d 13 a 11 z 0 (toField 11 o)]
  | .sts d a z o => [word4 0xBE000000 19 d 13 a 11 z 0 (toField 11 o)]
  | .ldaq d a c w o => [word5 0xC0000000 19 d 13 a 10 c 9 w 0 (toField 9 o)]
  | .strl d a c w o => [word5 0xC2000000 19 d 13 a 10 c 9 w 0 (toField 9 o)]
  | .ldc d a o z => [word4 0xC4000000 17 d 11 a 2 (toField 9 o) 0 z]
  | .stc d a o z => [word4 0xC6000000 17 d 11 a 2 (toField 9 o) 0 z]
  | .ldv d b a z h => [word5 0xC8000000 17 d 9 b 3 a 1 z 0 h]
  | .stv d b a z h => [word5 0xCA000000 17 d 9 b 3 a 1 z 0 h]
  | .pref a l o => [word3 0xCC000000 13 a 11 l 0 (toField 11 o)]
  | .atadd d a b h => [word4 0xCE000000 17 d 10 (a / 2) 1 b 0 h]
  | .atmin d a b h => [word4 0xD0000000 17 d 10 (a / 2) 1 b 0 h]
  | .atmax d a b h => [word4 0xD2000000 17 d 10 (a / 2) 1 b 0 h]
  | .atand d a b h => [word4 0xD4000000 17 d 10 (a / 2) 1 b 0 h]
  | .ator d a b h => [word4 0xD6000000 17 d 10 (a / 2) 1 b 0 h]
  | .atxor d a b h => [word4 0xD8000000 17 d 10 (a / 2) 1 b 0 h]
  | .atxch d a b h => [word4 0xDA000000 17 d 10 (a / 2) 1 b 0 h]
  | .atcas d a b h => [word4 0xDC000000 17 d 10 (a / 2) 1 b 0 h]
  | .impreciseTrapDelivery => []
  | .memoryResponse => []
  | .storeAck => []
  | .frespWrite => []
  | .faultReplay => []
  | .faultDoorbellRepeat => []
  | .faultRingRetry => []
  | .epochTick => []
  | .pinRelease => []
  | .nearAtomicService => []
  | .atomicServiceRestart => []
  | .copyExecute => []
  | .copyComplete => []
  | .followOnMma => []
  | .cplLaneLand => []
  | .tileOpStart => []
  | .mmaComplete => []
  | .adrnComplete => []
  | .sketchCounterStep => []
  | .skopCounterStep => []
  | .skqryResponse => []
  | .dieLastingFault => []
  | .errorWindowBoundary => []
  | .rowGroupRetire => []
  | .wavelengthRetire => []
  | .bankAcknowledge => []
  | .sequencerStart => []
  | .tailWrite => []
  | .launchTake => []
  | .recordAdmit => []
  | .stookEnd => []
  | .sheafSwap => []
  | .sheafDisplace => []
  | .preemptRequest => []
  | .preemptDeadline => []
  | .preemptResume => []
  | .flitBoundary => []
  | .flitReceive => []
  | .retry => []
  | .berThreshold => []
  | .retrain => []
  | .traindone => []
  | .trainingTimeout => []
  | .berWindow => []
  | .linkTrain => []
  | .linkPark => []
  | .parkset => []
  | .wake => []
  | .aligned => []
  | .wakeComplete => []
  | .beacon => []
  | .fabricRequest => []
  | .granaryRequest => []
  | .xmemResult => []
  | .responseTimeout => []
  | .granaryLost => []
  | .firstPacket => []
  | .collectiveAbort => []
  | .pause => []
  | .resume => []
  | .pauseQuotaRelease => []
  | .pauseBudgetExpire => []
  | .slotOccurrence => []
  | .collectiveComplete => []
  | .groupTableWrite => []
  | .graticuleWrite => []
  | .loaderRequest => []
  | .contextRegister => []
  | .readbackRegister => []
  | .reset => []
  | .powerCap => []
  | .idleEntry => []
  | .idleExit => []
  | .thermalTrip => []
  | .reservedEncoding => []
  | .fetchFault => []
  | .hostAccess => []
  | .collectiveContribution => []
  | .aclrComplete => []
  | .chinjComplete => []
  | .remapComplete => []
  | .readbackRequest => []
  | .quoteRequest => []

/-- The first word of the instruction, as TINFO shows it (R42, R43). -/
def word0 (i : Instr) : Nat := (encode i).headD 0

/-- The bytes of an instruction in memory order (R3, R34). -/
def encodeBytes (i : Instr) : List Byte := (encode i).flatMap (leBytes 4)

end Sys2Proof
end

