-- ==== Sys2Proof/Machine/Sparse.lean ====
section
/-!
DEFINITION. Sparse arrays in one canonical form: a list of (key, value) pairs with strictly rising keys and no
value equal to the default, so that equal arrays are equal lists. Memory, registers and tables are held so.
-/
namespace Sys2Proof.Machine

/-- The value at a key; the default where none is listed. -/
def smGet {α : Type} (d : α) : List (Nat × α) → Nat → α
  | [], _ => d
  | (k, v) :: r, i => if k = i then v else smGet d r i

/-- Insert a value at a key, in the place that its key has. -/
def smIns {α : Type} : List (Nat × α) → Nat → α → List (Nat × α)
  | [], i, v => [(i, v)]
  | (k, x) :: r, i, v =>
    if i < k then (i, v) :: (k, x) :: r
    else if i = k then (i, v) :: r
    else (k, x) :: smIns r i v

/-- Write a value at a key; writing the default removes the entry. -/
def smPut {α : Type} [DecidableEq α] (d : α) (m : List (Nat × α)) (i : Nat) (v : α) : List (Nat × α) :=
  if v = d then m.filter (fun p => decide (p.1 ≠ i)) else smIns m i v

/-- The canonical form: keys strictly rising, no default listed. -/
def smWf {α : Type} [DecidableEq α] (d : α) : List (Nat × α) → Bool
  | [] => true
  | (k, v) :: r => decide (v ≠ d) && r.all (fun p => decide (k < p.1)) && smWf d r

/-- Write the values of a list at consecutive keys. -/
def smPutList {α : Type} [DecidableEq α] (d : α) : List (Nat × α) → Nat → List α → List (Nat × α)
  | m, _, [] => m
  | m, i, v :: vs => smPutList d (smPut d m i v) (i + 1) vs

/-- The values at n consecutive keys. -/
def smRange {α : Type} (d : α) (m : List (Nat × α)) (i n : Nat) : List α :=
  (List.range n).map (fun j => smGet d m (i + j))

/-- Remove every key in [lo, hi). -/
def smDrop {α : Type} (m : List (Nat × α)) (lo hi : Nat) : List (Nat × α) :=
  m.filter (fun p => p.1 < lo || hi ≤ p.1)

end Sys2Proof.Machine
end

