-- ==== Sys2Proof/Machine/State.lean ====
section
/-!
DEFINITION. The state of one KQ-7 device and of the pod's eight granary switches, as plain data, and its value
at reset. Sparse arrays are lists of (key, value) pairs in the canonical form of Machine/Sparse.lean.
Locations of bytes are numbered: the physical address for classes 0 (HBM4), 1 (host) and 2 (fabric) of R82;
3 * 2^52 + core * 2^19 + offset for core SRAM (R92); 4 * 2^52 + (core * 11 + die) * 2^18 + offset for a plane
store (R94).
-/
namespace Sys2Proof.Machine

open Sys2Proof

/-- Why a step of the model stops. -/
inductive Fault where
  /-- An instruction was given to the machine while no sheaf or engine program is in focus; raised by every
  instruction's meaning in that state. Safe: no part issues an instruction without an issuer. -/
  | noAgent
deriving DecidableEq, Repr

/-- Why an instruction has no meaning. -/
inductive Refusal where
  /-- The instruction's arm has no meaning yet; raised by exec alone. Safe: nothing is claimed of it. -/
  | notModelled (mnemonic : String)
deriving DecidableEq, Repr

/-! ### Sheaves and engine programs -/

/-- What runs: a sheaf, or a program on the matrix or copy sequencer (R262). -/
inductive AgentKind where
  | none | sheaf | matSeq | copySeq
deriving DecidableEq, Repr

/-- Why a slot does not issue (R252, R257, R104). -/
inductive Wait where
  /-- It may issue. -/
  | ready
  /-- BARW: waits while the phase bit of the physical barrier equals `bit`. -/
  | parity (pb : Nat) (bit : Bool)
  /-- BARS: waits while PHCNT of the physical barrier equals `ph`. -/
  | phase (pb : Nat) (ph : BitVec 32)
  /-- Stalled in a QPUSH or QPOP on queue q. -/
  | queue (q : Nat)
  /-- Parked at a translation fault, by the record's number. -/
  | parked (fault : Nat)
  /-- The parked access was declared fatal: the slot's next issue traps XLATE, with TADDR, TINFO and TMASK. -/
  | fatal (taddr tinfo mask : Word)
deriving DecidableEq, Repr

/-- A POISON trap made pending by a load (R111): the destinations, and what the trap will show. -/
structure PendPoison where
  vs : List Nat
  ss : List Nat
  taddr : Word
  tmask : Word
  tag : BitVec 12
deriving DecidableEq, Repr

/-- A program-counter slot (R26, R154); `inner` is the index of its innermost join record. -/
structure Slot where
  live : Bool
  pc : Word
  mask : Word
  inner : Option Nat
  wait : Wait
  poison : List PendPoison
deriving DecidableEq, Repr

/-- A free slot (R154). -/
def Slot.free : Slot := ⟨false, 0, 0, none, .ready, []⟩

/-- A live entry of the divergence stack (R156): a join record, or a parked path. -/
structure StackEnt where
  idx : Nat
  join : Bool
  pc : Word
  arr : Word
  mask : Word
  par : Option Nat
deriving DecidableEq, Repr

/-- What the launch fixes for every sheaf of a stook: its kernel header (R355), its resources (R338), its
coordinates (R341) and its record (R344). -/
structure Kernel where
  w : Nat
  vregs : Nat
  tiles : List Nat
  barBase : Nat
  nBar : Nat
  nQ : Nat
  nEng : Nat
  engTab : Word
  nSafe : Nat
  safeTab : Word
  entry : Word
  granules : List Nat
  planeT0 : Nat
  planeN : Nat
  bndMask : Word
  ctx : Nat
  grp : BitVec 16
  jobkey : Word
  hx : List Nat
  hn : List Nat
  nSheaf : Nat
  pool : Nat
  prio : Nat
  sys : Bool
deriving DecidableEq, Repr

/-- The kernel facts of no stook. -/
def Kernel.none : Kernel :=
  ⟨16, 8, [], 0, 0, 0, 0, 0, 0, 0, 0, [], 0, 0, 0, 0, 0, 0, [], [], 1, 0, 0, false⟩

/-- A sheaf or an engine program, with all its registers (R22 to R31, R154, R264, R371); `since` when it entered its set, or
became ready in the pending one (R365), and `last` the number of its last issue (R366). -/
structure Agent where
  kind : AgentKind
  id : Nat
  stook : Nat
  core : Nat
  slotNo : Nat
  hx1 : Nat
  k : Kernel
  v : List (Nat × Lane)
  s : List (Nat × Word)
  m : List (Nat × Word)
  md : BitVec 24
  sstat : BitVec 8
  divmask : Word
  srkey : Word
  srseq : Word
  rngstream : Word
  tcause : Word
  tpc : Word
  taddr : Word
  tinfo : Word
  tmask : Word
  tslot : Word
  thnd : Word
  tseq : Word
  priv : Bool
  pri : Slot
  sec : Slot
  turn : Bool
  stack : List StackEnt
  cntLd : Nat
  cntSt : Nat
  cntCp : Nat
  cntTl : Nat
  sPend : List Nat
  vPend : List Nat
  forker : Nat
  ended : Bool
  stopPt : Option Nat
  saving : Bool
  active : Bool
  since : Nat
  last : Nat
deriving DecidableEq, Repr

/-- No agent: nothing is in focus. -/
def Agent.none : Agent :=
  { kind := .none, id := 0, stook := 0, core := 0, slotNo := 0, hx1 := 0, k := Kernel.none,
    v := [], s := [], m := [], md := 0, sstat := 0, divmask := 0, srkey := 0, srseq := 0, rngstream := 0,
    tcause := 0, tpc := 0, taddr := 0, tinfo := 0, tmask := 0, tslot := 0, thnd := 0, tseq := 0,
    priv := false, pri := Slot.free, sec := Slot.free, turn := false, stack := [],
    cntLd := 0, cntSt := 0, cntCp := 0, cntTl := 0, sPend := [], vPend := [], forker := 0, ended := true,
    stopPt := Option.none, saving := false, active := false, since := 0, last := 0 }

/-! ### Stooks, launches and contexts -/

/-- An undelivered imprecise trap (R374). -/
structure Held where
  cause : Nat
  taddr : Word
  tinfo : Word
  eseq : Word
deriving DecidableEq, Repr

/-- Pre-emption of a stook: 0 none, 1 requested, 2 running save routines (R381), 3 being stopped hard (R382); the bulk
buffer named with the request (R386); the sections of it that are written (R386); when it was requested, and whether its save routines have
begun (R381). -/
structure Preempt where
  stage : Nat
  at_ : Nat
  bulk : Word
  bulkDone : Nat
  begun : Bool
deriving DecidableEq, Repr

/-- The record that starts a stook (R344), as its cluster's queue holds it; `unit` numbers the gang unit of R342 or the
COOP launch of R343 it belongs to (0: none), and `restart` the sheaves that go on after a pre-emption at safe points
(R381): HX.1, the safe point and its restore VA. -/
structure Rec where
  pool : Nat
  kind : Nat
  index : Nat
  cluster : Nat
  unit : Nat
  link : Word
  sys : Bool
  coop : Bool
  prio : Nat
  frame : Word
  restart : List (Nat × Nat × Word)
deriving DecidableEq, Repr

/-- A resident stook (R338, R339); `abort` is set from its abort to its end (R373), `dumped` the sheaves whose dumps are
written or lost, `dumpLost` whether one was lost, and `park` the fault record a dump is parked at (R385). -/
structure Stook where
  id : Nat
  core : Nat
  k : Kernel
  record : Rec
  held : List Held
  dropped : Nat
  abort : Option Word
  pre : Preempt
  dumped : List Nat
  dumpLost : Bool
  park : Option Nat
deriving DecidableEq, Repr

/-- A registered context descriptor (R348). -/
structure Ctx where
  root : Word
  jobkey : Word
  fring : Word
  frlog : Nat
  fvec : Nat
  ctxarea : Word
  scrva : Word
  qtab : Word
  priv : Bool
deriving DecidableEq, Repr

/-- A pool record (R358), with the context and core of the queue or stook it came from. -/
structure PoolRec where
  left : Nat
  clu : Nat
  sys : Bool
  state : Nat
  depth : Nat
  budget : Nat
  grp : BitVec 16
  jobkey : Word
  frame : Word
  recVa : Word
  ctx : Nat
  core : Nat
deriving DecidableEq, Repr

/-- A free pool record. -/
def PoolRec.free : PoolRec := ⟨0, 0, false, 0, 0, 0, 0, 0, 0, 0, 0, 0⟩

/-- What the launch sequencer keeps of a kernel header and its bound entries (R355): numbers, words, and the entries
declared (number, BNDLO, BNDHI, ACT). -/
structure Header where
  w : Nat
  vregs : Nat
  tiles : Nat
  queues : Nat
  barriers : Nat
  scratch : Nat
  planes : Nat
  sps : Nat
  nSafe : Nat
  nEng : Nat
  engTab : Word
  entry : Word
  safeTab : Word
  bndMask : Word
  bounds : List (Nat × Word × Word × Nat)
deriving DecidableEq, Repr

/-- No header. -/
def Header.zero : Header := ⟨16, 8, 0, 0, 0, 0, 0, 0, 0, 0, 0, 0, 0, 0, []⟩

/-- Where the launch sequencer stands with a launch (R354 to R357), or with a continuation from its becoming runnable
(R362): to be read and checked; its stooks run; the completion word, then the decrement of PARENT or LINK, then the
pool record are due. -/
inductive LStage where
  | take | run | word | dec | free
deriving DecidableEq, Repr

/-- A launch, or a continuation that has become runnable, by its pool ID: `hostQ` is its queue (context * 16 + q) and
ring number, none for a SPAWN; `bySys` whether the spawning stook runs at SYSTEM; `levels` the used levels (domain,
extent) with the device's rank; `parent` PARENT, or a continuation's LINK; `word` the completion word; `read_` a
continuation's record, once it is read. -/
structure Launch where
  pool : Nat
  cont : Bool
  ctx : Nat
  core : Nat
  hostQ : Option (Nat × BitVec 32)
  bySys : Bool
  compl : Word
  parent : Word
  hdr : Header
  levels : List (Nat × Nat)
  rank : Nat
  coop : Bool
  prio : Nat
  ran : Nat
  ecode : Nat
  word : Word
  read_ : Option Nat
  stage : LStage
  park : Option Nat
deriving DecidableEq, Repr

/-- A launch queue (R351, R352, R413): the doorbell's TAIL, the HEAD the part has reached and whether it must still be
written, the next record to take, the taken records that have retired out of order, whether its service has stopped,
and the fault record its service is parked at. -/
structure LQueue where
  tail : BitVec 32
  head : BitVec 32
  due : Bool
  taken : BitVec 32
  retired : List (BitVec 32)
  stopped : Bool
  park : Option Nat
deriving DecidableEq, Repr

/-- A queue at reset: nothing pending. -/
def LQueue.zero : LQueue := ⟨0, 0, false, 0, [], false, none⟩

/-- A fault ring's producer and consumer (R105), whether its last record write failed, when it failed, and when its doorbell
was last raised or answered. -/
structure Ring where
  fprod : BitVec 32
  fcons : BitVec 32
  failing : Bool
  tried : Nat
  since : Nat
deriving DecidableEq, Repr

/-- A ring as its context is registered (R105). -/
def Ring.zero : Ring := ⟨0, 0, false, 0, 0⟩

/-- Who owns a parked access: a slot of an agent, or an engine operation by number (R104). -/
inductive FaultOwner where
  | slot (agent : Nat) (secondary : Bool)
  | op (id : Nat)
deriving DecidableEq, Repr

/-- A fault record (R104), from the fault to its retirement; `idx` is its ring number once appended, `tinfo` what the XLATE
trap of a fatal record shows. -/
structure FaultRec where
  id : Nat
  ctx : Nat
  va : Word
  eseq : Word
  entry : Word
  kind : Nat
  level : Nat
  acc : Nat
  src : Nat
  slot : Nat
  core : Nat
  owner : FaultOwner
  mask : Word
  tinfo : Word
  idx : Option (BitVec 32)
  fate : Nat
deriving DecidableEq, Repr

/-- A TLB or walk-cache entry (R103): `unit` is the core of a leaf entry, or the cluster of a walk-cache
entry; `vpn` the VA above the level's span; `entry` the 8 bytes as read. -/
structure TlbEnt where
  unit : Nat
  ctx : Nat
  level : Nat
  vpn : Nat
  entry : Word
deriving DecidableEq, Repr

/-- A pin directory entry (R97): the context and VA[56:16] of each page through which it was used, and `going` once a
TLBI has asked for its release (R106). -/
structure Pin where
  slice : Nat
  frame : Nat
  maps : List (Nat × Nat)
  going : Bool
deriving DecidableEq, Repr

/-- A 32-byte sector: its data and the provenance tag of its poison (R95, R393); `dirty` while its home does not hold them
(R380). -/
structure Sector where
  data : BitVec 256
  tag : Option (BitVec 12)
  dirty : Bool
deriving DecidableEq, Repr

/-- A store of 1 to 8 bytes, or a load's place, resolved to its location: `coh` for a byte that the coherent
caches may hold, `nt` for the non-temporal hint (R95). -/
structure Acc where
  lane : Nat
  va : Word
  loc : Nat
  coh : Bool
  l1 : Bool
  ord : Nat
  size : Nat
  data : Word
  cmp : Word
  pr : Bool
  nt : Bool := false
deriving DecidableEq, Repr

/-- Where the data of a load, atomic or reply goes. -/
inductive Dest where
  | none
  | sreg (n : Nat)
  | vreg (n : Nat) (size : Nat) (signed : Bool)
deriving DecidableEq, Repr

/-- What a request does at its home: a load (NRD too), a store (NWR too), an atomic, NRED's addition (R309), a
SKUPD's counter steps with the place of its descriptor's flags (R242), or a SKQRY's reads (R244). -/
inductive ReqOp where
  | load
  | store
  | atomic (op et : Nat)
  | reduce (et : Nat)
  | sketch (wide : Bool) (satf : Nat) (coh : Bool)
  | query (depth : Nat) (scale : Int) (et rm : Nat) (srkey srseq : Word)
deriving DecidableEq, Repr

/-- A memory request in flight (R126), with its issuer's place in the scopes (R269): `remote` when a home is another node,
or a service sheaf performs it; `acq` the scope of an LDAQ; `vec` a vector instruction's; `level` the scope at which its
stores are performed while they are not in their homes (R271), `levelU` that of its stores to UNORD pages (R275, R279);
`since` when it was issued; `got` holds the lanes whose value, or acknowledgement, has come back. -/
structure Req where
  id : Nat
  agent : Nat
  stook : Nat
  core : Nat
  secondary : Bool
  op : ReqOp
  dest : Dest
  accs : List Acc
  remote : Bool
  acq : Option Nat
  vec : Bool
  level : Nat
  levelU : Nat
  stamp : BitVec 32
  since : Nat
  got : List (Nat × Word × Option (BitVec 12))
deriving DecidableEq, Repr

/-- A near atomic's request for one line (R123), of the request in flight with its number. -/
structure AtomReq where
  req : Nat
  cluster : Nat
  core : Nat
  op : Nat
  et : Nat
  accs : List Acc
deriving DecidableEq, Repr

/-- A packet in a port's send queue (R295, R332); or, carried by no port of this device, a message on the host link (port 32) or a
switch's reply to another device (port 33): what it is, where it goes, its port, its length in bytes with its header, the
request in flight that it belongs to, the job key and group handle that it carries (R294), and its words. -/
structure Packet where
  kind : Nat
  dst : Nat
  port : Nat
  size : Nat
  req : Option Nat
  key : Word
  grp : BitVec 16
  words : List Nat
deriving DecidableEq, Repr

/-! ### Barriers and queues -/

/-- A physical barrier (R250). -/
structure Barrier where
  exp : BitVec 16
  pend : BitVec 48
  arr : BitVec 16
  err : Bool
  phcnt : BitVec 32
  live : Bool
deriving DecidableEq, Repr

/-- A barrier of no resident stook. -/
def Barrier.dead : Barrier := ⟨0, 0, 0, false, 0, false⟩

/-- A queue of a stook (R256), with the slots stalled on it in issue order: pushers with their handles, poppers
with their destinations. -/
structure Queue where
  stook : Nat
  n : Nat
  base : Word
  loc : Nat
  cap : Nat
  count : Nat
  alw : Nat
  head : Nat
  push : List (Nat × Bool × Word)
  pop : List (Nat × Bool × Nat)
deriving DecidableEq, Repr

/-- A bound table entry (R232). -/
structure Bound where
  lo : Word
  hi : Word
  act : Nat
  cnt : BitVec 32
deriving DecidableEq, Repr

/-- An undeclared bound entry reads zero (R33). -/
def Bound.zero : Bound := ⟨0, 0, 0, 0⟩

/-- A forked engine program waiting in a fork queue (R263), with the forking sheaf's privilege and the requests that its
fork edge waits for. -/
structure ForkEnt where
  core : Nat
  mat : Bool
  stook : Nat
  by_ : Nat
  entry : Word
  s : List (Nat × Word)
  md : BitVec 24
  srkey : Word
  srseq : Word
  priv : Bool
  after : List Nat
deriving DecidableEq, Repr

/-! ### Engine operations -/

/-- The party an engine operation acts for (R58, R59, R270): its issuer as it stood at issue, and the issuer's
requests that were then in flight, which happen before the operation. -/
structure Party where
  agent : Nat
  stook : Nat
  core : Nat
  slotNo : Nat
  k : Kernel
  priv : Bool
  srkey : Word
  srseq : Word
  rm : Nat
  stamp : BitVec 32
  after : List Nat
deriving DecidableEq, Repr

/-- One slice of a copy (R129): who issued it, and its descriptor (R132). -/
structure Slice where
  party : Party
  desc : BitVec 512
deriving DecidableEq, Repr

/-- Bytes that an engine has formed and not yet landed, of one sector (R128, R272): their place and view, and the bytes with
their poison. -/
structure Landing where
  loc : Nat
  coh : Bool
  bytes : List (BitVec 8 × Option (BitVec 12))
deriving DecidableEq, Repr

/-- A part of a range inside one 32-byte sector: its address, place and view, its page's PR, ORD, HOME and HIDX, and its length. -/
structure Piece where
  va : Word
  loc : Nat
  coh : Bool
  pr : Bool
  ord : Nat
  home : Nat
  hidx : Nat
  len : Nat
deriving DecidableEq, Repr

/-- Who asks another node, for which part of what it does: an instruction's slot, an engine operation, or the part for itself. -/
inductive Asked where
  | slot (agent : Nat) (sec : Bool) (key : List Nat)
  | op (id : Nat) (key : List Nat)
  | part (key : List Nat)
deriving DecidableEq, Repr

/-- What an engine, a descriptor's read or the part's own access asks of another node (R294, R295, R305): the number its packets
carry, by whom, the places and, of a write, the bytes; since when, and from which epoch; `dead` once no response can come, and what
a read of FORK's table has brought. -/
structure Ask where
  id : Nat
  by_ : Asked
  pieces : List Piece
  bytes : List (BitVec 8 × Option (BitVec 12))
  since : Nat
  stamp : BitVec 32
  dead : Bool
  val : Option Nat
deriving DecidableEq, Repr

/-- A copy (R131), by its tag: `order` is 0 while it is open, then its place among the copies closed; `rows` the
rows moved of each slice, as a set of bits; `todo` what is still to land of them, and `got` source sectors read early, by slice,
row and place; `park` the fault record it is parked at. -/
structure Copy where
  id : Nat
  stook : Nat
  core : Nat
  toReg : Bool
  tag : Nat
  n : Nat
  slices : List Slice
  order : Nat
  checked : Bool
  rows : List Nat
  todo : List Landing
  got : List ((Nat × Nat × Nat) × List (BitVec 8 × Option (BitVec 12)))
  bytes : Nat
  pois : Bool
  err : Nat
  landed : Bool
  follow : Bool
  park : Option Nat
deriving DecidableEq, Repr

/-- A CPL in flight (R140): the barrier credited, the bytes credited so far, and the lanes still to land, source and destination. -/
structure CplOp where
  id : Nat
  party : Party
  pb : Nat
  bytes : Nat
  lanes : List (Acc × Acc)
deriving DecidableEq, Repr

/-- A sketch descriptor as read (R235), and where it lies. -/
structure Sketch where
  va : Word
  loc : Nat
  coh : Bool
  base : Word
  lw : Nat
  depth : Nat
  seed : Nat
  scale : Int
  narrow : Bool
  satf : Bool
deriving DecidableEq, Repr

/-- A SKOP in flight (R245): its operation, destination, source, shift and barrier, and the counters stepped; `flight` while a
step that a switch has performed waits for its response, `at_` that step's place (R328). -/
structure SkOp where
  id : Nat
  party : Party
  f : Nat
  dst : Sketch
  src : Option Sketch
  k : Nat
  pb : Nat
  done : Nat
  flight : Bool
  at_ : Nat
  park : Option Nat
deriving DecidableEq, Repr

/-- An accumulator element (R198): its residues by logical channel, NaN tag and witness code. -/
structure Elem where
  res : List Nat
  nan : Bool
  wit : Nat
deriving DecidableEq, Repr

/-- A cleared element. -/
def Elem.zero : Elem := ⟨[0, 0, 0, 0, 0, 0, 0, 0, 0, 0], false, 0⟩

/-- An accumulator tile (R198): the control word's fields and the elements listed, by index 64r + c. -/
structure Tile where
  ptag : BitVec 12
  poison : Bool
  mode : Nat
  wsat : Bool
  mmas : Nat
  drops : Nat
  floor : Int
  elems : List (Nat × Elem)
deriving DecidableEq, Repr

/-- A cleared tile of floor F (R199, R214).
Log 2: DESIGN CHOICE. -/
def Tile.clear (f : Int) : Tile := ⟨0, false, 0, false, 0, 0, f, []⟩

/-- An MMA operand as issued (R201, R106): its format, the sectors of its range in order (location, held by the coherent caches,
poisoned on read), and for PLANES the header's fields; what has been read of it. -/
structure Operand where
  fmt : Nat
  secs : List (Nat × Bool × Bool)
  f : Int
  srcfmt : Nat
  tag : Option (BitVec 12)
  bitmap : Bool
  got : List (Nat × Sector)
deriving DecidableEq, Repr

/-- An ADRN's progress (R219): the elements judged and formed, the counts so far, the lowest UC or range element
and the lowest element out of bounds, and what is still to land. -/
structure Drain where
  next : Nat
  corr : Nat
  unc : Nat
  rng : Nat
  bnd : Bool
  pois : Bool
  nan : Bool
  ecode : Nat
  bad : Option Nat
  out : Option Nat
  dies : List Nat
  todo : List Landing
deriving DecidableEq, Repr

/-- No progress yet. -/
def Drain.zero : Drain := ⟨0, 0, 0, 0, false, false, false, 0, none, none, [], []⟩

/-- The kinds of tile operation (R211). -/
inductive TileKind where
  | mma (clr : Bool) (g : Nat) (a b : Operand)
  | aclr (f : Int)
  | adrn (dst : Word) (fmt bx sb : Nat) (bound : Bound) (drain : Drain)
  | chinj (ch elem add : Nat)
deriving DecidableEq, Repr

/-- A tile operation in its core's stream (R211), with the physical tile it acts on. -/
structure TileOp where
  id : Nat
  party : Party
  core : Nat
  tile : Nat
  kind : TileKind
  started : Bool
  park : Option Nat
deriving DecidableEq, Repr

/-- A remap to the spare die between its steps 1 and 5 (R229); `held` once its verification failed (R230). -/
structure Remap where
  ch : Nat
  old : Nat
  held : Bool
deriving DecidableEq, Repr

/-! ### The fabric (R287 to R335) -/

/-- A granary allocation (R301), in units of 2 MiB. -/
structure Alloc where
  sw : Nat
  base : Nat
  n : Nat
  jobkey : Word
  grp : BitVec 16
deriving DecidableEq, Repr

/-- A switch's group table entry (R307): switch, handle, job key and member nodes. -/
structure SwGroup where
  sw : Nat
  handle : BitVec 16
  jobkey : Word
  members : List Nat
deriving DecidableEq, Repr

/-- A device's group table entry (R308). -/
structure Group where
  jobkey : Word
  rank : Nat
  valid : Bool
  size : Nat
  cseq : BitVec 32
  winBase : Nat
  winLen : Nat
  pbudget : Nat
  nodes : List Nat
deriving DecidableEq, Repr

/-- An XMEM in flight (R302), and the switch's result once it has served it. -/
structure XmemOp where
  id : Nat
  agent : Nat
  f : Nat
  a : Word
  b : Word
  sd : Nat
  jobkey : Word
  grp : BitVec 16
  stamp : BitVec 32
  since : Nat
  result : Option Word
deriving DecidableEq, Repr

/-- A collective call of this device (R311), from its issue to its completion: the sketches of a SKREDUCE once they are
read; whether its first packets are sent, and the ranks whose first packet agrees (R316); its own contribution as encoded
at its start (R317) and the SATFs met (R318); the data received (rank, place in that rank's bytes, bytes) and not yet
used; the bytes sent to each rank; the bytes credited, and what is still to land; `starting` once its start has begun, late or not,
while what it reads has still to come; `since` when the last of what its start waits for came (R325), or its response timer
began; whether this device has sent PAUSE, since when it is paused, whether its quota use is released, and the time before
which it does not send again (R326). -/
structure Call where
  id : Nat
  party : Party
  toReg : Bool
  tag : Nat
  handle : BitVec 16
  num : BitVec 32
  desc : BitVec 512
  geom : Option (Sketch × Sketch)
  announced : Bool
  firsts : List Nat
  own : List (BitVec 8 × Option (BitVec 12))
  satf : Bool
  recv : List (Nat × Nat × List (BitVec 8 × Option (BitVec 12)))
  sent : List (Nat × Nat)
  credited : Nat
  todo : List Landing
  started : Bool
  starting : Option Bool
  since : Nat
  late : Bool
  everPaused : Bool
  mine : Bool
  paused : Option Nat
  released : Bool
  rotEnd : Nat
  pois : Bool
  err : Nat
  park : Option Nat
deriving DecidableEq, Repr

/-- What came for a call before it was issued: a member's first packet (R316), or its PAUSE with the time (R326). -/
structure Early where
  handle : BitVec 16
  num : BitVec 32
  rank : Nat
  pause : Bool
  fields : List Nat
deriving DecidableEq, Repr

/-- A packet held for its second hop on the rotor plane (R324): the node it goes to, its slot, and its words, the
source node first. -/
structure Relay where
  dst : Nat
  slot : Nat
  words : List Nat
deriving DecidableEq, Repr

/-- The graticule (R323): NSLOT (0 until it is written), WIDTH's code, EPOCH, the slot entries (a node by rotor core) and
the quota entries as 128-bit numbers. -/
structure Graticule where
  nslot : Nat
  width : Nat
  epoch : Nat
  slots : List (List Nat)
  quota : List Nat
deriving DecidableEq, Repr

/-- A flit (R289, R290): its header's fields, `code` being POFS; a control flit's arguments, or the packets that start in a data
flit. A control flit waits with its SEQ and masks still to be set. -/
structure Flit where
  seq : Nat
  ack : Nat
  nmask : Nat
  typ : Nat
  crq : Nat
  crs : Nat
  code : Nat
  vc : Bool
  body : List Nat
  packets : List Packet
deriving DecidableEq, Repr

/-- A training-complete set (R298): digest, wavelength mask, map and speed code. -/
structure TrainSet where
  digest : Nat
  mask : BitVec 8
  map : List Nat
  speed : Nat
deriving DecidableEq, Repr

/-- A port (R289 to R300, R332 to R335): its registers, the wavelengths' states, the masks of the current and the next
flit in each direction, sequence numbers, what may have to be sent again and what waits to be sent; `parkReq` the park
requests that wait for a wake, `full` while the whole port trains, `rtk` the wavelength whose retrain that is, `trainAt` when
each training began and `fails` its failures in a row by wavelength (8: the port), `own` and `theirs` the training-complete
sets; `peerAck` the last ACK, credits held and to be returned by channel (R289, R293), `carry` a packet longer than a
flit and how much of it has gone; `line` the bytes of the current flit, `berAt` the window of the counts, `skew` the latest
beacon's and `fibre` the delay measured at training (R320). -/
structure Port where
  ctl : Word
  park : BitVec 8
  qthr : BitVec 16
  thr : BitVec 32
  rtcnt : List Nat
  fecUnc : BitVec 32
  fecCor : BitVec 32
  rxCount : BitVec 32
  txCount : BitVec 32
  ber : List Nat
  retired : BitVec 8
  training : BitVec 8
  waking : BitVec 8
  peerPark : BitVec 8
  parkReq : BitVec 8
  txMask : BitVec 8
  txNext : BitVec 8
  rxMask : BitVec 8
  rxNext : BitVec 8
  st : Nat
  speed : Nat
  lastFail : Bool
  full : Bool
  txSeq : Nat
  rxSeq : Nat
  history : List Flit
  resend : List Flit
  tries : List (Nat × Nat)
  ctlq : List Flit
  fails : List (Nat × Nat)
  trainAt : List (Nat × Nat)
  rtk : BitVec 8
  own : Option TrainSet
  theirs : Option TrainSet
  peerAck : Nat
  credits : Nat × Nat
  owed : Nat × Nat
  carry : Option (Packet × Nat)
  line : List Nat
  berAt : Nat
  skew : Option Int
  fibre : Nat
  peerAligned : BitVec 8
  selfAligned : BitVec 8
deriving DecidableEq, Repr

/-- A port at reset (R296). -/
def Port.reset : Port :=
  { ctl := 5, park := 0, qthr := 64, thr := 4096, rtcnt := [0, 0, 0, 0, 0, 0, 0, 0], fecUnc := 0, fecCor := 0,
    rxCount := 0, txCount := 0, ber := [0, 0, 0, 0, 0, 0, 0, 0], retired := 0, training := 0, waking := 0, peerPark := 0,
    parkReq := 0, txMask := 0, txNext := 0, rxMask := 0, rxNext := 0, st := 0, speed := 0, lastFail := false,
    full := false, txSeq := 0, rxSeq := 0, history := [], resend := [], tries := [], ctlq := [],
    fails := [], trainAt := [], rtk := 0, own := none, theirs := none, peerAck := 0, credits := (0, 0), owed := (0, 0),
    carry := none, line := [], berAt := 0, skew := none, fibre := 0, peerAligned := 0, selfAligned := 0 }

/-! ### Pre-emption and the root controller -/

/-- A stook that has been pre-empted hard, with all that R382 restores: its agents, barriers, queues and tiles, the
bytes of its granules and plane tile slots with their poison (plane bytes keyed by plane-space offset above 5 * 2^52),
its bound entries, and its engine work. -/
structure Susp where
  stook : Stook
  agents : List Agent
  barriers : List (Nat × Barrier)
  queues : List Queue
  tiles : List (Nat × Tile)
  bytes : List (Nat × BitVec 8)
  tags : List (Nat × Option (BitVec 12))
  bounds : List (Nat × Bound)
  forks : List ForkEnt
  copies : List Copy
  cpls : List CplOp
  skops : List SkOp
deriving DecidableEq, Repr

/-! ### Reliability -/

/-- An error-record bank (R389). -/
structure Bank where
  count : BitVec 16
  ovf : BitVec 8
  gen : BitVec 5
  sev : Nat
  kind : Nat
  addr : Word
  synd : Word
  reseq : Word
deriving DecidableEq, Repr

/-- An empty bank. -/
def Bank.empty : Bank := ⟨0, 0, 0, 0, 0, 0, 0, 0⟩

/-! ### What may happen next -/

/-- The data an event brings: its numbers in the order its row of Syntax.lean names them, and up to two lists. -/
structure Inp where
  a : List Nat
  data : List Nat
  tags : List Nat
deriving DecidableEq, Repr

/-- No data. -/
def Inp.none : Inp := ⟨[], [], []⟩


/-- A slot whose last try to issue, or what it waits for, holds it: since when, and whether by one of the causes for which a sheaf
counts as waiting (R367). -/
structure Stall where
  agent : Nat
  sec : Bool
  since : Nat
  waits : Bool
deriving DecidableEq, Repr

/-- A choice that the spec leaves to the part or to the world outside it: which slot issues, which event comes,
how much time passes, where an upset falls, and what a cache keeps. -/
inductive Choice where
  /-- The slot (true: secondary) of the agent issues its next instruction. -/
  | issue (agent : Nat) (secondary : Bool)
  /-- The event or engine step happens, with the data it brings. -/
  | event (i : Instr) (x : Inp)
  /-- Time passes, in ns; while device time is slewed, so much more or less is counted (R320). -/
  | tick (ns : Nat) (slew : Int)
  /-- An error arises in a stored sector of HBM4, core SRAM or a plane store: correctable or not (R98, R208). -/
  | upset (sector : Nat) (correctable : Bool)
  /-- An error arises in the copy of a sector that its L2 slice holds (R208). -/
  | upsetCopy (sector : Nat) (correctable : Bool)
  /-- A sector is brought into the coherent caches (R95). -/
  | fill (sector : Nat)
  /-- A core's L1 takes a sector (R95, R278). -/
  | l1Fill (core sector : Nat)
  /-- A core goes on reading a sector as it is now, until something orders a newer write before its reads (R278). -/
  | lag (core sector : Nat)
  /-- A cached sector is written back and dropped (R95). -/
  | evict (sector : Nat)
  /-- An MMA that has issued reads a sector of its A (false) or B early (R212). -/
  | mmaFetch (op : Nat) (b : Bool) (idx : Nat)
  /-- A copy reads a sector of a row of a slice before the row is moved (R135, R272). -/
  | copyFetch (copy slice row idx : Nat)
  /-- A core's L1 drops a sector (R95). -/
  | l1Drop (core sector : Nat)
  /-- A TLB or walk cache drops an entry (R103). -/
  | tlbDrop (unit level vpn : Nat)
  /-- The host writes bytes of its own memory (R99). -/
  | hostStore (pa : Nat) (bytes : List Nat)
  /-- A residue of a channel is struck: the value added to it (R222). -/
  | residueHit (core tile elem ch delta : Nat)
  /-- The fabric manager writes a switch's group table entry (R307). -/
  | switchGroup (g : SwGroup)
  /-- The fabric manager sets a job key's quota on a switch (R301). -/
  | switchQuota (sw : Nat) (jobkey : Word) (units : Nat)
deriving DecidableEq, Repr

/-! ### The device -/

/-- The state. -/
structure State where
  /-- The agent in focus, the slot in issue, and every other agent. -/
  cur : Agent
  slot : Bool
  agents : List Agent
  stooks : List Stook
  mem : List Host.Cell
  poison : List (Nat × Option (BitVec 12))
  latent : List (Nat × Nat)
  cached : List (Nat × Option Sector)
  evictFirst : List Nat
  l1 : List (Nat × Option Sector)
  measured : List (Nat × Bool)
  tlb : List TlbEnt
  pins : List Pin
  epoch : BitVec 32
  epochAt : Nat
  reqs : List Req
  lost : List Nat
  sent : List Packet
  asks : List Ask
  atomQ : List AtomReq
  faults : List FaultRec
  rings : List (Nat × Ring)
  ctxs : List (Nat × Option Ctx)
  barriers : List (Nat × Barrier)
  queues : List Queue
  bounds : List (Nat × Bound)
  forkQ : List ForkEnt
  chmap : List Nat
  chcnt : List (Nat × BitVec 32)
  chcon : Word
  mxstat : List (Nat × Word)
  cvstat : List (Nat × Word)
  banks : List (Nat × Bank)
  wcfg : List (Nat × Word)
  rowWin : List (Nat × Nat)
  rowOrder : List Nat
  rowRetired : List Nat
  winAt : List (Nat × Nat)
  dieWin : List (Nat × Nat)
  eseq : Word
  time : Nat
  lqueues : List (Nat × LQueue)
  rr : List (Nat × Nat)
  deadline : Nat
  pool : List (Nat × PoolRec)
  launches : List Launch
  recQ : List Rec
  msix : List Nat
  disabled : List Nat
  halted : Bool
  imageDue : Bool
  copies : List Copy
  cpls : List CplOp
  skops : List SkOp
  tiles : List (Nat × Tile)
  tileOps : List TileOp
  remap : Option Remap
  node : Nat
  allocs : List Alloc
  quota : List (Nat × Nat)
  swGroups : List SwGroup
  groups : List (Nat × Option Group)
  xmems : List XmemOp
  calls : List Call
  early : List Early
  skipped : List (Nat × Nat)
  grat : Graticule
  slotAt : Nat
  slotSent : Bool
  relays : List Relay
  sync : Nat
  syncAt : Nat
  hold : Nat
  slew : Int
  goodSkews : Nat
  ports : List (Nat × Port)
  suspended : List Susp
  attest : List (Nat × Nat)
  cfgVer : Nat
  boot : Nat
  bootFail : Bool
  bootCause : Nat
  power : Nat
  mhz : Nat
  busyAt : Nat
  loader : BitVec 256
  rbBase : Nat
  rbLen : Nat
  quote : List Nat
  stalls : List Stall
  issues : Nat
  agenda : List Choice
  inp : Inp
  defer : List Bool
  nextId : Nat
  free : Nat
deriving DecidableEq, Repr

/-- WCFG of every unit that has a window class, at the defaults of R395. -/
def wcfgReset : List (Nat × Word) :=
  (List.range 32).map (fun u => (u, BitVec.ofNat 64 (10000 * 2 ^ 32 + 32))) ++
  (List.range 11).map (fun d => (96 + d, BitVec.ofNat 64 (1000 * 2 ^ 32 + 65))) ++
  (List.range 16).map (fun q => (112 + q, BitVec.ofNat 64 (60000 * 2 ^ 32 + 16)))

/-- The machine right after reset (R404, and the Reset columns of the register tables).
Log 1: DESIGN CHOICE.
Log 3: DESIGN CHOICE.
Log 42: DEDUCED.
Log 56: DESIGN CHOICE. -/
def State.reset : State :=
  { cur := Agent.none, slot := false, agents := [], stooks := [], mem := [], poison := [], latent := [],
    cached := [], evictFirst := [], l1 := [], measured := [], tlb := [], pins := [], epoch := 0, epochAt := 0, reqs := [],
    lost := [], sent := [], asks := [], atomQ := [],
    faults := [], rings := [], ctxs := [], barriers := [], queues := [], bounds := [], forkQ := [],
    chmap := [0, 1, 2, 3, 4, 5, 6, 7, 8, 9, 10], chcnt := [], chcon := 0, mxstat := [], cvstat := [],
    banks := [], wcfg := wcfgReset, rowWin := [], rowOrder := [], rowRetired := [], winAt := [], dieWin := [],
    eseq := 0, time := 0, lqueues := [], rr := [], deadline := 200000,
    pool := [], launches := [], recQ := [], msix := [], disabled := [], halted := false, imageDue := false,
    copies := [], cpls := [], skops := [], tiles := [], tileOps := [], remap := none, node := 0, allocs := [],
    quota := [], swGroups := [], groups := [], xmems := [], calls := [], early := [], skipped := [],
    grat := ⟨0, 0, 0, [], []⟩, slotAt := 0, slotSent := false, relays := [],
    sync := 0, syncAt := 0, hold := 0, slew := 0, goodSkews := 0, ports := [], suspended := [],
    attest := [], cfgVer := 0, boot := 0, bootFail := false, bootCause := 0, power := 0, mhz := 1800, busyAt := 0, loader := 0, rbBase := 0,
    rbLen := 0, quote := [], stalls := [], issues := 0, agenda := [], inp := Inp.none, defer := [], nextId := 0, free := 0 }

end Sys2Proof.Machine
end

