-- ==== Sys2Proof/Machine/Ops.lean ====
section
/-!
DEFINITION. The named operations over the agent in focus and the device's shared state: registers, slots,
ESEQ and the error records, taking a trap and returning from one, aborting a stook, imprecise traps, the
completion counts, barriers, and `run`, the order of checks every instruction passes (R43).
-/
namespace Sys2Proof.Machine

open Sys2Proof

/-- The outcome of a meaning. -/
abbrev Out := Host.Outcome State Fault Refusal

/-! ### Words -/

/-- Bits [hi:lo] of a word (R9). -/
def bits (x : Word) (hi lo : Nat) : Nat := fld x.toNat hi lo

/-- A word from a number, low bits kept (R10). -/
def wd (n : Nat) : Word := BitVec.ofNat 64 n

/-- A word from a signed number, low bits kept (R10). -/
def wi (n : Int) : Word := BitVec.ofInt 64 n

/-- Bit i of a mask. -/
def bit (m : Word) (i : Nat) : Bool := m.getLsbD i

/-- The mask of the lanes that satisfy a test, among lanes 0 to w - 1. -/
def maskOf (w : Nat) (f : Nat → Bool) : Word :=
  (List.range w).foldl (fun m i => if f i then m ||| (wd 1 <<< i) else m) 0

/-- The mask of the lanes in a list. -/
def maskList (l : List Nat) : Word := l.foldl (fun m i => m ||| (wd 1 <<< i)) 0

/-! ### The agent in focus -/

/-- Change the agent in focus. -/
def onCur (s : State) (f : Agent → Agent) : State := { s with cur := f s.cur }

/-- The slot in issue. -/
def slotOf (s : State) : Slot := if s.slot then s.cur.sec else s.cur.pri

/-- Replace a slot of an agent. -/
def putSlot (a : Agent) (sec : Bool) (x : Slot) : Agent :=
  if sec then { a with sec := x } else { a with pri := x }

/-- A slot of an agent. -/
def getSlot (a : Agent) (sec : Bool) : Slot := if sec then a.sec else a.pri

/-- Replace the slot in issue. -/
def setSlot (s : State) (x : Slot) : State := { s with cur := putSlot s.cur s.slot x }

/-- The program counter of the slot in issue. -/
def pcOf (s : State) : Word := (slotOf s).pc

/-- Move the program counter of the slot in issue. -/
def setPc (s : State) (pc : Word) : State := setSlot s { slotOf s with pc := pc }

/-- The slot goes on after an instruction of one word. -/
def advance (s : State) : State := setPc s (pcOf s + 4)

/-- An agent's sheaf width W, 16, 32 or 64 (R336).
Log 15: DESIGN CHOICE. -/
def widthOf (a : Agent) : Nat := if a.k.w = 64 then 64 else if a.k.w = 32 then 32 else 16

/-- The sheaf width W. -/
def wOf (s : State) : Nat := widthOf s.cur

/-- The lanes that exist, 2^W - 1 (R24). -/
def allLanes (w : Nat) : Word := wd (2 ^ w - 1)

/-- Sn of an agent; S0 reads zero (R23). -/
def getSA (a : Agent) (n : Nat) : Word := if n = 0 then 0 else smGet 0 a.s n

/-- Write Sn of an agent; S0 discards (R23). -/
def putSA (a : Agent) (n : Nat) (v : Word) : Agent := if n = 0 then a else { a with s := smPut 0 a.s n v }

/-- Sn of the agent in focus. -/
def getS (s : State) (n : Nat) : Word := getSA s.cur n

/-- Write Sn of the agent in focus. -/
def setS (s : State) (n : Nat) (v : Word) : State := { s with cur := putSA s.cur n v }

/-- Mn of an agent; M0 reads as the lanes that exist, and bits at or above W read zero (R24). -/
def getMA (a : Agent) (n : Nat) : Word := if n = 0 then allLanes (widthOf a) else smGet 0 a.m n &&& allLanes (widthOf a)

/-- Mn of the agent in focus. -/
def getM (s : State) (n : Nat) : Word := getMA s.cur n

/-- Write Mn; M0 discards, and so do bits at or above W (R24). -/
def setM (s : State) (n : Nat) (v : Word) : State :=
  if n = 0 then s else { s with cur := { s.cur with m := smPut 0 s.cur.m n (v &&& allLanes (wOf s)) } }

/-- The key of lane i of Vn. -/
def vkey (n i : Nat) : Nat := n * 64 + i

/-- Lane i of Vn. -/
def getV (s : State) (n i : Nat) : Lane := smGet 0 s.cur.v (vkey n i)

/-- Write lane i of Vn of an agent. -/
def putVA (a : Agent) (n i : Nat) (x : Lane) : Agent := { a with v := smPut 0 a.v (vkey n i) x }

/-- Write lane i of Vn of the agent in focus. -/
def setV (s : State) (n i : Nat) (x : Lane) : State := { s with cur := putVA s.cur n i x }

/-- Lane i of the pair Vn (low), Vn+1 (high) (R22). -/
def getV2 (s : State) (n i : Nat) : Word := (getV s (n + 1) i) ++ (getV s n i)

/-- Write lane i of the pair of an agent. -/
def putV2A (a : Agent) (n i : Nat) (x : Word) : Agent :=
  putVA (putVA a n i (x.extractLsb' 0 32)) (n + 1) i (x.extractLsb' 32 32)

/-- Write lane i of the pair. -/
def setV2 (s : State) (n i : Nat) (x : Word) : State := { s with cur := putV2A s.cur n i x }

/-! ### The mode register (R28, R29) -/

/-- MD.ET. -/
def etOf (s : State) : Nat := fld s.cur.md.toNat 9 5

/-- MD.RM. -/
def rmOf (s : State) : Nat := fld s.cur.md.toNat 12 10

/-- MD.SAT. -/
def satOf (s : State) : Bool := s.cur.md.getLsbD 13

/-- MD.DZT. -/
def dztOf (s : State) : Bool := s.cur.md.getLsbD 14

/-- MD.FPT. -/
def fptOf (s : State) : Bool := s.cur.md.getLsbD 15

/-- MD.BND. -/
def bndOf (s : State) : Bool := s.cur.md.getLsbD 16

/-- MD.BX. -/
def bxOf (s : State) : Nat := fld s.cur.md.toNat 22 17

/-- The guard: M[MD.GM], negated by MD.GN (R27). -/
def guardOf (s : State) : Word :=
  let g := getM s (fld s.cur.md.toNat 3 0)
  if s.cur.md.getLsbD 4 then g ^^^ allLanes (wOf s) else g

/-- The active lanes of the slot in issue (R27). -/
def activeOf (s : State) : Word := (slotOf s).mask &&& guardOf s

/-- The active lanes as an ascending list. -/
def activeLanes (s : State) : List Nat := (List.range (wOf s)).filter (bit (activeOf s))

/-- A 64-bit element type (R22). -/
def is64 (et : Nat) : Bool := et = 2 || et = 3

/-- Set sticky flags of SSTAT (R31). -/
def setFlags (s : State) (f : BitVec 8) : State := { s with cur := { s.cur with sstat := s.cur.sstat ||| f } }

/-! ### Every agent -/

/-- The agent in focus and the others. -/
def allAgents (s : State) : List Agent := s.cur :: s.agents

/-- Change every agent. -/
def mapAgents (s : State) (f : Agent → Agent) : State := { s with cur := f s.cur, agents := s.agents.map f }

/-- The agent with a number; the number 0 names none. -/
def findAgent (s : State) (id : Nat) : Option Agent := (allAgents s).find? (fun a => a.kind ≠ .none && a.id == id)

/-- Change the agent with a number. -/
def updAgent (s : State) (id : Nat) (f : Agent → Agent) : State :=
  mapAgents s (fun a => if a.kind ≠ .none ∧ a.id = id then f a else a)

/-- The stook with a number. -/
def findStook (s : State) (id : Nat) : Option Stook := s.stooks.find? (·.id == id)

/-- Change the stook with a number. -/
def updStook (s : State) (id : Nat) (f : Stook → Stook) : State :=
  { s with stooks := s.stooks.map (fun t => if t.id = id then f t else t) }

/-- The next number for something in flight. -/
def freshId (s : State) : Nat × State := (s.nextId + 1, { s with nextId := s.nextId + 1 })

/-- The core's cluster (R1). -/
def clusterOf (core : Nat) : Nat := core / 8

/-! ### ESEQ and the error records (R388 to R392) -/

/-- An event takes the next ESEQ value (R388). -/
def takeEseq (s : State) : Word × State := (s.eseq + 1, { s with eseq := s.eseq + 1 })

/-- Add one, saturating (R389). -/
def satInc {n : Nat} (x : BitVec n) : BitVec n := if x = BitVec.allOnes n then x else x + 1

/-- An event in a bank (R391). -/
def bankEvent (b : Bank) (kind sev : Nat) (addr synd eseq : Word) : Bank :=
  let b := { b with count := satInc b.count }
  if b.sev < sev then
    { b with sev := sev, kind := kind, addr := addr, synd := synd, reseq := eseq,
             ovf := if b.sev = 0 then b.ovf else satInc b.ovf }
  else { b with ovf := satInc b.ovf }

/-- Log an event whose ESEQ value is already taken; units 108 to 111 have no bank (R389). -/
def logAt (s : State) (unit kind sev : Nat) (addr synd eseq : Word) : State :=
  if 108 ≤ unit ∧ unit ≤ 111 then s
  else { s with banks := smPut Bank.empty s.banks unit (bankEvent (smGet Bank.empty s.banks unit) kind sev addr synd eseq) }

/-- Log an event, which takes one ESEQ value (R388, R390). -/
def logEvent (s : State) (unit kind sev : Nat) (addr synd : Word) : State :=
  let (e, s) := takeEseq s
  logAt s unit kind sev addr synd e

/-- A fresh free value (log 6). -/
def freeWord (s : State) : Word × State := (Config.freeValue s.free, { s with free := s.free + 1 })

/-- Log an event whose SYND no rule states: a free value (R389, log 11).
Log 11: DESIGN CHOICE. -/
def logOpen (s : State) (unit kind sev : Nat) (addr : Word) : State :=
  let (x, s) := freeWord s
  logEvent s unit kind sev addr x

/-- Log an event whose ADDR and SYND no rule states: free values (R389, log 11). -/
def logFree (s : State) (unit kind sev : Nat) : State :=
  let (x, s) := freeWord s
  logOpen s unit kind sev x

/-- A KIND 8 event of bank 107; SYND[63:56] names it (R390). -/
def logKind8 (s : State) (event : Nat) (addr : Word) : State :=
  logEvent s 107 8 2 addr (wd (event * 2 ^ 56))

/-- The provenance tag of poison made by a unit now (R393). -/
def tagOf (s : State) (unit : Nat) : BitVec 12 :=
  BitVec.ofNat 12 (unit * 32 + (smGet Bank.empty s.banks unit).gen.toNat)

/-! ### Traps (R371 to R377) -/

/-- What a trap shows. -/
structure TrapInfo where
  cause : Nat
  tpc : Word
  taddr : Word
  tinfo : Word
  tmask : Word
deriving DecidableEq, Repr

/-- The trap causes of R371. -/
def ILLEGAL : Nat := 1
/-- R371. -/
def PRIV : Nat := 2
/-- R371. -/
def ALIGN : Nat := 3
/-- R371. -/
def FETCH : Nat := 4
/-- R371. -/
def FETCH2 : Nat := 5
/-- R371. -/
def XLATE : Nat := 6
/-- R371. -/
def PERM : Nat := 7
/-- R371. -/
def PIN : Nat := 8
/-- R371. -/
def DIVZ : Nat := 9
/-- R371. -/
def FPINV : Nat := 10
/-- R371. -/
def BOUND : Nat := 11
/-- R371. -/
def TRAPI : Nat := 12
/-- R371. -/
def BRKPT : Nat := 13
/-- R371. -/
def DIVSPILL : Nat := 14
/-- R371. -/
def BARWIN : Nat := 15
/-- R371. -/
def QERR : Nat := 16
/-- R371. -/
def ENGERR : Nat := 17
/-- R371. -/
def POISON : Nat := 18
/-- R371. -/
def SKGEOM : Nat := 19
/-- R371. -/
def XLOST : Nat := 20
/-- R371. -/
def COLLABORT : Nat := 21
/-- R371. -/
def COLLMISMATCH : Nat := 22

/-- TSLOT.MASKED (R371). -/
def masked (a : Agent) : Bool := a.tslot.getLsbD 3

/-- TSLOT as trap entry writes it (R371). -/
def tslotWord (a : Agent) (sec : Bool) : Word :=
  wd ((if sec then 1 else 0) + (if (getSlot a (!sec)).live then 2 else 0) + (if a.priv then 4 else 0) + 8)

/-- Trap entry writes the trap registers (R372 step 1); IMP is set for kind I. -/
def writeTrapRegs (a : Agent) (sec imp : Bool) (t : TrapInfo) (eseq : Word) : Agent :=
  { a with tcause := wd (t.cause + if imp then 256 else 0), tpc := t.tpc, taddr := t.taddr, tinfo := t.tinfo,
           tmask := t.tmask, tseq := eseq, tslot := tslotWord a sec }

/-- Trap entry whole (R372 steps 1 to 3). -/
def enterTrap (a : Agent) (sec imp : Bool) (t : TrapInfo) (eseq : Word) : Agent :=
  let b := writeTrapRegs a sec imp t eseq
  putSlot { b with priv := true } sec { getSlot a sec with pc := a.thnd, wait := .ready }

/-- The stook aborts (R373): nothing of it issues again, and the abort is logged under the trap's ESEQ. Its
dumps are written and it ends at STOOK_END. -/
def abortStook (s : State) (stook core slotNo cause : Nat) (eseq : Word) : State :=
  match findStook s stook with
  | none => s
  | some t =>
    if t.abort.isSome then s
    else
      let s := updStook s stook (fun t => { t with abort := some eseq })
      logAt s 107 8 2 (wd (core + slotNo * 2 ^ 7 + cause * 2 ^ 13 + min t.dropped 65535 * 2 ^ 48)) (wd (2 ^ 56)) eseq

/-- Raise an imprecise trap for a stook (R374): it takes its ESEQ now and is held until its delivery; a
seventeenth is dropped and logged. -/
def raiseImprecise (s : State) (stook cause : Nat) (taddr tinfo : Word) : State :=
  match findStook s stook with
  | none => s
  | some t =>
    let (e, s) := takeEseq s
    if t.abort.isSome then s
    else if t.held.length < 16 then
      updStook s stook (fun t => { t with held := t.held ++ [⟨cause, taddr, tinfo, e⟩] })
    else
      let r := ((allAgents s).filter (fun a => a.kind = .sheaf && a.stook == stook && !a.ended))
      let a := (r.foldl (fun (b : Option Agent) a => match b with
        | none => some a
        | some c => some (if a.hx1 < c.hx1 then a else c)) none).getD Agent.none
      let s := updStook s stook (fun t => { t with dropped := t.dropped + 1 })
      logAt s 107 8 2 (wd (t.core + a.slotNo * 2 ^ 7 + cause * 2 ^ 13)) (wd (2 * 2 ^ 56)) e

/-- An engine program stops (R265): it ends, and its stook takes ENGERR with the instruction's address, the
sequencer and the cause a sheaf would have met (0 where it would have met none). -/
def stopEngine (s : State) (cause : Nat) : State :=
  let a := s.cur
  let s := onCur s (fun a => { a with ended := true, pri := Slot.free })
  raiseImprecise s a.stook ENGERR (getSlot a false).pc
    (wd ((if a.kind = .copySeq then 1 else 0) + cause * 2))

/-- What a slot had asked of other nodes for an instruction that does not go on is forgotten. -/
def forgetAsks (s : State) (agent : Nat) (sec : Bool) : State :=
  { s with asks := s.asks.filter (fun a => match a.by_ with
    | .slot id x _ => !(id == agent && x == sec)
    | _ => true) }

/-- A precise trap of the agent in focus (R372, R373; R265 in an engine program). -/
def raiseTrap (s : State) (t : TrapInfo) : State :=
  if s.cur.kind = .sheaf then
    let (e, s) := takeEseq (forgetAsks s s.cur.id s.slot)
    let a := s.cur
    if a.thnd = 0 ∨ masked a = true ∨ (t.cause = FETCH ∧ t.taddr = a.thnd) then
      abortStook (onCur s (fun a => writeTrapRegs a s.slot false t e)) a.stook a.core a.slotNo t.cause e
    else onCur s (fun a => enterTrap a s.slot false t e)
  else stopEngine s t.cause

/-- Return from a trap (R375): privilege, MASKED and the issuing slot's PC. -/
def returnTrap (s : State) : State :=
  let a := s.cur
  setPc (onCur s (fun a => { a with priv := a.tslot.getLsbD 2, tslot := a.tslot &&& wd 7 })) a.tpc

/-! ### Completion counts (R126) -/

/-- The completion classes of R126. -/
inductive Cls where
  | ld | st | cp | tl
deriving DecidableEq, Repr

/-- The count of a class. -/
def cntOf (a : Agent) : Cls → Nat
  | .ld => a.cntLd
  | .st => a.cntSt
  | .cp => a.cntCp
  | .tl => a.cntTl

/-- Change the count of a class. -/
def cntUpd (a : Agent) (c : Cls) (f : Nat → Nat) : Agent :=
  match c with
  | .ld => { a with cntLd := f a.cntLd }
  | .st => { a with cntSt := f a.cntSt }
  | .cp => { a with cntCp := f a.cntCp }
  | .tl => { a with cntTl := f a.cntTl }

/-- The agent in focus has one more operation outstanding. -/
def countUp (s : State) (c : Cls) : State := onCur s (fun a => cntUpd a c (· + 1))

/-- An operation of an agent has completed. -/
def countDown (s : State) (agent : Nat) (c : Cls) : State := updAgent s agent (fun a => cntUpd a c (· - 1))

/-! ### The order of checks of an instruction (R43) -/

/-- What an instruction touches: V and S registers read and written, whether it is SYSTEM only, whether the
engine subset holds it (R264), and the class it counts in. -/
structure Use where
  vr : List Nat := []
  vw : List Nat := []
  sr : List Nat := []
  sw : List Nat := []
  sys : Bool := false
  eng : Bool := false
  cls : Option Cls := none
deriving DecidableEq, Repr

/-- What an instruction's own rule answers. -/
inductive Issue where
  /-- It executed: the whole next state, its slot's PC included. -/
  | done (s : State)
  /-- A precise trap: nothing of the instruction happened (R372). -/
  | trap (t : TrapInfo)
  /-- A trap of kind A: the state after the instruction, then the trap (R371). -/
  | after (s : State) (t : TrapInfo)
  /-- The slot stalls: nothing happened and it will try again. -/
  | stall
deriving DecidableEq, Repr

/-- ILLEGAL from state, or TRAP 0 (R43): TPC the instruction, TINFO its word. -/
def illegalTrap (s : State) (w : Nat) : TrapInfo := ⟨ILLEGAL, pcOf s, 0, wd w, 0⟩

/-- ILLEGAL of instruction i. -/
def illegal (s : State) (i : Instr) : Issue := .trap (illegalTrap s (word0 i))

/-- The slot in issue may issue: it is live and waits for nothing, its sheaf has neither ended nor stopped,
traps of the other slot are not being handled (R372), and its stook has not aborted. -/
def canIssue (s : State) : Bool :=
  let a := s.cur
  let x := slotOf s
  x.live && !a.ended && !s.halted && (a.active || a.kind ≠ .sheaf) &&
  (match x.wait with
   | .ready => true
   | .fatal _ _ _ => true
   | _ => false) &&
  (a.stopPt = none || a.saving) &&
  (!masked a || (a.tslot.getLsbD 0 == s.slot)) &&
  (match findStook s a.stook with
   | some t => t.abort.isNone && t.pre.stage ≠ 3
   | none => false)

/-- The first pending POISON trap of the slot that the instruction's reads meet (R111). -/
def poisonHit (x : Slot) (u : Use) : Option PendPoison :=
  x.poison.find? (fun p => p.vs.any (u.vr.contains ·) || p.ss.any (u.sr.contains ·))

/-- The scoreboard holds the instruction back (R126, R136). -/
def interlocked (a : Agent) (u : Use) : Bool :=
  u.vr.any (a.vPend.contains ·) || u.vw.any (a.vPend.contains ·) ||
  u.sr.any (a.sPend.contains ·) || u.sw.any (a.sPend.contains ·)

/-- The count of the instruction's class is at its limit (R126). -/
def classFull (a : Agent) (u : Use) : Bool :=
  match u.cls with
  | some c => decide (62 ≤ cntOf a c)
  | none => false

/-- A pending POISON trap is raised: it is pending no longer, and its load leaves its count (R111, R126). -/
def dropPoison (s : State) (p : PendPoison) : State :=
  countDown (setSlot s { slotOf s with poison := (slotOf s).poison.erase p }) s.cur.id .ld

/-- The checks before an instruction's own rule (R43 steps 4 and 5, R111, R126, R265). -/
def precheck (i : Instr) (u : Use) (s : State) : Option Issue :=
  let a := s.cur
  let x := slotOf s
  if canIssue s = false then some .stall
  else match x.wait with
    | .fatal taddr tinfo mask => some (.trap ⟨XLATE, x.pc, taddr, tinfo, mask⟩)
    | _ =>
      match poisonHit x u with
      | some p => some (.after (dropPoison s p) ⟨POISON, x.pc, p.taddr, p.tag.setWidth 64, p.tmask⟩)
      | none =>
        if u.sys = true ∧ a.priv = false then some (.trap ⟨PRIV, x.pc, 0, 0, 0⟩)
        else if (u.vr.any (fun n => decide (a.k.vregs ≤ n)) || u.vw.any (fun n => decide (a.k.vregs ≤ n))) = true then
          some (illegal s i)
        else if interlocked a u = true then some .stall
        else if classFull a u = true then some .stall
        else none

/-- A trap that was pending on the slot has been raised: a fatal wait ends. -/
def clearPending (s : State) : State :=
  match (slotOf s).wait with
  | .fatal _ _ _ => setSlot s { slotOf s with wait := .ready }
  | _ => s

/-- The next state of an instruction's issue. -/
def settle (s : State) : Issue → State
  | .done s' => s'
  | .trap t => raiseTrap (clearPending s) t
  | .after s' t => if s.cur.kind = .sheaf then raiseTrap s' t else stopEngine s t.cause
  | .stall => s

/-- Outside the engine subset, or naming S16 to S63 (R265). -/
def notForEngine (a : Agent) (u : Use) : Bool :=
  a.kind ≠ .sheaf && (!u.eng || u.sr.any (fun n => decide (16 ≤ n)) || u.sw.any (fun n => decide (16 ≤ n)))

/-- The trap cause of an instruction's issue; 0 where it raises none. -/
def trapCause : Issue → Nat
  | .trap t => t.cause
  | .after _ t => t.cause
  | _ => 0

/-- What an instruction does: the checks before its own rule, then the rule. -/
def issueOf (i : Instr) (u : Use) (f : State → Issue) (s : State) : Issue := (precheck i u s).getD (f s)

/-- Issue instruction i, whose own rule is f, in the slot in focus; one that an engine program may not hold stops it, with
the cause that it would have raised in a sheaf (R265). -/
def run (i : Instr) (u : Use) (f : State → Issue) (s : State) : Out :=
  if s.cur.kind = .none then .fault .noAgent
  else if canIssue s = true ∧ notForEngine s.cur u = true then .next (stopEngine s (trapCause (issueOf i u f s)))
  else .next (settle s (issueOf i u f s))

/-! ### Barriers (R249 to R254) -/

/-- A physical barrier of a core. -/
def barGet (s : State) (core pb : Nat) : Barrier := smGet Barrier.dead s.barriers (core * 1024 + pb)

/-- Replace a physical barrier. -/
def barPut (s : State) (core pb : Nat) (b : Barrier) : State :=
  { s with barriers := smPut Barrier.dead s.barriers (core * 1024 + pb) b }

/-- The completion check of R253: the barrier after it, and whether a phase completed. -/
def barCheck (b : Barrier) : Barrier × Bool :=
  if b.exp.toNat ≤ b.arr.toNat ∧ (b.pend = 0 ∨ b.err = true) then
    ({ b with phcnt := b.phcnt + 1, arr := 0, pend := if b.err then 0 else b.pend }, true)
  else (b, false)

/-- The wait of a slot on physical barrier pb is over when its count is ph (R252). -/
def waitOver (pb : Nat) (ph : BitVec 32) : Wait → Bool
  | .parity p b => p == pb && (ph.getLsbD 0 != b)
  | .phase p q => p == pb && ph != q
  | _ => false

/-- Release a slot whose wait is over: its BARW or BARS retires. -/
def releaseSlot (pb : Nat) (ph : BitVec 32) (x : Slot) : Slot :=
  if waitOver pb ph x.wait then { x with wait := .ready, pc := x.pc + 4 } else x

/-- Release the waiters of a barrier (R253). -/
def releaseWaiters (s : State) (core pb : Nat) (ph : BitVec 32) : State :=
  mapAgents s (fun a => if a.core = core then
    { a with pri := releaseSlot pb ph a.pri, sec := releaseSlot pb ph a.sec } else a)

/-- One step on a live barrier: the change, the completion check, the release of waiters (R253). -/
def barStep (s : State) (core pb : Nat) (f : Barrier → Barrier) : State :=
  let (b, c) := barCheck (f (barGet s core pb))
  let s := barPut s core pb b
  if c then releaseWaiters s core pb b.phcnt else s

/-- PEND saturates at its limits and sets ERR (R252). -/
def pendSat (b : Barrier) (p : Int) : Barrier :=
  if p < -(2 ^ 47) then { b with pend := BitVec.ofInt 48 (-(2 ^ 47)), err := true }
  else if 2 ^ 47 ≤ p then { b with pend := BitVec.ofInt 48 (2 ^ 47 - 1), err := true }
  else { b with pend := BitVec.ofInt 48 p }

/-- Arrive v times (R252): beyond EXP, ARR stays at EXP and ERR is set. -/
def barArrive (v : Nat) (b : Barrier) : Barrier :=
  if b.exp.toNat < b.arr.toNat + v then { b with arr := b.exp, err := true }
  else { b with arr := BitVec.ofNat 16 (b.arr.toNat + v) }

/-- Expect v more bytes (R252, BARX). -/
def barExpect (v : Nat) (b : Barrier) : Barrier := pendSat b (b.pend.toInt + v)

/-- Credit n landed bytes (R253); `err` sets the error bit with them. -/
def barCredit (n : Nat) (err : Bool) (b : Barrier) : Barrier :=
  let c := pendSat b (b.pend.toInt - n)
  { c with err := c.err || err }

/-- Slots and sequencers waiting on a barrier (R250). -/
def waitersOn (s : State) (core pb : Nat) : Nat :=
  let on : Wait → Nat
    | .parity p _ => if p = pb then 1 else 0
    | .phase p _ => if p = pb then 1 else 0
    | _ => 0
  (allAgents s).foldl (fun n a => if a.core = core then n + on a.pri.wait + on a.sec.wait else n) 0

/-- The 128-bit barrier word (R250); zero for a barrier that is not live (R251). -/
def barWord (s : State) (core pb : Nat) : Nat :=
  let b := barGet s core pb
  if b.live then
    b.exp.toNat * 2 ^ 112 + b.pend.toNat * 2 ^ 64 + b.arr.toNat * 2 ^ 48 + waitersOn s core pb * 2 ^ 34 +
      2 ^ 33 + (if b.err then 2 ^ 32 else 0) + b.phcnt.toNat
  else 0

end Sys2Proof.Machine
end

