-- ==== Sys2Proof/Machine/Flags.lean ====
section
/-!
DEFINITION. The sticky flags of SSTAT (R31) and the traps that MD enables on them: divide faults (R143, R169) and
float-invalid (R162).
-/
namespace Sys2Proof.Machine

open Sys2Proof

/-- SSTAT.DZ (R31). -/
def fDZ : BitVec 8 := 1
/-- SSTAT.DOV (R31). -/
def fDOV : BitVec 8 := 2
/-- SSTAT.FINV (R31). -/
def fINV : BitVec 8 := 4
/-- SSTAT.FOVF (R31). -/
def fOVF : BitVec 8 := 8
/-- SSTAT.FUNF (R31). -/
def fUNF : BitVec 8 := 16
/-- SSTAT.FINX (R31). -/
def fINX : BitVec 8 := 32
/-- SSTAT.SAT (R31). -/
def fSAT : BitVec 8 := 64
/-- SSTAT.BNDF (R31). -/
def fBNDF : BitVec 8 := 128

/-- A trap of kind A after the instruction at `pc`: TPC the following word, TADDR the instruction, TINFO its
word (R143, R162, R169). -/
def afterTrap (cause : Nat) (pc : Word) (i : Instr) (mask : Word) : TrapInfo :=
  ⟨cause, pc + 4, pc, wd (word0 i), mask⟩

/-- A scalar divide's end (R143): Sd written, the flag set with DIVMASK := 0, and DIVZ taken after it when MD.DZT
is set. -/
def divideEnd (s : State) (i : Instr) (d : Nat) (q : Word) (f : BitVec 8) : Issue :=
  let t := advance (setS s d q)
  if f = 0 then .done t
  else
    let t := onCur (setFlags t f) (fun a => { a with divmask := 0 })
    if dztOf s then .after t (afterTrap DIVZ (pcOf s) i 0) else .done t

end Sys2Proof.Machine
end

