-- ==== Sys2Proof/Machine/Culm.lean ====
section
/-!
DEFINITION. The Culm-10 generator (08 R180): random numbers, stochastic-rounding draws (R59) and sketch seeds.
-/
namespace Sys2Proof.Machine

open Sys2Proof

/-- ROT1 of R180. -/
def rot1 : List Nat := [13, 7, 21, 11, 3, 17, 25, 9, 19, 5]

/-- ROT2 of R180. -/
def rot2 : List Nat := [16, 27, 5, 23, 12, 9, 29, 14, 7, 20]

/-- One round of Culm-10 with its two rotations and its key word. -/
def culmRound (r1 r2 : Nat) (k : Lane) (c : Lane × Lane × Lane × Lane) : Lane × Lane × Lane × Lane :=
  let (c0, c1, c2, c3) := c
  let c0 := c0 + c1 + k
  let c3 := (c3 ^^^ c0).rotateLeft r1
  let c2 := (c2 + c3) * 0x2C1B3C6D#32
  let c1 := (c1 ^^^ c2).rotateLeft r2
  (c1, c2, c3, c0)

/-- Rounds in order; the flag says whether the next round is even. -/
def culmRounds (k0 k1 : Lane) : List (Nat × Nat) → Bool → Lane × Lane × Lane × Lane → Lane × Lane × Lane × Lane
  | [], _, c => c
  | (a, b) :: r, even, c => culmRounds k0 k1 r (!even) (culmRound a b (if even then k0 else k1) c)

/-- culm10 (R180). -/
def culm10 (c0 c1 c2 c3 k0 k1 : Lane) : Lane × Lane × Lane × Lane :=
  let (a, b, c, d) := culmRounds k0 k1 (rot1.zip rot2) true (c0, c1, c2, c3)
  (a ^^^ k0, b ^^^ k1, c ^^^ k0, d ^^^ k1)

/-- The draw u of R59: key, sequence, address or register, lane, purpose. -/
def draw (srkey srseq va : Word) (ln purpose : Nat) : Nat :=
  (culm10 (va.setWidth 32 ^^^ (va >>> 32).setWidth 32) (srseq.setWidth 32) (BitVec.ofNat 32 ln)
    (BitVec.ofNat 32 purpose) (srkey.setWidth 32) ((srkey >>> 32).setWidth 32)).1.toNat

end Sys2Proof.Machine
end

