-- ==== Sys2Proof/Machine/Float.lean ====
section
/-!
DEFINITION. Floating-point values and rounding (03 R54 to R60, 08 R161, R162, R165 to R167): exact values as
fractions, one rounding into a format, and the arithmetic of the vector unit.
-/
namespace Sys2Proof.Machine

open Sys2Proof

/-- A binary format: fraction bits, exponent bits, bias, and whether it has infinities and NaNs (R54, R55). -/
structure Fmt where
  mb : Nat
  eb : Nat
  bias : Nat
  ieee : Bool
deriving DecidableEq, Repr

/-- F32. -/
def fF32 : Fmt := ⟨23, 8, 127, true⟩
/-- BF16. -/
def fBF16 : Fmt := ⟨7, 8, 127, true⟩
/-- F16. -/
def fF16 : Fmt := ⟨10, 5, 15, true⟩
/-- FP8E4. -/
def fE4 : Fmt := ⟨3, 4, 7, false⟩
/-- FP8E5. -/
def fE5 : Fmt := ⟨2, 5, 15, false⟩

/-- The float format of an element type code (R29). -/
def fmtOf (et : Nat) : Option Fmt :=
  match et with
  | 8 => some fF32
  | 9 => some fBF16
  | 10 => some fF16
  | 11 => some fE4
  | 12 => some fE5
  | _ => none

/-- A value: a NaN (signalling or not), an infinity, or sign and fraction n / d. -/
inductive FV where
  | nan (signalling : Bool)
  | inf (neg : Bool)
  | fin (neg : Bool) (n d : Nat)
deriving DecidableEq, Repr

/-- A power of two times m, as a fraction. -/
def dyadic (neg : Bool) (m : Nat) (e : Int) : FV := .fin neg (m * 2 ^ e.toNat) (2 ^ (-e).toNat)

/-- The sign bit of a code. -/
def fsign (f : Fmt) (x : Nat) : Bool := x / 2 ^ (f.mb + f.eb) % 2 = 1

/-- The value of a code (R54, R55). -/
def fdecode (f : Fmt) (x : Nat) : FV :=
  let s := fsign f x
  let e := x / 2 ^ f.mb % 2 ^ f.eb
  let m := x % 2 ^ f.mb
  if f.ieee ∧ e = 2 ^ f.eb - 1 then
    if m = 0 then .inf s else .nan (decide (m < 2 ^ (f.mb - 1)))
  else if e = 0 then dyadic s m (1 - (f.bias : Int) - f.mb)
  else dyadic s (2 ^ f.mb + m) ((e : Int) - f.bias - f.mb)

/-- The code of infinity, without sign: one past the largest finite code. -/
def infCode (f : Fmt) : Nat := (2 ^ f.eb - 1) * 2 ^ f.mb

/-- The canonical NaN (R54). -/
def nanCode (f : Fmt) : Nat := infCode f + 2 ^ (f.mb - 1)

/-- The largest code of a format without infinities. -/
def maxCode (f : Fmt) : Nat := 2 ^ (f.mb + f.eb) - 1

/-- The sign bit placed. -/
def signCode (f : Fmt) (neg : Bool) : Nat := if neg then 2 ^ (f.mb + f.eb) else 0

/-- A rounding: the mode and its draw (R57, R59). -/
structure Rnd where
  rm : Nat
  u : Nat
deriving DecidableEq, Repr

/-- Round a magnitude given in units of the last place times 2^33, truncated, with whether that is exact (R57).
Log 106: DEDUCED. -/
def roundT (r : Rnd) (neg : Bool) (t : Nat) (exact : Bool) : Nat :=
  let q := t / 2 ^ 33
  let f := t % 2 ^ 33
  if f = 0 ∧ exact = true then q
  else match r.rm with
    | 0 => if 2 ^ 32 < f ∨ (f = 2 ^ 32 ∧ (exact = false ∨ q % 2 = 1)) then q + 1 else q
    | 1 => q
    | 2 => if neg then q + 1 else q
    | 3 => if neg then q else q + 1
    | 4 => if 2 ^ 32 ≤ f then q + 1 else q
    | _ =>
      if neg then
        (if r.u < 2 ^ 32 - (if exact = true ∧ f % 2 = 0 then f / 2 else f / 2 + 1) then q else q + 1)
      else (if r.u < f / 2 then q + 1 else q)

/-- floor(log2 (n / d)) for n, d > 0. -/
def floorLog2 (n d : Nat) : Int :=
  let e : Int := (n.log2 : Int) - d.log2
  if n * 2 ^ (-e).toNat < d * 2 ^ e.toNat then e - 1 else e

/-- floor(n / d * 2^k), and whether it is exact. -/
def scaleFloor (n d : Nat) (k : Int) : Nat × Bool :=
  let a := n * 2 ^ k.toNat
  let b := d * 2 ^ (-k).toNat
  (a / b, decide (a % b = 0))

/-- A rounded code and the conditions it raised (R162); `sat` for a saturated FP8 code (R56). -/
structure FRes where
  code : Nat
  inv : Bool
  ovf : Bool
  unf : Bool
  inx : Bool
  sat : Bool
deriving DecidableEq, Repr

/-- A code that raises nothing. -/
def fexact (c : Nat) : FRes := ⟨c, false, false, false, false, false⟩

/-- The invalid operation's result (R54, R162). -/
def finvalid (f : Fmt) : FRes := ⟨nanCode f, true, false, false, false, false⟩

/-- A NaN operand's result: invalid when it was signalling. -/
def fnan (f : Fmt) (sig : Bool) : FRes := ⟨nanCode f, sig, false, false, false, false⟩

/-- The result of a magnitude at or above 2^(emax + 1) (R57). -/
def overflowCode (f : Fmt) (r : Rnd) (neg : Bool) : Nat :=
  if r.rm = 1 ∨ (r.rm = 2 ∧ neg = false) ∨ (r.rm = 3 ∧ neg = true) then infCode f - 1 else infCode f

/-- Round a nonzero magnitude into an IEEE format: `e0` is floor(log2) of it and `scale k` its floor at 2^k
(R57, R161, R162: underflow after rounding, reported when inexact); beyond the largest value too the draw is on the signed value:
log 106. -/
def packMag (f : Fmt) (r : Rnd) (neg : Bool) (e0 : Int) (scale : Int → Nat × Bool) : FRes :=
  let emin : Int := 1 - (f.bias : Int)
  if (f.bias : Int) < e0 then ⟨signCode f neg + overflowCode f r neg, false, true, false, true, false⟩
  else
    let e := max e0 emin
    let (t, ex) := scale (f.mb - e + 33)
    let q := roundT r neg t ex
    let inx := !(ex && t % 2 ^ 33 = 0)
    let code := (e - emin).toNat * 2 ^ f.mb + q
    let (t', ex') := scale (f.mb - e0 + 33)
    let tiny := decide (e0 < emin) && !(e0 = emin - 1 && roundT r neg t' ex' = 2 ^ (f.mb + 1))
    ⟨signCode f neg + code, false, decide (infCode f ≤ code), tiny && inx, inx, false⟩

/-- Round a nonzero magnitude into an FP8 format (R56 steps 5 and 6, R60). -/
def packFp8 (f : Fmt) (r : Rnd) (neg : Bool) (e0 : Int) (scale : Int → Nat × Bool) : FRes :=
  let emin : Int := 1 - (f.bias : Int)
  if e0 < emin - f.mb then
    let (t, _) := scale (f.mb - emin + 32)
    ⟨signCode f neg + (if r.u < t then 1 else 0), false, false, true, true, false⟩
  else
    let e := max e0 emin
    let (t, ex) := scale (f.mb - e + 33)
    let code := (e - emin).toNat * 2 ^ f.mb + roundT r neg t ex
    let inx := !(ex && t % 2 ^ 33 = 0)
    if maxCode f < code then ⟨signCode f neg + maxCode f, false, true, false, true, true⟩
    else ⟨signCode f neg + code, false, false, inx && decide (code < 2 ^ f.mb), inx, false⟩

/-- Round a finite value into a format. -/
def fround (f : Fmt) (r : Rnd) (neg : Bool) (n d : Nat) : FRes :=
  if n = 0 then fexact (signCode f neg)
  else if f.ieee then packMag f r neg (floorLog2 n d) (scaleFloor n d)
  else packFp8 f r neg (floorLog2 n d) (scaleFloor n d)

/-- Round any value into an IEEE format. -/
def fpack (f : Fmt) (r : Rnd) : FV → FRes
  | .nan s => fnan f s
  | .inf neg => fexact (signCode f neg + infCode f)
  | .fin neg n d => fround f r neg n d

/-- An exact signed fraction as a value, with the sign of a zero result. -/
def signedV (zneg : Bool) (n : Int) (d : Nat) : FV :=
  if n = 0 then .fin zneg 0 1 else .fin (decide (n < 0)) n.natAbs d

/-- The signed numerator. -/
def snum (neg : Bool) (n : Nat) : Int := if neg then -(n : Int) else n

/-- Some operand is a signalling NaN. -/
def anySig (l : List FV) : Bool := l.any (fun v => v = .nan true)

/-- Some operand is a NaN. -/
def anyNan (l : List FV) : Bool := l.any (fun v => v = .nan true || v = .nan false)

/-- The exact sum's sign of zero (IEEE 754): equal signs keep it, else minus only toward minus infinity. -/
def zeroSign (r : Rnd) (a b : Bool) : Bool := if a = b then a else r.rm = 2

/-- The exact sum of finite values. -/
def sumV (r : Rnd) (na : Bool) (a da : Nat) (nb : Bool) (b db : Nat) : FV :=
  signedV (if a = 0 ∧ b = 0 then zeroSign r na nb else r.rm = 2) (snum na a * db + snum nb b * da) (da * db)

/-- a + b (R161). -/
def fadd (f : Fmt) (r : Rnd) (a b : FV) : FRes :=
  if anyNan [a, b] then fnan f (anySig [a, b])
  else match a, b with
    | .inf x, .inf y => if x = y then fexact (signCode f x + infCode f) else finvalid f
    | .inf x, _ => fexact (signCode f x + infCode f)
    | _, .inf y => fexact (signCode f y + infCode f)
    | .fin na n d, .fin nb m e => fpack f r (sumV r na n d nb m e)
    | _, _ => fnan f false

/-- The value with its sign inverted. -/
def fneg : FV → FV
  | .nan s => .nan s
  | .inf n => .inf (!n)
  | .fin n a d => .fin (!n) a d

/-- a · b, exact; none when 0 · Inf (R161, R165). -/
def mulV (a b : FV) : Option FV :=
  match a, b with
  | .inf x, .inf y => some (.inf (x != y))
  | .inf x, .fin y n _ => if n = 0 then none else some (.inf (x != y))
  | .fin y n _, .inf x => if n = 0 then none else some (.inf (x != y))
  | .fin x n d, .fin y m e => some (.fin (x != y) (n * m) (d * e))
  | _, _ => some (.nan false)

/-- a · b (R161). -/
def fmul (f : Fmt) (r : Rnd) (a b : FV) : FRes :=
  if anyNan [a, b] then fnan f (anySig [a, b])
  else match mulV a b with
    | none => finvalid f
    | some v => fpack f r v

/-- a · b + c, one rounding (R165): 0 · Inf is invalid even beside a quiet NaN. -/
def fmad (f : Fmt) (r : Rnd) (a b c : FV) : FRes :=
  if anyNan [a, b] then fnan f (anySig [a, b, c])
  else match mulV a b with
    | none => finvalid f
    | some p => fadd f r p c

/-- a / b (R161, R162): a finite nonzero value by zero is an infinity and raises nothing. -/
def fdiv (f : Fmt) (r : Rnd) (a b : FV) : FRes :=
  if anyNan [a, b] then fnan f (anySig [a, b])
  else match a, b with
    | .inf _, .inf _ => finvalid f
    | .inf x, .fin y _ _ => fexact (signCode f (x != y) + infCode f)
    | .fin x _ _, .inf y => fexact (signCode f (x != y))
    | .fin x n d, .fin y m e =>
      if m = 0 then (if n = 0 then finvalid f else fexact (signCode f (x != y) + infCode f))
      else fround f r (x != y) (n * e) (d * m)
    | _, _ => fnan f false

/-- a < b as reals; -0 equals +0; false for a NaN. -/
def fltV (a b : FV) : Bool :=
  match a, b with
  | .inf x, .inf y => x && !y
  | .inf x, .fin _ _ _ => x
  | .fin _ _ _, .inf y => !y
  | .fin x n d, .fin y m e => decide (snum x n * e < snum y m * d)
  | _, _ => false

/-- a = b as reals; false for a NaN. -/
def feqV (a b : FV) : Bool := !anyNan [a, b] && !fltV a b && !fltV b a

/-- Round a finite magnitude to an integer (R57): the magnitude and whether it was inexact. -/
def roundNat (r : Rnd) (neg : Bool) (n d : Nat) : Nat × Bool :=
  let (t, ex) := scaleFloor n d 33
  (roundT r neg t ex, !(ex && t % 2 ^ 33 = 0))

/-- The integer square root, by bits from bit i downward. -/
def isqrtBits (n : Nat) : Nat → Nat → Nat
  | 0, r => r
  | i + 1, r => isqrtBits n i (if (r + 2 ^ i) * (r + 2 ^ i) ≤ n then r + 2 ^ i else r)

/-- floor(sqrt n). -/
def isqrt (n : Nat) : Nat := isqrtBits n (n.log2 / 2 + 1) 0

/-- The square root of a nonzero magnitude, correctly rounded (R176). -/
def fsqrtMag (f : Fmt) (r : Rnd) (n d : Nat) : FRes :=
  packMag f r false ((floorLog2 n d) / 2) (fun k =>
    let (t, ex) := scaleFloor n d (2 * k)
    let q := isqrt t
    (q, ex && q * q = t))

end Sys2Proof.Machine
end

