-- ==== Sys2Proof/Machine/Formats.lean ====
section
/-!
DEFINITION. The block-scaled and wide formats (03 R61 to R77): S8, Q4X, I4 and I8 blocks, plane-tile residues and
WX24, with the converter events of CVSTAT (R69).
-/
namespace Sys2Proof.Machine

open Sys2Proof

/-! ### Converter events (R69) -/

/-- How often each converter event arose: SATCV, NANSC, NANDROP, OUTCLAMP, PARTNER, FORMAT, RESRANGE. -/
structure CvEv where
  satcv : Nat := 0
  nansc : Nat := 0
  nandrop : Nat := 0
  outclamp : Nat := 0
  partner : Nat := 0
  format : Nat := 0
  resrange : Nat := 0
deriving DecidableEq, Repr

/-- Both sets of events. -/
def cvPlus (a b : CvEv) : CvEv :=
  ⟨a.satcv + b.satcv, a.nansc + b.nansc, a.nandrop + b.nandrop, a.outclamp + b.outclamp, a.partner + b.partner,
   a.format + b.format, a.resrange + b.resrange⟩

/-- An 8-bit counter field at a bit, plus n, stopping at 255 (R69). -/
def satByte (w lo n : Nat) : Nat := min 255 (w / 2 ^ lo % 256 + n) * 2 ^ lo

/-- CVSTAT after events (R69). -/
def cvCount (w : Word) (e : CvEv) : Word :=
  let x := w.toNat
  BitVec.ofNat 64 (satByte x 0 e.satcv + satByte x 8 e.nansc + satByte x 16 e.nandrop + satByte x 24 e.outclamp +
    satByte x 32 e.partner + satByte x 40 e.format + satByte x 48 e.resrange)

/-! ### Fractions -/

/-- a / b ≤ c / d. -/
def qle (a b : Nat × Nat) : Bool := decide (a.1 * b.2 ≤ b.1 * a.2)

/-- The larger fraction. -/
def qmax (a b : Nat × Nat) : Nat × Nat := if qle a b then b else a

/-- The magnitude of a finite value; zero for a NaN or infinity. -/
def fmag : FV → Nat × Nat
  | .fin _ n d => (n, d)
  | _ => (0, 1)

/-- The sign of a value. -/
def fnegative : FV → Bool
  | .nan _ => false
  | .inf s => s
  | .fin s _ _ => s

/-- The value times 2^k. -/
def fscale (v : FV) (k : Int) : FV :=
  match v with
  | .fin s n d => .fin s (n * 2 ^ k.toNat) (d * 2 ^ (-k).toNat)
  | v => v

/-- A finite value. -/
def isFin : FV → Bool
  | .fin _ _ _ => true
  | _ => false

/-- Magnitudes in descending order. -/
def insDesc (a : Nat × Nat) : List (Nat × Nat) → List (Nat × Nat)
  | [] => [a]
  | b :: r => if qle b a then a :: b :: r else b :: insDesc a r

/-! ### The S8 block scale (R61, R62) -/

/-- The value of an S8 code, not 0x00 or 0xFF (R61). -/
def s8Val (c : Nat) : Nat × Nat :=
  if c / 4 = 0 then (c % 4, 2 ^ 32) else ((4 + c % 4) * 2 ^ (c / 4), 2 ^ 33)

/-- The smallest S8 code with value at least q, at most 0xFE, and whether that cap was needed (R62). -/
def s8Choose (q : Nat × Nat) : Nat × Bool :=
  match (List.range 254).find? (fun i => qle q (s8Val (i + 1))) with
  | some i => (i + 1, false)
  | none => (0xFE, true)

/-- What chooses a block's scale (R62): the destination's bound from the magnitudes in descending order. -/
def scaleBound (kind : Nat) (l : List (Nat × Nat)) : Nat × Nat :=
  let a := l.getD 0 (0, 1)
  let by_ : Nat → Nat × Nat := fun k => (a.1, a.2 * k)
  match kind with
  | 4 => by_ 7
  | 5 => by_ 127
  | 6 => by_ 480
  | 7 => by_ 114688
  | b => let c := l.getD b (0, 1); qmax (c.1, c.2 * 7) (by_ 96)

/-- Codes of the destinations of `scaleBound`: I4; Q4X with budget 0 to 2 is its budget. -/
def kI4 : Nat := 4
/-- I8. -/
def kI8 : Nat := 5
/-- FP8E4. -/
def kE4 : Nat := 6
/-- FP8E5. -/
def kE5 : Nat := 7

/-- The scale of a block (R62, R63): 0xFF for a NaN or infinity, 0 for all zeros; whether the cap applied. -/
def blockScale (kind : Nat) (xs : List FV) : Nat × Bool :=
  if xs.any (fun v => !isFin v) then (0xFF, false)
  else
    let l := xs.foldl (fun l v => insDesc (fmag v) l) []
    if (l.getD 0 (0, 1)).1 = 0 then (0, false) else s8Choose (scaleBound kind l)

/-- |x / S| as a fraction. -/
def overScale (v : FV) (c : Nat) : Nat × Nat := ((fmag v).1 * (s8Val c).2, (fmag v).2 * (s8Val c).1)

/-! ### Q4X (R64 to R66) -/

/-- The outlier magnitude of e, m (R65). -/
def outMag (k : Nat) : Nat := (2 + k % 2) * 2 ^ (k / 2 + 2)

/-- The nearest outlier code e·2 + m of a magnitude; a tie goes to m = 0; beyond 96 the code of 96 (R66). -/
def outCode (q : Nat × Nat) : Nat :=
  (List.range 7).foldl (fun best k =>
    -- move from code k to k + 1 when q lies above their midpoint, or on it and k + 1 has m = 0
    let mid : Nat × Nat := (outMag k + outMag (k + 1), 2)
    if qle q mid = false ∨ (q.1 * mid.2 = mid.1 * q.2 ∧ (k + 1) % 2 = 0) then k + 1 else best) 0

/-- An inlier's integer, clamped to ±lim, and whether the clamp acted. -/
def inlier (r : Rnd) (v : FV) (q : Nat × Nat) (lim : Nat) : Int × Bool :=
  let (m, _) := roundNat r (fnegative v) q.1 q.2
  (snum (fnegative v) (min m lim), decide (lim < m))

/-- Two's complement nibble. -/
def nib (i : Int) : Nat := (i % 16).toNat

/-- A Q4X block (R66): inputs with their roundings, budget b: word, scale, events.
Log 63: DEDUCED. -/
def encodeQ4X (b : Nat) (xs : List (FV × Rnd)) : Nat × Nat × CvEv :=
  let vs := xs.map (·.1)
  let (c, capped) := blockScale b vs
  if c = 0xFF then (0, 0xFF, { nansc := 1 })
  else if c = 0 then (0, 0, {})
  else
    let q : Nat → Nat × Nat := fun j => overScale (vs.getD j (.fin false 0 1)) c
    let v : Nat → FV := fun j => vs.getD j (.fin false 0 1)
    let big : List Nat := (List.range 8).filter (fun j => !qle (q j) (15, 2))
    -- step 2: the b largest stay candidates, the lower slot first at equal magnitudes
    let rank : Nat → Nat := fun j => (big.filter (fun k => !qle (q k) (q j) || (qle (q j) (q k) && decide (k < j)))).length
    let cand := big.filter (fun j => decide (rank j < b))
    let beyond := big.filter (fun j => !decide (rank j < b))
    let sat2 := beyond.length + (cand.filter (fun j => !qle (q j) (96, 1))).length
    -- step 3: of two candidates in a pair the smaller is clamped, slot 2p+1 at equal magnitudes
    let lose := cand.filter (fun j =>
      let o := if j % 2 = 0 then j + 1 else j - 1
      cand.contains o && (if j % 2 = 0 then !qle (q o) (q j) else qle (q j) (q o)))
    let keep := cand.filter (fun j => !lose.contains j)
    -- step 4: -8 would write a second marker
    let mark := keep.filter (fun j => outCode (q j) = 0 && fnegative (v j))
    let outs := keep.filter (fun j => !mark.contains j)
    let inl : Nat → Int × Bool := fun j =>
      if beyond.contains j || lose.contains j || mark.contains j then (snum (fnegative (v j)) 7, false)
      else inlier ((xs.getD j (.fin false 0 1, ⟨0, 0⟩)).2) (v j) (q j) 7
    let part : Nat → Bool := fun j => outs.contains (if j % 2 = 0 then j + 1 else j - 1)
    let code : Nat → Nat := fun j =>
      if outs.contains j then 8
      else if part j then
        let o := if j % 2 = 0 then j + 1 else j - 1
        (if fnegative (v o) then 8 else 0) + outCode (q o)
      else nib (inl j).1
    let sat6 := if capped then ((List.range 8).filter (fun j => !outs.contains j && !part j && (inl j).2)).length else 0
    let partner := ((List.range 8).filter (fun j => part j && (inl j).1 ≠ 0)).length
    ((List.range 8).foldl (fun w j => w + code j * 16 ^ j) 0, c,
     { satcv := sat2 + sat6, outclamp := lose.length + mark.length, partner := partner })

/-- sext(x, 4). -/
def sx4 (x : Nat) : Int := if x < 8 then x else (x : Int) - 16

/-- The outlier's integer (R65). -/
def outVal (n : Nat) : Int := snum (decide (8 ≤ n)) (outMag (n % 8))

/-- The eight integers of a Q4X word, and how many pairs held two markers (R65). -/
def q4xInts (w : Nat) : List Int × Nat :=
  (List.range 4).foldl (fun (l, e) p =>
    let a := w / 16 ^ (2 * p) % 16
    let b := w / 16 ^ (2 * p + 1) % 16
    if a = 8 ∧ b = 8 then (l ++ [0, 0], e + 1)
    else if a = 8 then (l ++ [outVal b, 0], e)
    else if b = 8 then (l ++ [0, outVal a], e)
    else (l ++ [sx4 a, sx4 b], e)) ([], 0)

/-- An integer times an S8 scale (R61, R63). -/
def timesS8 (i : Int) (c : Nat) : FV :=
  .fin (decide (i < 0)) (i.natAbs * (s8Val c).1) (s8Val c).2

/-- A Q4X block decoded (R63, R65): eight values and the FORMAT events. -/
def decodeQ4X (w c : Nat) : List FV × CvEv :=
  if c = 0 then (List.replicate 8 (.fin false 0 1), {})
  else if c = 0xFF then (List.replicate 8 (.nan false), {})
  else
    let (l, e) := q4xInts w
    (l.map (fun i => if i = 0 then .fin false 0 1 else timesS8 i c), { format := e })

/-- A block of integers with an S8 scale, I4 (kind 4, limit 7) or I8 (kind 5, limit 127) (R62, R67). -/
def encodeInts (kind lim : Nat) (xs : List (FV × Rnd)) : List Int × Nat × CvEv :=
  let (c, _) := blockScale kind (xs.map (·.1))
  if c = 0xFF then (xs.map (fun _ => 0), 0xFF, { nansc := 1 })
  else if c = 0 then (xs.map (fun _ => 0), 0, {})
  else
    let r := xs.map (fun p => inlier p.2 p.1 (overScale p.1 c) lim)
    (r.map (·.1), c, { satcv := (r.filter (·.2)).length })

/-- A block of FP8 codes with an S8 scale (R56, R62). -/
def encodeFp8 (f : Fmt) (kind : Nat) (xs : List (FV × Rnd)) : List Nat × Nat × CvEv :=
  let (c, _) := blockScale kind (xs.map (·.1))
  if c = 0xFF then (xs.map (fun _ => 0), 0xFF, { nansc := 1 })
  else if c = 0 then (xs.map (fun _ => 0), 0, {})
  else
    let r := xs.map (fun p => let q := overScale p.1 c; fround f p.2 (fnegative p.1) q.1 q.2)
    (r.map (·.code), c, { satcv := (r.filter (·.sat)).length })

/-- A value into FP8 on a path with no scale (R56 steps 2 to 6): the result and its events; a NaN is invalid. -/
def fp8Plain (f : Fmt) (r : Rnd) : FV → FRes × CvEv
  | .nan _ => (⟨0, true, false, false, false, false⟩, { nandrop := 1 })
  | .inf neg => (⟨signCode f neg + maxCode f, false, true, false, true, true⟩, { satcv := 1 })
  | .fin neg n d =>
    let x := fround f r neg n d
    (x, if x.sat then { satcv := 1 } else {})

/-- The smallest S8 value at least |x| (R175). -/
def encodeS8 : FV → Nat × CvEv
  | .fin _ n d =>
    if n = 0 then (0, {}) else let (c, capped) := s8Choose (n, d); (c, if capped then { satcv := 1 } else {})
  | _ => (0xFF, { nansc := 1 })

/-! ### WX24 (R76, R77) -/

/-- The mantissas of a block at exponent e, under RNE. -/
def wxMant (xs : List FV) (e : Int) : List Int :=
  xs.map (fun v =>
    let w := fscale v (-e)
    snum (fnegative v) (roundNat ⟨0, 0⟩ false (fmag w).1 (fmag w).2).1)

/-- Every mantissa is within 24 bits. -/
def wxFits (l : List Int) : Bool := l.all (fun m => decide (-(2 ^ 23) ≤ m) && decide (m < 2 ^ 23))

/-- A WX24 block (R76): eight mantissas and the exponent byte, none for a NaN block; saturation events. -/
def wxEncode (xs : List FV) : Option (List Int × Int) × CvEv :=
  if xs.any (fun v => !isFin v) then (none, {})
  else if xs.all (fun v => (fmag v).1 = 0) then (some (xs.map (fun _ => 0), -127), {})
  else
    match (List.range 255).find? (fun (i : Nat) => wxFits (wxMant xs ((i : Int) - 127))) with
    | some i => (some (wxMant xs ((i : Int) - 127), (i : Int) - 127), {})
    | none =>
      let l := wxMant xs 127
      (some (l.map (fun m => max (-(2 ^ 23)) (min (2 ^ 23 - 1) m)), 127),
       { satcv := (l.filter (fun m => !wxFits [m])).length })

/-- The values of a WX24 block (R76). -/
def wxDecode : Option (List Int × Int) → List FV
  | none => List.replicate 8 (.nan false)
  | some (l, e) => l.map (fun m => fscale (.fin (decide (m < 0)) m.natAbs 1) e)

/-- The sum of two WX24 blocks (R77). -/
def wxSum (a b : Option (List Int × Int)) : Option (List Int × Int) × CvEv :=
  match a, b with
  | some _, some _ =>
    wxEncode (((wxDecode a).zip (wxDecode b)).map (fun p =>
      match p with
      | (.fin x n d, .fin y m e) => signedV false (snum x n * e + snum y m * d) (d * e)
      | _ => .nan false))
  | _, _ => (none, {})

end Sys2Proof.Machine
end

