-- ==== Sys2Proof/Machine/Operands.lean ====
section
/-!
DEFINITION. Vector operands (R22, R37, R53, R161): elements read from lanes or pairs, results written in the form
of R53, and `lanes`, which runs a lane rule over the active lanes and ends the instruction with its flags and
traps (R162, R169).
-/
namespace Sys2Proof.Machine

open Sys2Proof

/-- An integer type code (R29). -/
def isInt (et : Nat) : Bool := et < 8

/-- A float type code with infinities: F32, BF16, F16. -/
def isFloat (et : Nat) : Bool := 8 ≤ et && et ≤ 10

/-- FP8E4 or FP8E5. -/
def isFp8 (et : Nat) : Bool := et = 11 || et = 12

/-- A signed integer type. -/
def isSigned (et : Nat) : Bool := et % 2 = 0

/-- The element's width in bits (R29, R53). -/
def etBits (et : Nat) : Nat :=
  match et with
  | 0 => 32
  | 1 => 32
  | 2 => 64
  | 3 => 64
  | 4 => 16
  | 5 => 16
  | 6 => 8
  | 7 => 8
  | 8 => 32
  | 9 => 16
  | 10 => 16
  | 11 => 8
  | 12 => 8
  | _ => 32

/-- The registers' raw content for an element: the pair of a 64-bit type, else the lane (R22). -/
def rawV (s : State) (et n i : Nat) : Word := if is64 et then getV2 s n i else (getV s n i).setWidth 64

/-- The element's bits (R53). -/
def elemBits (et : Nat) (raw : Word) : Nat := raw.toNat % 2 ^ etBits et

/-- The element's integer value (R53). -/
def elemInt (et : Nat) (raw : Word) : Int :=
  if isSigned et then sx (etBits et) (elemBits et raw) else (elemBits et raw : Int)

/-- The element's float value. -/
def elemFV (et : Nat) (raw : Word) : FV :=
  match fmtOf et with
  | some f => fdecode f (elemBits et raw)
  | none => .fin false 0 1

/-- An integer result reduced to the type and put in the form of R53.
Log 16: DEDUCED. -/
def formInt (et : Nat) (v : Int) : Word :=
  let x : Int := v % 2 ^ etBits et
  if isSigned et then wi (sx (etBits et) x.toNat) else wi x

/-- An element's bits put in the form of R53. -/
def formBits (et b : Nat) : Word := if isInt et then formInt et b else wd b

/-- Write an element's register form to a lane, or to the pair of a 64-bit type. -/
def putElem (a : Agent) (et n i : Nat) (x : Word) : Agent :=
  if is64 et then putV2A a n i x else putVA a n i (x.setWidth 32)

/-- The range of an integer type (R53). -/
def etMin (et : Nat) : Int := if isSigned et then -(2 ^ (etBits et - 1)) else 0

/-- The range of an integer type (R53). -/
def etMax (et : Nat) : Int := if isSigned et then 2 ^ (etBits et - 1) - 1 else 2 ^ etBits et - 1

/-- What a lane's rule answers: the register form, flags, whether it raised invalid or a divide fault, and its
converter events. -/
structure LRes where
  val : Word
  flags : BitVec 8 := 0
  inv : Bool := false
  div : Bool := false
  ev : CvEv := {}
deriving DecidableEq, Repr

/-- An integer result under R161: wrapped, or saturated with SSTAT.SAT. -/
def intRes (et : Nat) (sat : Bool) (v : Int) : LRes :=
  if sat then
    let w := max (etMin et) (min (etMax et) v)
    { val := formInt et w, flags := if w = v then 0 else fSAT }
  else { val := formInt et v }

/-- The SSTAT flags of a rounded result (R162). -/
def fresFlags (r : FRes) : BitVec 8 :=
  (if r.inv then fINV else 0) ||| (if r.ovf then fOVF else 0) ||| (if r.unf then fUNF else 0) ||| (if r.inx then fINX else 0)

/-- A float result (R162). -/
def floatRes (r : FRes) : LRes := { val := wd r.code, flags := fresFlags r, inv := r.inv }

/-- The rounding of lane i for an instruction that writes Vd (R57, R59); `always` draws under every mode. -/
def laneRnd (s : State) (d i : Nat) (always : Bool) : Rnd :=
  ⟨rmOf s, if rmOf s = 5 ∨ always = true then draw s.cur.srkey s.cur.srseq (wd d) i 0 else 0⟩

/-- The core counts converter events (R69). -/
def countCv (s : State) (core : Nat) (e : CvEv) : State :=
  if e = {} then s else { s with cvstat := smPut 0 s.cvstat core (cvCount (smGet 0 s.cvstat core) e) }

/-- The flags of a list of lane results together. -/
def allFlags (l : List (Nat × LRes)) : BitVec 8 := l.foldl (fun f p => f ||| p.2.flags) 0

/-- The events of a list of lane results together. -/
def allEv (l : List (Nat × LRes)) : CvEv := l.foldl (fun e p => cvPlus e p.2.ev) {}

/-- Write lane results as elements of type et to Vd. -/
def writeLanes (a : Agent) (et d : Nat) (l : List (Nat × LRes)) : Agent :=
  l.foldl (fun a p => putElem a et d p.1 p.2.val) a

/-- A vector instruction's end (R162, R169): every lane is written, the flags set, DIVMASK written when a lane
faulted, the core's events counted; then DIVZ or FPINV where MD enables it. -/
def lanesEnd (s : State) (i : Instr) (et d : Nat) (l : List (Nat × LRes)) : Issue :=
  let div := maskList ((l.filter (·.2.div)).map (·.1))
  let inv := maskList ((l.filter (·.2.inv)).map (·.1))
  let t := onCur s (fun a =>
    let a := writeLanes a et d l
    { a with sstat := a.sstat ||| allFlags l, divmask := if div = 0 then a.divmask else div })
  let t := advance (countCv t s.cur.core (allEv l))
  if dztOf s = true ∧ div ≠ 0 then .after t (afterTrap DIVZ (pcOf s) i div)
  else if fptOf s = true ∧ inv ≠ 0 then .after t (afterTrap FPINV (pcOf s) i inv)
  else .done t

/-- The second operand of Form A (R37): a vector register, or a broadcast scalar register. -/
inductive Src where
  | v (n : Nat)
  | s (n : Nat)
deriving DecidableEq, Repr

/-- The raw content of the second operand for a lane (R37): the low 32 bits of Sb, or all 64. -/
def srcRaw (s : State) (et : Nat) (b : Src) (i : Nat) : Word :=
  match b with
  | .v n => rawV s et n i
  | .s n => if is64 et then getS s n else ((getS s n).setWidth 32).setWidth 64

/-- The V registers an operand occupies. -/
def srcV (wide : Bool) : Src → List Nat
  | .v n => if wide then [n, n + 1] else [n]
  | .s _ => []

/-- The S registers an operand names. -/
def srcS : Src → List Nat
  | .v _ => []
  | .s n => [n]

/-- A 64-bit operand in an odd register (R22). -/
def oddSrc : Src → Bool
  | .v n => n % 2 = 1
  | .s _ => false

/-- The registers of an operand of the type in force. -/
def regs (wide : Bool) (n : Nat) : List Nat := if wide then [n, n + 1] else [n]

/-- A lane-wise instruction of one type, MD.ET (R160, R161): refuse the type or an odd register, then run the rule
over the active lanes. -/
def lanewise (i : Instr) (ok : Nat → Bool) (d : Nat) (ops : List Src) (readD : Bool)
    (f : State → Nat → LRes) (s : State) : Out :=
  let et := etOf s
  let wide := is64 et
  run i { vr := (if readD then regs wide d else []) ++ ops.flatMap (srcV wide), vw := regs wide d, sr := ops.flatMap srcS }
    (fun s =>
      if ok et = false then illegal s i
      else if wide ∧ (d % 2 = 1 ∨ ops.any oddSrc = true) then illegal s i
      else lanesEnd s i et d ((activeLanes s).map (fun l => (l, f s l)))) s

end Sys2Proof.Machine
end

