-- ==== Sys2Proof/Machine/Bounds.lean ====
section
/-!
DEFINITION. The bound table's check of a value (11 R232, R233), shared by vector stores and ADRN.
-/
namespace Sys2Proof.Machine

open Sys2Proof

/-- A core's bound entry; entry 0 reads zero (R232). -/
def boundGet (s : State) (core n : Nat) : Bound := if n = 0 then Bound.zero else smGet Bound.zero s.bounds (core * 64 + n)

/-- Replace a bound entry; entry 0 discards (R31). -/
def boundPut (s : State) (core n : Nat) (b : Bound) : State :=
  if n = 0 then s else { s with bounds := smPut Bound.zero s.bounds (core * 64 + n) b }

/-- A value with the direction in which its type compares: an integer, or a float (R232). -/
inductive BVal where
  | int (v : Int)
  | flt (v : FV)
deriving DecidableEq, Repr

/-- A bound read as F32 (R232). -/
def boundF (b : Word) : FV := fdecode fF32 (b.toNat % 2 ^ 32)

/-- The value lies below a bound word. -/
def belowB (v : BVal) (b : Word) : Bool :=
  match v with
  | .int i => decide (i < b.toInt)
  | .flt x => fltV x (boundF b)

/-- The value lies above a bound word. -/
def aboveB (v : BVal) (b : Word) : Bool :=
  match v with
  | .int i => decide (b.toInt < i)
  | .flt x => fltV (boundF b) x

/-- A bound is a NaN, for a float value. -/
def nanBound (v : BVal) (e : Bound) : Bool :=
  match v with
  | .int _ => false
  | .flt _ => anyNan [boundF e.lo, boundF e.hi]

/-- BNDLO > BNDHI. -/
def crossed (v : BVal) (e : Bound) : Bool :=
  match v with
  | .int _ => decide (e.hi.toInt < e.lo.toInt)
  | .flt _ => fltV (boundF e.hi) (boundF e.lo)

/-- The value is a NaN. -/
def isNanB : BVal → Bool
  | .int _ => false
  | .flt x => anyNan [x]

/-- The value is out of range (R232). -/
def outOfRange (v : BVal) (e : Bound) : Bool :=
  nanBound v e || crossed v e || isNanB v || belowB v e.lo || aboveB v e.hi

/-- A bound rounded into an FP8 format toward one infinity (R233).
Log 89: DEDUCED. -/
def fp8Toward (f : Fmt) (up neg : Bool) (n d : Nat) : Nat :=
  let e0 := floorLog2 n d
  if n = 0 then signCode f neg
  else if e0 < 1 - (f.bias : Int) - f.mb then signCode f neg + (if up != neg then 1 else 0)
  else (packFp8 f ⟨if up then 3 else 2, 0⟩ neg e0 (scaleFloor n d)).code

/-- A bound word rounded toward one infinity into a type, in the form of R53 (R233); an integer beyond the type's
range takes its extreme (log 9).
Log 9: DEDUCED. -/
def boundInto (et : Nat) (up : Bool) (b : Word) : Word :=
  match fmtOf et with
  | none => if isInt et then formInt et (max (etMin et) (min (etMax et) b.toInt)) else wi (max 0 (min (2 ^ 32 - 1) b.toInt))
  | some f =>
    match boundF b with
    | .fin neg n d =>
      if f.ieee then wd (fround f ⟨if up then 3 else 2, 0⟩ neg n d).code else wd (fp8Toward f up neg n d)
    | .inf neg => if f.ieee then wd (signCode f neg + infCode f) else wd (signCode f neg + maxCode f)
    | .nan _ => 0

/-- What a clamp writes for an out-of-range value (R233); none where no replacement is formed. -/
def clampTo (et : Nat) (v : BVal) (e : Bound) : Option Word :=
  if nanBound v e then none
  else if isNanB v then
    let zero : BVal := .flt (.fin false 0 1)
    some (if outOfRange zero e then boundInto et true e.lo else 0)
  else if belowB v e.lo then some (boundInto et true e.lo)
  else some (boundInto et false e.hi)

/-- CNT after n more out-of-range values, saturating (R232). -/
def cntAdd (c : BitVec 32) (n : Nat) : BitVec 32 := BitVec.ofNat 32 (min (2 ^ 32 - 1) (c.toNat + n))

/-- An element's value for the check; types 13 and 14 are a 32-bit lane, zero-extended (R30). -/
def elemB (et : Nat) (raw : Word) : BVal :=
  if isInt et then .int (elemInt et raw)
  else match fmtOf et with
    | some f => .flt (fdecode f (elemBits et raw))
    | none => .int (raw.toNat % 2 ^ 32)

end Sys2Proof.Machine
end

