-- ==== Sys2Proof/Machine/Memory.lean ====
section
/-!
DEFINITION. Memory: translation (R81 to R91, R103, R349), the bytes at a location and their poison (R92 to R98,
R393, R394), the checks of an access (R110), parking at a translation fault and the fault ring (R104, R105),
and loads and stores as immediate or in-flight requests (R112, R126, R274).
-/
namespace Sys2Proof.Machine

open Sys2Proof

/-! ### Page entries (R84, R85) -/

/-- 480 GiB, the end of HBM4 (R82). -/
def hbmEnd : Nat := 0x7800000000

/-- A decoded page entry: `base` is the PA, or the offset for PIN_CORE, of the page's first byte. -/
structure Page where
  home : Nat
  ord : Nat
  r : Bool
  w : Bool
  x : Bool
  u : Bool
  pr : Bool
  p : Bool
  hidx : Nat
  base : Nat
  entry : Word
deriving DecidableEq, Repr

/-- The VA bit at which a level's index begins (R83). -/
def lvlShift : Nat → Nat
  | 0 => 43
  | 1 => 30
  | 2 => 21
  | _ => 16

/-- The entries of a level's table (R83). -/
def lvlEntries : Nat → Nat
  | 0 => 16384
  | 1 => 8192
  | 2 => 512
  | _ => 32

/-- A valid entry is malformed (R85). -/
def malformed (disabled : List Nat) (level : Nat) (e : Word) : Bool :=
  if e.getLsbD 1 then
    let home := bits e 7 6
    let frame := fld e.toNat 55 16 * 2 ^ 16
    let cls := bits e 55 52
    let hidx := bits e 62 56
    e.getLsbD 63 || bits e 15 13 ≠ 0 || e.getLsbD 2 || bits e 9 8 = 3 ||
    level = 0 || frame % 2 ^ lvlShift level ≠ 0 ||
    (home = 2 && (level ≠ 3 || cls ≠ 0 || (if e.getLsbD 11 then 0x300000 else 0x80000) ≤ frame || disabled.contains hidx)) ||
    (home = 1 && (level ≠ 3 || cls ≠ 0 || 63 < hidx)) ||
    (home ≠ 2 && (3 ≤ cls || (cls = 0 && hbmEnd ≤ frame))) ||
    (home = 0 && cls = 2) || (e.getLsbD 11 && home ≠ 2)
  else
    let next := fld e.toNat 55 8 * 2 ^ 8
    bits e 63 56 ≠ 0 || bits e 7 2 ≠ 0 || level = 3 ||
    next % (8 * lvlEntries (level + 1)) ≠ 0 || hbmEnd ≤ next

/-- The page of a leaf entry (R84). -/
def leafPage (e : Word) : Page :=
  { home := bits e 7 6, ord := bits e 9 8, r := e.getLsbD 3, w := e.getLsbD 4, x := e.getLsbD 5,
    u := e.getLsbD 10, pr := e.getLsbD 12, p := e.getLsbD 11, hidx := bits e 62 56,
    base := fld e.toNat 55 16 * 2 ^ 16, entry := e }

/-! ### Locations and bytes -/

/-- The location of a core SRAM byte (R92). -/
def sramLoc (core off : Nat) : Nat := 3 * 2 ^ 52 + core * 2 ^ 19 + off

/-- The location of a plane-store byte (R94). -/
def planeStoreLoc (core die off : Nat) : Nat := 4 * 2 ^ 52 + (core * 11 + die) * 2 ^ 18 + off

/-- The location that holds nothing: reads zero, discards (R94). -/
def nowhere : Nat := 5 * 2 ^ 52

/-- The location of a plane-space byte of a core (R94). -/
def planeLoc (s : State) (core o : Nat) : Nat :=
  let t := o / 49152
  let b := o % 49152
  if b < 40960 then planeStoreLoc core (s.chmap.getD (b / 4096) 0) (4096 * t + b % 4096)
  else if b < 41536 then sramLoc core (0x77000 + 576 * t + (b - 40960))
  else nowhere

/-- The class of a location (R82, and the model's 3 to 5). -/
def locClass (loc : Nat) : Nat := loc / 2 ^ 52

/-- The location of a byte of a page (R91). -/
def pageLoc (s : State) (pg : Page) (pa : Nat) : Nat :=
  if pg.home = 2 then (if pg.p then planeLoc s pg.hidx pa else sramLoc pg.hidx pa) else pa

/-- The coherent caches may hold the bytes: CACHED over local HBM4 or host memory, PIN_SLICE over HBM4 (R91, R95, R99). -/
def pageCoh (pg : Page) (pa : Nat) : Bool := (pg.home = 0 || pg.home = 1) && decide (pa / 2 ^ 52 ≤ 1)

/-- The barrier word of a location in a core's barrier file (R250): core, physical barrier, byte. -/
def barFile (loc : Nat) : Option (Nat × Nat × Nat) :=
  let o := loc % 2 ^ 19
  if locClass loc = 3 ∧ 0x73000 ≤ o ∧ o < 0x77000 then
    some ((loc - 3 * 2 ^ 52) / 2 ^ 19, (o - 0x73000) / 16, o % 16)
  else none

/-- The home slice of a local line (R96). -/
def homeSlice (pa : Nat) : Nat := ((fld pa 13 8).xor (fld pa 19 14)).xor (fld pa 25 20)

/-- The controller of a local line (R96). -/
def homeCtl (pa : Nat) : Nat := homeSlice pa / 2

/-- A byte in its home array. -/
def homeByte (s : State) (loc : Nat) : Byte :=
  if locClass loc = 5 then 0
  else match barFile loc with
    | some (c, pb, o) => BitVec.ofNat 8 (barWord s c pb / 2 ^ (8 * o))
    | none => smGet 0 s.mem loc

/-- The poison of a sector in its home array. -/
def homeTag (s : State) (sec : Nat) : Option (BitVec 12) := smGet none s.poison sec

/-- What the coherent caches hold of a sector, for a view that meets them: the coherent one, and any view of host memory, whose
transactions are coherent with the lines held of it (R95, R99). -/
def held (s : State) (coh : Bool) (loc : Nat) : Option Sector :=
  if coh || locClass loc = 1 then smGet none s.cached (loc / 32) else none

/-- A byte as a view has it.
Log 23: DESIGN CHOICE. -/
def rdByte (s : State) (coh : Bool) (loc : Nat) : Byte :=
  match held s coh loc with
  | some c => c.data.extractLsb' (loc % 32 * 8) 8
  | none => homeByte s loc

/-- The poison of the sector of a byte. -/
def rdTag (s : State) (coh : Bool) (loc : Nat) : Option (BitVec 12) :=
  match held s coh loc with
  | some c => c.tag
  | none => homeTag s (loc / 32)

/-- The lower of two tags (R394). -/
def minTag : Option (BitVec 12) → Option (BitVec 12) → Option (BitVec 12)
  | some a, some b => some (if b.toNat < a.toNat then b else a)
  | some a, none => some a
  | none, t => t

/-- n bytes from a location. -/
def rdBytes (s : State) (coh : Bool) (loc n : Nat) : List Byte := (List.range n).map (fun j => rdByte s coh (loc + j))

/-- The lowest tag of the sectors of n bytes. -/
def rdTags (s : State) (coh : Bool) (loc n : Nat) : Option (BitVec 12) :=
  (List.range ((loc + n + 31) / 32 - loc / 32)).foldl (fun t j => minTag t (rdTag s coh (loc + 32 * j))) none

/-- A sector whole, as the coherent view has it. -/
def rdSector (s : State) (coh : Bool) (k : Nat) : Sector :=
  ⟨BitVec.ofNat 256 (leNat (rdBytes s coh (32 * k) 32)), rdTag s coh (32 * k), false⟩

/-- Replace bytes of a sector from an offset on. -/
def secBytes (d : BitVec 256) (off : Nat) (bs : List Byte) : BitVec 256 :=
  let m := BitVec.ofNat 256 ((2 ^ (8 * bs.length) - 1) * 2 ^ (8 * off))
  (d &&& ~~~m) ||| BitVec.ofNat 256 (leNat bs * 2 ^ (8 * off))

/-- The number under which an error in a sector's L2 copy is listed; its home array's has the sector's own number. -/
def copyErr (k : Nat) : Nat := 2 ^ 60 + k

/-- A unit's window length in ns (R389 WCFG). -/
def winLen (s : State) (unit : Nat) : Nat := bits (smGet 0 s.wcfg unit) 63 32 * 1000000

/-- LIMIT of a unit's WCFG (R395). -/
def winLimit (s : State) (unit : Nat) : Nat := bits (smGet 0 s.wcfg unit) 15 0

/-- The counts of a unit in the window of now: those of a window that has ended are cleared (R395). Keys of rowWin hold the unit
above bit 40; a wavelength that was declared may be declared again in a new window (R397).
Log 79: DEDUCED. -/
def rollWin (s : State) (u : Nat) : State :=
  let len := winLen s u
  if len = 0 ∨ s.time < smGet 0 s.winAt u + len then s
  else { s with
    winAt := smPut 0 s.winAt u (s.time / len * len),
    rowWin := s.rowWin.filter (fun p => p.1 / 2 ^ 40 ≠ u),
    rowOrder := s.rowOrder.filter (fun g => g / 2 ^ 40 ≠ u),
    rowRetired := if 112 ≤ u then s.rowRetired.filter (fun g => g / 2 ^ 40 ≠ u) else s.rowRetired,
    dieWin := if 96 ≤ u ∧ u ≤ 106 then smPut 0 s.dieWin (u - 96) 0 else s.dieWin }

/-- A count of a unit in the window of now. -/
def winCount (s : State) (u key : Nat) : Nat := smGet 0 (rollWin s u).rowWin key

/-- The key of a sector's row-group: its controller above bit 40. -/
def rowKey (k : Nat) : Nat := homeCtl (32 * k) * 2 ^ 40 + Config.rowGroup k % 2 ^ 40

/-- The first number from a place on that satisfies a test; the first argument bounds the search. -/
def firstFrom (f : Nat → Bool) : Nat → Nat → Nat
  | 0, _ => 0
  | n + 1, i => if f i then i else firstFrom f n (i + 1)

/-- How many numbers from a place on satisfy a test. -/
def countFrom (f : Nat → Bool) : Nat → Nat → Nat
  | 0, _ => 0
  | n + 1, i => countFrom f n (i + 1) + (if f i then 1 else 0)

/-- The lowest PA of a row-group (R396). -/
def rowLow (key : Nat) : Nat := 32 * firstFrom (fun k => rowKey k == key) (hbmEnd / 32) 0

/-- How many 64 KiB frames a row-group covers (R396). -/
def rowFrames (key : Nat) : Nat :=
  countFrom (fun f => (List.range 2048).any (fun j => rowKey (2048 * f + j) == key)) (hbmEnd / 65536) 0

/-- A row-group whose count has reached LIMIT is retired (R395, R396): KIND 3, with the next ESEQ value. -/
def retireRow (s : State) (u key : Nat) : State :=
  if s.rowRetired.contains key = true ∨ winLimit s u = 0 ∨ winCount s u key < winLimit s u then s
  else logEvent { s with rowRetired := key :: s.rowRetired } u 3 1 (wd (rowLow key)) (wd (rowFrames key))

/-- A controller tracks 256 row-groups: a new one replaces the one whose last correction is oldest (R395). -/
def trackRow (s : State) (u key : Nat) : State :=
  let mine := s.rowOrder.filter (fun g => g / 2 ^ 40 == u)
  if mine.contains key = false ∧ 256 ≤ mine.length then
    { s with rowWin := smPut 0 s.rowWin (mine.headD 0) 0, rowOrder := s.rowOrder.erase (mine.headD 0) }
  else s

/-- A corrected sector of a row-group is counted (R395, R396); a retired one is not counted; a count that reaches LIMIT retires it
at once. -/
def countRow (s : State) (u key : Nat) : State :=
  let s := rollWin s u
  if s.rowRetired.contains key then s
  else
    let s := trackRow s u key
    retireRow { s with rowOrder := s.rowOrder.erase key ++ [key], rowWin := smPut 0 s.rowWin key (smGet 0 s.rowWin key + 1) } u key

/-- The pin directory entry that holds a sector's page (R97). -/
def pinOf (s : State) (k : Nat) : Option Pin :=
  s.pins.find? (fun p => decide (p.frame ≤ 32 * k) && decide (32 * k < p.frame + 65536))

/-- The sector lies in a frame that a pin directory holds (R97). -/
def pinnedSec (s : State) (k : Nat) : Bool := (pinOf s k).isSome

/-- The slice that holds a sector of HBM4: the one that its page is pinned in, or else its home (R91, R96). -/
def sliceOf (s : State) (k : Nat) : Nat := ((pinOf s k).map (·.slice)).getD (homeSlice (32 * k))

/-- The unit that detects an error (R389): the sector's controller, its L2 slice for the slice's copy, the die of a plane
store's sector, the core array for core SRAM. -/
def eccUnit (s : State) (e : Nat) : Nat :=
  if 2 ^ 60 ≤ e then 32 + sliceOf s (e - 2 ^ 60)
  else if locClass (32 * e) = 0 then homeCtl (32 * e)
  else if locClass (32 * e) = 4 then 96 + (32 * e - 4 * 2 ^ 52) / 2 ^ 18 % 11
  else 107

/-- Log an error found in a sector (R390): ADDR holds the PA for the memory units, and an open value for the others.
Log 11: DESIGN CHOICE. -/
def logEcc (s : State) (e kind sev : Nat) : State :=
  let k := e % 2 ^ 60
  if locClass (32 * k) = 0 then logOpen s (eccUnit s e) kind sev (wd (32 * k)) else logFree s (eccUnit s e) kind sev

/-- Poison a sector's L2 copy, or its home array. -/
def poisonAt (s : State) (e : Nat) (t : BitVec 12) : State :=
  if 2 ^ 60 ≤ e then
    match smGet none s.cached (e - 2 ^ 60) with
    | some c => { s with cached := smPut none s.cached (e - 2 ^ 60) (some { c with tag := some t }) }
    | none => s
  else { s with poison := smPut none s.poison e (some t) }

/-- A unit reads a sector: an error that lies in it is corrected and counted, or leaves it poisoned, and is logged now
(R98, R208, R395). -/
def eccTouch (s : State) (e : Nat) : State :=
  match smGet 0 s.latent e with
  | 0 => s
  | 1 =>
    let s := logEcc { s with latent := smPut 0 s.latent e 0 } e 1 1
    if locClass (32 * e) = 0 then countRow s (eccUnit s e) (rowKey e) else s
  | _ => logEcc (poisonAt { s with latent := smPut 0 s.latent e 0 } e (tagOf s (eccUnit s e))) e 2 2

/-- The coherent caches write a sector that they hold home, where its home does not have it, and keep it clean (R95, R97, R380);
an error in the slice's copy is met then. -/
def writeHome (s : State) (k : Nat) : State :=
  let out : State → Bool := fun s => ((smGet none s.cached k).map (fun c => c.dirty || locClass (32 * k) = 1)).getD false
  let s := if s.latent.isEmpty || !out s then s else eccTouch s (copyErr k)
  match smGet none s.cached k with
  | none => s
  | some c =>
    if c.dirty || locClass (32 * k) = 1 then
      { s with cached := smPut none s.cached k (some { c with dirty := false }), latent := smPut 0 s.latent k 0,
               mem := smPutList 0 s.mem (32 * k) ((List.range 32).map (fun j => c.data.extractLsb' (8 * j) 8)),
               poison := smPut none s.poison k c.tag }
    else s

/-- The coherent caches drop a sector; an error in its copy goes unseen (R98). -/
def dropHeld (s : State) (k : Nat) : State :=
  { s with cached := smPut none s.cached k none, latent := smPut 0 s.latent (copyErr k) 0 }

/-- A held sector is written home where it is dirty, and dropped (R95). -/
def writeBack (s : State) (k : Nat) : State := dropHeld (writeHome s k) k

/-- Write bytes inside one sector, with the poison they bring (R394): a whole sector takes it, a part keeps the
lowest tag. A measured frame that is written loses its mark (R406); a store to a dead barrier word or to nowhere
is discarded (R94, R251). A write to host memory past the caches takes the line that they hold home first (R99). -/
def wrSector (s : State) (coh : Bool) (loc : Nat) (bs : List Byte) (tag : Option (BitVec 12)) : State :=
  if locClass loc = 5 ∨ (barFile loc).isSome = true then s
  else
    let k := loc / 32
    let whole := bs.length = 32
    let s := if locClass loc = 0 then { s with measured := smPut false s.measured (loc / 65536) false } else s
    if coh then
      let old := rdSector s true k
      let new : Sector := ⟨secBytes old.data (loc % 32) bs, if whole then tag else minTag old.tag tag, true⟩
      { s with cached := smPut none s.cached k (some new), latent := if whole then smPut 0 s.latent (copyErr k) 0 else s.latent }
    else
      let s := if locClass loc = 1 then writeBack s k else s
      { s with mem := smPutList 0 s.mem loc bs, latent := if whole then smPut 0 s.latent k 0 else s.latent,
               poison := smPut none s.poison k (if whole then tag else minTag (homeTag s k) tag) }

/-- Write bytes from a location on, sector by sector; the first argument bounds the sectors. -/
def wrRange : Nat → State → Bool → Nat → List Byte → Option (BitVec 12) → State
  | 0, s, _, _, _, _ => s
  | f + 1, s, coh, loc, bs, tag =>
    if bs.isEmpty then s
    else
      let n := 32 - loc % 32
      wrRange f (wrSector s coh loc (bs.take n) tag) coh (loc + n) (bs.drop n) tag

/-- Write bytes from a location on. -/
def wrBytes (s : State) (coh : Bool) (loc : Nat) (bs : List Byte) (tag : Option (BitVec 12)) : State :=
  wrRange (bs.length / 32 + 2) s coh loc bs tag

/-- Zero a range of whole sectors, with its poison and the errors that lie in it (R98). -/
def zeroRange (s : State) (loc n : Nat) : State :=
  { s with mem := smDrop s.mem loc (loc + n), poison := smDrop s.poison (loc / 32) ((loc + n) / 32),
           latent := smDrop s.latent (loc / 32) ((loc + n) / 32) }

/-- Before bytes are read, or partly written: the sectors' L2 copies, or else their home arrays, are read (R98, R208). -/
def eccRead (s : State) (coh : Bool) (loc n : Nat) : State :=
  if s.latent.isEmpty then s
  else
    (List.range ((loc + n + 31) / 32 - loc / 32)).foldl (fun s j =>
      let k := loc / 32 + j
      eccTouch s (if (held s coh (32 * k)).isSome = true then copyErr k else k)) s

/-! ### Translation (R83, R103, R349) -/

/-- Whose access it is: context, core, privilege, and the kernel facts whose windows apply (R349). -/
structure Who where
  ctx : Nat
  core : Nat
  priv : Bool
  win : Option Kernel
deriving DecidableEq, Repr

/-- The accesses of an agent. -/
def whoOf (a : Agent) : Who := ⟨a.k.ctx, a.core, a.priv, some a.k⟩

/-- What translation answers. -/
inductive Xl where
  /-- The page, the PA (or offset) of the byte, and the TLB entries learnt. -/
  | ok (pg : Page) (pa : Nat) (new : List TlbEnt)
  /-- An absent (1) or malformed (2) entry, a full pin directory (3), or a poisoned table read (4) (R104). -/
  | bad (kind level : Nat) (entry : Word)
deriving DecidableEq, Repr

/-- The address is canonical (R81). -/
def canonical (va : Word) : Bool := bits va 63 57 = (if va.getLsbD 56 then 127 else 0)

/-- The 57 implemented bits of a VA (R81). -/
def vaBits (va : Word) : Nat := va.toNat % 2 ^ 57

/-- The walk-cache entry of the cluster for a level above the last two (R103). -/
def walkHit (s : State) (w : Who) (va level : Nat) : Option TlbEnt :=
  if level < 2 then
    s.tlb.find? (fun t => t.unit == 128 + clusterOf w.core && t.ctx == w.ctx && t.level == level &&
      t.vpn == va / 2 ^ lvlShift level && !t.entry.getLsbD 1)
  else none

/-- A table read meets poison: the sector is poisoned, or an uncorrectable error in it is detected by this read (R98). -/
def tableBad (s : State) (loc : Nat) : Bool :=
  (rdTags s true loc 8).isSome ||
    decide (2 ≤ smGet 0 s.latent (if (smGet none s.cached (loc / 32)).isSome then copyErr (loc / 32) else loc / 32))

/-- The walk from a level's table (R83): walk-cache entries of the cluster are taken before memory (R103). -/
def walk (s : State) (w : Who) (va : Nat) : Nat → Nat → Nat → List TlbEnt → Xl
  | 0, _, _, _ => .bad 2 3 0
  | f + 1, level, table, new =>
    let idx := va / 2 ^ lvlShift level % lvlEntries level
    let unit := 128 + clusterOf w.core
    let vpn := va / 2 ^ lvlShift level
    let loc := table + 8 * idx
    match walkHit s w va level with
    | some t => walk s w va f (level + 1) (fld t.entry.toNat 55 8 * 2 ^ 8) new
    | none =>
      let e := wd (leNat (rdBytes s true loc 8))
      if tableBad s loc then .bad 4 level e
      else if e.getLsbD 0 = false then .bad 1 level e
      else if malformed s.disabled level e then .bad 2 level e
      else
        let ent : Nat → TlbEnt := fun u => ⟨u, w.ctx, level, vpn, e⟩
        if e.getLsbD 1 then
          let pg := leafPage e
          .ok pg (pg.base + va % 2 ^ lvlShift level) (ent w.core :: ent unit :: new)
        else walk s w va f (level + 1) (fld e.toNat 55 8 * 2 ^ 8) (if level < 2 then ent unit :: new else new)

/-- A leaf entry a TLB holds for a VA: the core's own first, then its cluster's (R103). -/
def tlbHit (s : State) (w : Who) (va : Nat) : Option TlbEnt :=
  let at_ : Nat → Option TlbEnt := fun u =>
    s.tlb.find? (fun t => t.unit == u && t.ctx == w.ctx && t.entry.getLsbD 1 && t.vpn == va / 2 ^ lvlShift t.level)
  (at_ w.core).orElse (fun _ => at_ (128 + clusterOf w.core))

/-- A page of the scratch or plane window (R349). -/
def windowPage (p : Bool) (core base : Nat) : Page :=
  { home := 2, ord := 0, r := true, w := true, x := false, u := true, pr := false, p := p, hidx := core,
    base := base, entry := 0 }

/-- Translate a canonical address. -/
def translate (s : State) (w : Who) (va : Word) : Xl :=
  match smGet none s.ctxs w.ctx with
  | none => .bad 1 0 0
  | some c =>
    let o := va.toNat - c.scrva.toNat
    match w.win with
    | some k =>
      if c.scrva.toNat ≤ va.toNat ∧ o < 0x800000 then
        if o < 65536 * k.granules.length then
          let b := k.granules.getD (o / 65536) 0 * 65536
          .ok (windowPage false w.core b) (b + o % 65536) []
        else if 0x400000 ≤ o ∧ o < 0x400000 + 49152 * k.planeN then
          .ok (windowPage true w.core 0) (49152 * k.planeT0 + (o - 0x400000)) []
        else .bad 1 3 0
      else match tlbHit s w (vaBits va) with
        | some t => .ok (leafPage t.entry) ((leafPage t.entry).base + vaBits va % 2 ^ lvlShift t.level) []
        | none => walk s w (vaBits va) 4 0 c.root.toNat []
    | none => match tlbHit s w (vaBits va) with
      | some t => .ok (leafPage t.entry) ((leafPage t.entry).base + vaBits va % 2 ^ lvlShift t.level) []
      | none => walk s w (vaBits va) 4 0 c.root.toNat []

/-- The errors that a walk detects in the table sectors that it reads (R98). -/
def walkErrors (w : Who) (va : Nat) : Nat → State → Nat → Nat → State
  | 0, s, _, _ => s
  | f + 1, s, level, table =>
    let loc := table + 8 * (va / 2 ^ lvlShift level % lvlEntries level)
    match walkHit s w va level with
    | some t => walkErrors w va f s (level + 1) (fld t.entry.toNat 55 8 * 2 ^ 8)
    | none =>
      let s := eccRead s true loc 8
      let e := wd (leNat (rdBytes s true loc 8))
      if (rdTags s true loc 8).isSome || !e.getLsbD 0 || malformed s.disabled level e || e.getLsbD 1 then s
      else walkErrors w va f s (level + 1) (fld e.toNat 55 8 * 2 ^ 8)

/-- The state after a translation's walk, if it walks: what its table reads detect (R98).
Log 88: DEDUCED. -/
def walkRead (s : State) (w : Who) (va : Word) : State :=
  if s.latent.isEmpty then s
  else match smGet none s.ctxs w.ctx with
    | none => s
    | some c =>
      if (w.win.isSome && decide (c.scrva.toNat ≤ va.toNat) && decide (va.toNat < c.scrva.toNat + 0x800000)) ||
          (tlbHit s w (vaBits va)).isSome then s
      else walkErrors w (vaBits va) 4 s 0 c.root.toNat

/-- The TLBs and walk caches take new entries (R103). -/
def tlbLearn (s : State) (new : List TlbEnt) : State :=
  { s with tlb := new.foldl (fun l t => if l.contains t then l else t :: l) s.tlb }

/-- The PIN_SLICE page is in its slice's directory, or takes a free entry; none when the directory is full (R97). -/
def pinTake (pins : List Pin) (ctx : Nat) (va : Word) (pg : Page) : Option (List Pin) :=
  if pg.home = 1 then
    let m := (ctx, vaBits va / 65536)
    if pins.any (fun p => p.slice == pg.hidx && p.frame == pg.base) then
      some (pins.map (fun p => if p.slice = pg.hidx ∧ p.frame = pg.base ∧ p.maps.contains m = false then { p with maps := m :: p.maps } else p))
    else if (pins.filter (fun p => p.slice == pg.hidx)).length < 16 then some (⟨pg.hidx, pg.base, [m], false⟩ :: pins)
    else none
  else some pins

/-! ### The checks of an access (R88, R91, R110) -/

/-- What an access asks of the page: read, write, atomic. -/
inductive AccKind where
  | rd | wr | at
deriving DecidableEq, Repr

/-- An access to a page passes U, R and W, and reaches a PIN_CORE page only within its cluster (R88, R91). -/
def permitted (w : Who) (k : AccKind) (pg : Page) : Bool :=
  (w.priv || pg.u) && (k = .wr || pg.r) && (k = .rd || pg.w) &&
  (pg.home ≠ 2 || clusterOf pg.hidx = clusterOf w.core)

/-- The barrier word of a location is live (R251). -/
def liveBar (s : State) (loc : Nat) : Bool :=
  match barFile loc with
  | some (c, pb, _) => (barGet s c pb).live
  | none => false

/-- The first live barrier word that a range of locations touches (R251). -/
def liveIn (s : State) (loc n : Nat) : Option Nat :=
  ((List.range ((loc + n + 15) / 16 - loc / 16)).map (fun j => (loc / 16 + j) * 16)).find? (liveBar s)

/-- The fabric node of a class-2 location (R82). -/
def nodeOf (loc : Nat) : Nat := fld loc 51 44

/-! ### Packets to the fabric (R294, R295, R332) -/

/-- A port. -/
def portGet (s : State) (p : Nat) : Port := smGet Port.reset s.ports p

/-- Replace a port. -/
def portPut (s : State) (p : Nat) (x : Port) : State := { s with ports := smPut Port.reset s.ports p x }

/-- The static-plane port of a packet for a node and offset; the partner of one that is down carries its traffic (R295). -/
def portFor (s : State) (node off : Nat) : Nat :=
  let q := if 240 ≤ node then node - 240 else (node + fld off 16 14) % 8
  let p := 2 * q + fld off 7 7
  if (portGet s p).st = 0 ∧ (portGet s (p.xor 1)).st ≠ 0 then p.xor 1 else p

/-- The port of a request to a location (R295). -/
def portAt (s : State) (loc : Nat) : Nat := portFor s (nodeOf loc) (loc % 2 ^ 44)

/-- The port pair that carries a request to a location's node (R295, R389). -/
def pairFor (s : State) (loc : Nat) : Nat := portAt s loc / 2

/-- The job key and the group handle that a packet carries (R294, R305, R307). -/
abbrev Badge := Word × BitVec 16

/-- The badge of what a stook's kernel asks. -/
def Kernel.badge (k : Kernel) : Badge := (k.jobkey, k.grp)

/-- A packet of so many bytes of data, behind a header of 16, enters a port's send queue (R332). -/
def postAt (s : State) (b : Badge) (kind dst port len : Nat) (req : Option Nat) (words : List Nat) : State :=
  { s with sent := s.sent ++ [⟨kind, dst, port, 16 + (len + 7) / 8 * 8, req, b.1, b.2, words⟩] }

/-- A packet for a node and offset (R295). -/
def post (s : State) (b : Badge) (kind dst off len : Nat) (req : Option Nat) (words : List Nat) : State :=
  postAt s b kind dst (portFor s dst off) len req words

/-- The aligned blocks of n bytes that accesses touch, each once. -/
def blocksOf (n : Nat) : List Acc → List Nat
  | [] => []
  | a :: r => let l := blocksOf n r
    (a.loc / n) :: l.filter (· ≠ a.loc / n)

/-- A store writes the byte at a location. -/
def writesAt (l : List Acc) (loc : Nat) : Bool := l.any (fun a => decide (a.loc ≤ loc) && decide (loc < a.loc + a.size))

/-- The accesses cover every byte of a range. -/
def covers (l : List Acc) (loc n : Nat) : Bool := (List.range n).all (fun j => writesAt l (loc + j))

/-- The accesses inside an aligned block of n bytes. -/
def within (n b : Nat) (l : List Acc) : List Acc := l.filter (fun a => a.loc / n == b)

/-- The fewest reads, naturally aligned and of 64, 128 or 256 bytes, that fetch all accesses (R294, R295): places and sizes. -/
def gatherReads (l : List Acc) : List (Nat × Nat) :=
  (blocksOf 256 l).map (fun b =>
    match blocksOf 64 (within 256 b l), blocksOf 128 (within 256 b l) with
    | [c], _ => (64 * c, 64)
    | _, [c] => (128 * c, 128)
    | _, _ => (256 * b, 256))

/-- The fewest writes (R294, R295): whole blocks of 256 and 128 bytes, the rest as 64 bytes with a byte mask. -/
def gatherWrites (l : List Acc) : List (Nat × Nat) :=
  (blocksOf 256 l).flatMap (fun b =>
    if covers l (256 * b) 256 then [(256 * b, 256)]
    else (blocksOf 128 (within 256 b l)).flatMap (fun c =>
      if covers l (128 * c) 128 then [(128 * c, 128)] else (blocksOf 64 (within 128 c l)).map (fun d => (64 * d, 64))))

/-- The byte that the accesses, in ascending lane order, leave at a location. -/
def byteLeft (l : List Acc) (loc : Nat) : Nat :=
  l.foldl (fun v a => if a.loc ≤ loc ∧ loc < a.loc + a.size then fld a.data.toNat (8 * (loc - a.loc) + 7) (8 * (loc - a.loc)) else v) 0

/-- The mask and the data of a write packet. -/
def writeWords (l : List Acc) (loc n : Nat) : List Nat :=
  (List.range n).foldr (fun j m => 2 * m + (if writesAt l (loc + j) then 1 else 0)) 0 :: (List.range n).map (fun j => byteLeft l (loc + j))

/-- A poison tag as a packet shows it (R393). -/
def tagOut (t : Option (BitVec 12)) : Nat :=
  match t with
  | none => 0
  | some x => x.toNat + 1

/-- A poison tag from the number that stands for it: 0 none, else the tag and 1. -/
def tagIn (n : Nat) : Option (BitVec 12) := if n = 0 then none else some (BitVec.ofNat 12 (n - 1))

/-- Accesses to other nodes leave in the fewest packets (R295): offset and size, and for a write the mask, the data and their
poison. -/
def postPlain (s : State) (b : Badge) (id : Nat) (store : Bool) (l : List Acc) (tag : Option (BitVec 12) := none) : State :=
  (if store then gatherWrites l else gatherReads l).foldl (fun s p =>
    post s b (if store then 1 else 0) (nodeOf p.1) (p.1 % 2 ^ 44) (if store then p.2 else 0) (some id)
      (p.1 % 2 ^ 44 :: p.2 :: if store then writeWords l p.1 p.2 ++ [tagOut tag] else [])) s

/-- Every packet of a request for a node has left its port (R332). -/
def away (s : State) (id node : Nat) : Bool := !s.sent.any (fun p => p.req == some id && p.dst == node)

/-- What a request still had to send is withdrawn. -/
def unsend (s : State) (id : Nat) (f : Packet → Bool) : State :=
  { s with sent := s.sent.filter (fun p => !(p.req == some id && f p)) }

/-- A switch's group table holds the handle under the job key, and this device is a member (R307). -/
def swAccept (s : State) (sw node : Nat) (jobkey : Word) (grp : BitVec 16) : Bool :=
  s.swGroups.any (fun g => g.sw == sw && g.handle == grp && g.jobkey == jobkey && g.members.contains node)

/-- The allocation that holds an offset of a switch. -/
def allocAt (s : State) (sw off : Nat) : Option Alloc :=
  s.allocs.find? (fun a => a.sw == sw && decide (a.base * 2 ^ 21 ≤ off) && decide (off < (a.base + a.n) * 2 ^ 21))

/-- A granary location of a switch declared lost (R101). -/
def deadSwitch (s : State) (loc : Nat) : Bool := locClass loc = 2 && 240 ≤ nodeOf loc && s.lost.contains (nodeOf loc - 240)

/-- A location in an allocation declared lost (R101); what no allocation holds is merely unanswered (R305). -/
def lostLoc (s : State) (loc : Nat) : Bool := deadSwitch s loc && (allocAt s (nodeOf loc - 240) (loc % 2 ^ 44)).isSome

/-- An access resolved to its page. -/
def mkAcc (s : State) (pg : Page) (pa lane size : Nat) (va data cmp : Word) : Acc :=
  { lane := lane, va := va, loc := pageLoc s pg pa, coh := pageCoh pg pa,
    l1 := pageCoh pg pa && pg.ord ≠ 1, ord := pg.ord, size := size, data := data, cmp := cmp, pr := pg.pr }

/-- What the checks of an instruction's accesses answer. -/
inductive Chk where
  /-- Every access resolved, in lane order, with its page; the state has learnt the translations. -/
  | ok (accs : List (Acc × Page)) (s : State)
  /-- The first failing check traps: cause, TADDR, TMASK; the state after what the lanes' walks detected (R98). -/
  | trap (cause : Nat) (taddr mask : Word) (s : State)
  /-- A translation fault: its record's facts and the faulting lanes (R104), after what the lanes' walks detected. -/
  | fault (va : Word) (kind level : Nat) (entry mask : Word) (s : State)
deriving DecidableEq, Repr

/-- The lanes of a list that fail a test, as a trap with the lowest one's address. -/
def failing (l : List (Nat × Word)) (f : Word → Bool) : Option (Word × Word) :=
  match l.filter (fun p => f p.2) with
  | [] => none
  | p :: r => some (p.2, maskList ((p :: r).map (·.1)))

/-- Translate every lane, threading what is learnt (R104: all lanes before any acts). -/
def xlLanes (s : State) (w : Who) (size : Nat) : List (Nat × Word × Word × Word) →
    List (Acc × Page) × List (Nat × Word × Nat × Nat × Word) × State
  | [] => ([], [], s)
  | (lane, va, data, cmp) :: r =>
    match translate s w va with
    | .bad k l e =>
      let (a, b, s) := xlLanes (walkRead s w va) w size r
      (a, (lane, va, k, l, e) :: b, s)
    | .ok pg pa new =>
      match pinTake s.pins w.ctx va pg with
      | none =>
        let (a, b, s) := xlLanes (walkRead s w va) w size r
        (a, (lane, va, 3, 3, pg.entry) :: b, s)
      | some pins =>
        let s := tlbLearn { walkRead s w va with pins := pins } new
        let (a, b, s) := xlLanes s w size r
        ((mkAcc s pg pa lane size va data cmp, pg) :: a, b, s)

/-- An access that ends in a trap or a fault after its walks: the errors that the walks detected stay detected (R98), and
with no error lying in a sector nothing has changed. -/
def detected (s t : State) : State := if s.latent.isEmpty then s else t

/-- Steps 1 to 4 of R110 for accesses of one size and kind: (lane, address, data, compare value) each; `lim` is a
limit of R121 on the resolved access. -/
def checkAccs (s : State) (w : Who) (k : AccKind) (size align : Nat) (l : List (Nat × Word × Word × Word))
    (lim : Acc → Bool := fun _ => true) : Chk :=
  let av := l.map (fun p => (p.1, p.2.1))
  match failing av (fun a => a.toNat % align ≠ 0) with
  | some (a, m) => .trap ALIGN a m s
  | none => match failing av (fun a => !canonical a) with
    | some (a, m) => .trap PERM a m s
    | none =>
      let (accs, bad, s') := xlLanes s w size l
      match bad with
      | (_, va, kd, lv, e) :: _ => .fault va kd lv e (maskList (bad.map (·.1))) (detected s s')
      | [] =>
        match accs.filter (fun p => !(permitted w k p.2 && lim p.1)) with
        | p :: r => .trap PERM p.1.va (maskList ((p :: r).map (·.1.lane))) (detected s s')
        | [] =>
          match (if k = .rd then [] else accs.filter (fun p => liveBar s p.1.loc)) with
          | p :: r => .trap BARWIN p.1.va (maskList ((p :: r).map (·.1.lane))) (detected s s')
          | [] => .ok accs s'

/-- Step 6 of R110: XLOST for a granary allocation declared lost (R101). -/
def checkLost (s : State) (accs : List (Acc × Page)) : Option (Word × Word) :=
  match accs.filter (fun p => lostLoc s p.1.loc) with
  | [] => none
  | p :: r => some (p.1.va, maskList ((p :: r).map (·.1.lane)))

/-! ### The part's own accesses through a context -/

/-- What an access of the launch sequencer, the dump writer or the fault-ring writer meets; in each case with the state after
what its walk detected (R98). -/
inductive SysRes (α : Type) where
  | ok (r : α) (s : State)
  | bad (kind level : Nat) (entry : Word) (s : State)
  | perm (s : State)
deriving DecidableEq, Repr

/-- Resolve an address for the part itself, at SYSTEM, within one page. -/
def sysLoc (s : State) (ctx core : Nat) (k : AccKind) (va : Word) : SysRes (Nat × Bool × Page) :=
  let w : Who := ⟨ctx, core, true, none⟩
  if canonical va = false then .perm s
  else match translate s w va with
    | .bad kd l e => .bad kd l e (walkRead s w va)
    | .ok pg pa new =>
      match pinTake s.pins ctx va pg with
      | none => .bad 3 3 pg.entry (walkRead s w va)
      | some pins =>
        if permitted w k pg = false then .perm (walkRead s w va)
        else .ok (pageLoc s pg pa, pageCoh pg pa, pg) (tlbLearn { walkRead s w va with pins := pins } new)

/-- A refused request is logged in the switch's bank, with the port by which it went (R295, R305, R390). -/
def logRefused (s : State) (q loc : Nat) : State := logOpen s (112 + q) 7 2 (Config.fabricAddr (portAt s loc) s.node)

/-- The switch serves a memory request of this device (R305, R307). -/
def granaryOk (s : State) (loc : Nat) (node : Nat) (jobkey : Word) (grp : BitVec 16) : Bool :=
  let sw := nodeOf loc - 240
  grp ≠ 0 && swAccept s sw node jobkey grp &&
  (match allocAt s sw (loc % 2 ^ 44) with
   | some a => a.grp = grp
   | none => false)

/-! ### What engines, descriptor reads and the part ask of other nodes (R294, R295, R305) -/

/-- A byte with the poison of its sector. -/
abbrev PByte := Byte × Option (BitVec 12)

/-- The place is another node's (R82). -/
def farLoc (loc : Nat) : Bool := locClass loc = 2

/-- The lowest tag of bytes. -/
def pTag (l : List PByte) : Option (BitVec 12) := l.foldl (fun t b => minTag t b.2) none

/-- A piece as an access, for the gathering of its packets. -/
def Piece.acc (x : Piece) : Acc :=
  { lane := 0, va := x.va, loc := x.loc, coh := x.coh, l1 := false, ord := x.ord, size := x.len, data := 0, cmp := 0, pr := x.pr }

/-- The bytes that a write brings, as accesses of one byte each. -/
def byteAccs (loc : Nat) (bs : List PByte) : List Acc :=
  ((List.range bs.length).zip bs).map (fun (p : Nat × PByte) =>
    { lane := 0, va := 0, loc := loc + p.1, coh := false, l1 := false, ord := 0, size := 1, data := wd p.2.1.toNat, cmp := 0, pr := false })

/-- The bytes of each piece. -/
def cutPieces : List Piece → List PByte → List (Piece × List PByte)
  | [], _ => []
  | x :: r, bs => (x, bs.take x.len) :: cutPieces r (bs.drop x.len)

/-- What has been asked by someone for some part of what it does. -/
def askOf (s : State) (w : Asked) : Option Ask := s.asks.find? (fun a => a.by_ == w)

/-- What satisfies a test is asked no longer; what of it still stood in a port's queue is withdrawn. -/
def dropAsks (s : State) (f : Ask → Bool) : State :=
  let l := s.asks.filter f
  { s with asks := s.asks.filter (fun a => !f a), sent := s.sent.filter (fun p => !l.any (fun a => p.req == some a.id)) }

/-- A request is asked no longer. -/
def dropAsk (s : State) (id : Nat) : State := dropAsks s (fun a => a.id == id)

/-- The operation still asks something of another node. -/
def asking (s : State) (op : Nat) : Bool :=
  s.asks.any (fun a => match a.by_ with
    | .op id _ => id == op
    | _ => false)

/-- The asks of one operation. -/
def Ask.ofOp (op : Nat) (a : Ask) : Bool :=
  match a.by_ with
  | .op id _ => id == op
  | _ => false

/-- The asks of one agent's slots. -/
def Ask.ofAgent (agent : Nat) (a : Ask) : Bool :=
  match a.by_ with
  | .slot id _ _ => id == agent
  | _ => false

/-- A request to other nodes begins: its number. -/
def newAsk (s : State) (w : Asked) (stamp : BitVec 32) (ps : List Piece) (bs : List PByte) : Nat × State :=
  let (n, s) := freshId s
  (n, { s with asks := s.asks ++ [⟨n, w, ps, bs, s.time, stamp, false, none⟩] })

/-- Pieces are read at other nodes (R294, R295). -/
def askRead (s : State) (b : Badge) (w : Asked) (stamp : BitVec 32) (ps : List Piece) : State :=
  let (n, s) := newAsk s w stamp ps []
  postPlain s b n false ((ps.filter (fun x => farLoc x.loc)).map Piece.acc)

/-- Bytes are written at other nodes: those that are clean in the fewest packets, a poisoned sector in one of its own, with its
tag (R295, R393). -/
def askWrite (s : State) (b : Badge) (w : Asked) (stamp : BitVec 32) (ps : List Piece) (bs : List PByte) : State :=
  let (n, s) := newAsk s w stamp ps bs
  let l := (cutPieces ps bs).filter (fun p => farLoc p.1.loc)
  let s := postPlain s b n true ((l.filter (fun p => (pTag p.2).isNone)).flatMap (fun p => byteAccs p.1.loc p.2))
  (l.filter (fun p => (pTag p.2).isSome)).foldl (fun s p => postPlain s b n true (byteAccs p.1.loc p.2) (pTag p.2)) s

/-- A switch refuses a place under a badge (R305, R307). -/
def refusedAt (s : State) (b : Badge) (loc : Nat) : Bool :=
  farLoc loc && decide (240 ≤ nodeOf loc) && !granaryOk s loc s.node b.1 b.2

/-- How a request to other nodes stands: it waits, it gets no response or is refused, or it has been served. -/
inductive Way where
  | wait (s : State)
  | dead (s : State)
  | gone (a : Ask) (s : State)
deriving DecidableEq, Repr

/-- A request's packets leave the ports, and the nodes serve it: a switch that has failed does not answer, and one that refuses logs
it (R101, R305).
Log 123: DESIGN CHOICE. -/
def await (s : State) (b : Badge) (a : Ask) : Way :=
  if a.dead then .dead (dropAsk s a.id)
  else if s.sent.any (fun p => p.req == some a.id) || a.pieces.any (fun x => deadSwitch s x.loc) then .wait s
  else match a.pieces.find? (fun x => refusedAt s b x.loc) with
    | some x => .dead (logRefused (dropAsk s a.id) (nodeOf x.loc - 240) x.loc)
    | none => .gone a (dropAsk s a.id)

/-- No response can come any more to the requests that satisfy a test (R101, R292, R305). -/
def killAsks (s : State) (f : Ask → Bool) : State := { s with asks := s.asks.map (fun a => if f a then { a with dead := true } else a) }

/-! ### Fault records (R104, R105) -/

/-- A context's fault ring. -/
def ringOf (s : State) (ctx : Nat) : Ring := smGet Ring.zero s.rings ctx

/-- Replace a context's fault ring state. -/
def putRing (s : State) (ctx : Nat) (r : Ring) : State := { s with rings := smPut Ring.zero s.rings ctx r }

/-- The 32 bytes of a fault record (R104). -/
def faultBytes (f : FaultRec) : List Byte :=
  leBytes 32 (f.va.toNat * 2 ^ 192 + f.eseq.toNat * 2 ^ 128 + f.entry.toNat * 2 ^ 64 + f.kind * 2 ^ 40 +
    f.level * 2 ^ 38 + f.acc * 2 ^ 32 + f.src * 2 ^ 13 + f.slot * 2 ^ 7 + f.core)

/-- Raise an MSI-X vector. -/
def raiseMsi (s : State) (v : Nat) : State := { s with msix := s.msix ++ [v] }

/-- The part writes bytes inside one page; those of another node leave as a write of the context's, which is not waited for.
Log 124: DEDUCED. -/
def sysWrite (s : State) (ctx core : Nat) (va : Word) (bs : List Byte) : SysRes Unit :=
  match sysLoc s ctx core .wr va with
  | .bad k l e s => .bad k l e s
  | .perm s => .perm s
  | .ok (loc, coh, _) s =>
    if farLoc loc then
      let (n, s) := freshId s
      .ok () (postPlain s (((smGet none s.ctxs ctx).map (·.jobkey)).getD 0, 0) n true (byteAccs loc (bs.map (fun b => (b, none)))))
    else .ok () (wrBytes s coh loc bs none)

/-- The barrier word that a fault record's write would hit (R251). -/
def ringBar (s : State) (ctx core : Nat) (va : Word) : Option Nat :=
  match sysLoc s ctx core .wr va with
  | .ok (loc, _, _) _ => liveIn s loc 32
  | _ => none

/-- A fault record's write goes to a granary switch: the write is the context's and carries no group, so that a switch that answers
refuses and logs it, and a lost one does not answer (R101, R305). -/
def ringSwitch (s : State) (ctx core : Nat) (va : Word) : Option Nat :=
  match sysLoc s ctx core .wr va with
  | .ok (loc, _, _) _ => if locClass loc = 2 ∧ 240 ≤ nodeOf loc then some loc else none
  | _ => none

/-- Write a fault record; in a live barrier word, or at a switch, the write fails (R251, R305). -/
def ringWrite (s : State) (ctx core : Nat) (va : Word) (bs : List Byte) : SysRes Unit :=
  match ringBar s ctx core va, ringSwitch s ctx core va with
  | some _, _ => .perm s
  | none, some loc => .perm (if deadSwitch s loc then s else logRefused s (nodeOf loc - 240) loc)
  | none, none => sysWrite s ctx core va bs

/-- A fault record's write that hits a live barrier word sets that barrier's error bit (R251). -/
def ringHit (s : State) (ctx core : Nat) (va : Word) : State :=
  match (ringBar s ctx core va).bind barFile with
  | some (c, pb, _) => barStep s c pb (fun b => { b with err := true })
  | none => s

/-- Append one held record to its context's ring (R105); none when the ring is full or the write fails. -/
def appendOne (s : State) (c : Ctx) (f : FaultRec) : Option State × State :=
  let r := ringOf s f.ctx
  if 2 ^ c.frlog ≤ (r.fprod - r.fcons).toNat then (none, s)
  else
    match ringWrite s f.ctx f.core (c.fring + wd (32 * (r.fprod.toNat % 2 ^ c.frlog))) (faultBytes f) with
    | .ok _ s =>
      let s := { s with faults := s.faults.map (fun g => if g.id = f.id then { g with idx := some r.fprod } else g) }
      let first := r.fprod = r.fcons
      let s := putRing s f.ctx ⟨r.fprod + 1, r.fcons, false, 0, if first then s.time else r.since⟩
      (some (if first then raiseMsi s c.fvec else s), s)
    | .bad _ _ _ t | .perm t =>
      let s := ringHit t f.ctx f.core (c.fring + wd (32 * (r.fprod.toNat % 2 ^ c.frlog)))
      let s := if r.failing then s else logKind8 s 6 (wd f.ctx)
      (none, putRing s f.ctx { r with failing := true, tried := s.time })

/-- Append the held records of a context in ESEQ order, as far as the ring takes them (R105). -/
def appendList (c : Ctx) : List FaultRec → State → State
  | [], s => s
  | f :: r, s =>
    match appendOne s c f with
    | (some s, _) => appendList c r s
    | (none, s) => s

/-- Try to append every held record of a context (R105). -/
def appendFaults (s : State) (ctx : Nat) : State :=
  match smGet none s.ctxs ctx with
  | none => s
  | some c => appendList c (s.faults.filter (fun f => f.ctx == ctx && f.idx.isNone && f.fate == 0)) s

/-- A translation fault is recorded (R104), after the errors that its walk detected: the record's number and the state with
it appended or held. -/
def newFault (s : State) (w : Who) (f : FaultRec) : Nat × State :=
  let (n, s) := freshId (walkRead s w f.va)
  let s := { s with faults := s.faults ++ [{ f with id := n, eseq := s.eseq }] }
  (n, appendFaults s f.ctx)

/-- A sheaf's or engine program's access parks its slot (R104, R265); ACC bits [4:0] as given. -/
def parkSlot (s : State) (acc : Nat) (va : Word) (kind level : Nat) (entry mask : Word) (tinfo : Word := 0) : State :=
  let a := s.cur
  let src := match a.kind with
    | .matSeq => 2
    | .copySeq => 1
    | _ => 0
  let (n, s) := newFault s (whoOf a)
    { id := 0, ctx := a.k.ctx, va := va, eseq := 0, entry := entry, kind := kind, level := level,
      acc := acc + (if a.kind = .sheaf then 0 else 8) + (if a.priv then 0 else 32), src := src,
      slot := if src = 0 then a.slotNo else 0, core := a.core, owner := .slot a.id s.slot, mask := mask, tinfo := tinfo,
      idx := none, fate := 0 }
  setSlot s { slotOf s with wait := .parked n }

/-- The ACC read, write and atomic bits of R104.
Log 102: DEDUCED. -/
def accBits : AccKind → Nat
  | .rd => 1
  | .wr => 2
  | .at => 4

/-! ### Loads and stores (R112, R126, R269 to R275) -/

/-- The key of a sector in a core's L1. From core 128 on stand the sectors that a core goes on reading as they were although newer
writes, which nothing orders before its reads, have been performed (R278). -/
def l1Key (core sec : Nat) : Nat := core * 2 ^ 60 + sec

/-- What a core's reads get of a sector from an older copy: the one it goes on reading, or its L1's (R95, R278).
Log 111: DESIGN CHOICE. -/
def olderCopy (s : State) (core k : Nat) : Option Sector :=
  (smGet none s.l1 (l1Key (core + 128) k)).orElse (fun _ => smGet none s.l1 (l1Key core k))

/-- Every core reads what is current again: something orders writes before reads (R276, R278). -/
def dropLags (s : State) : State := { s with l1 := smDrop s.l1 (l1Key 128 0) (l1Key 256 0) }

/-- Whether the next plain access is left in flight, or an L1 keeps a line: the state's own choices.
Log 5: DESIGN CHOICE. -/
def popDefer (s : State) : Bool × State := (s.defer.headD false, { s with defer := s.defer.tail })

/-- A core's L1 drops a sector, and its reads are current again. -/
def l1Drop (s : State) (core k : Nat) : State :=
  { s with l1 := smPut none (smPut none s.l1 (l1Key core k) none) (l1Key (core + 128) k) none }

/-- The L1s of a core's cluster drop a sector. -/
def l1DropCluster (s : State) (core k : Nat) : State :=
  (List.range 8).foldl (fun s j => l1Drop s (8 * clusterOf core + j) k) s

/-- An acquire at CORE scope or wider invalidates the core's L1 lines (R125, R271). -/
def invalidateL1 (s : State) (core : Nat) : State :=
  { s with l1 := smDrop s.l1 (l1Key core 0) (l1Key (core + 1) 0) }

/-- The coherent caches take a sector, its home array being read (R95, R98). -/
def fillCached (s : State) (k : Nat) : State :=
  if 1 < locClass (32 * k) ∨ (smGet none s.cached k).isSome = true then s
  else
    let s := eccRead s true (32 * k) 32
    { s with cached := smPut none s.cached k (some (rdSector s true k)) }

/-- A pinned page's lines are filled as they are touched (R97). -/
def pinFill (s : State) (coh : Bool) (k : Nat) : State := if coh && pinnedSec s k then fillCached s k else s

/-- The L2 line of a sector accessed with the non-temporal hint is the first to be evicted (R95). -/
def markFirst (s : State) (a : Acc) : State :=
  if a.nt && a.coh && (smGet none s.cached (a.loc / 32)).isSome then
    { s with evictFirst := (a.loc / 32) :: s.evictFirst.filter (fun k => k ≠ a.loc / 32 && (smGet none s.cached k).isSome) }
  else s

/-- The value and poison a load or atomic's read half gets (R90, R95): an older copy serves it where there is one (R278). A read
that none serves leaves none behind it (R273), and with the non-temporal hint none is made. -/
def readAcc (s : State) (core : Nat) (a : Acc) : Word × Option (BitVec 12) × State :=
  match (if a.l1 then olderCopy s core (a.loc / 32) else none) with
  | some c => (wd (fld (c.data.toNat / 2 ^ (8 * (a.loc % 32))) (8 * a.size - 1) 0), if a.pr then some 0xD80 else c.tag, s)
  | none =>
    let s := pinFill (eccRead s a.coh a.loc a.size) a.coh (a.loc / 32)
    let v := wd (leNat (rdBytes s a.coh a.loc a.size))
    let t := if a.pr then some 0xD80 else rdTags s a.coh a.loc a.size
    let (keep, s) := if a.l1 && !a.nt then popDefer s else (false, markFirst s a)
    (v, t, if keep then { s with l1 := smPut none s.l1 (l1Key core (a.loc / 32)) (some (rdSector s a.coh (a.loc / 32))) }
      else l1Drop s core (a.loc / 32))

/-- A store of 1 to 8 bytes is performed at its home, the core's own L1 copy with it (R95, R394). -/
def writeAcc (s : State) (core : Nat) (a : Acc) : State :=
  let bs := leBytes a.size a.data.toNat
  let s := markFirst (wrSector (eccRead s a.coh a.loc a.size) a.coh a.loc bs none) a
  let s := { s with l1 := smPut none s.l1 (l1Key (core + 128) (a.loc / 32)) none }
  match smGet none s.l1 (l1Key core (a.loc / 32)) with
  | some c => { s with l1 := smPut none s.l1 (l1Key core (a.loc / 32)) (some { c with data := secBytes c.data (a.loc % 32) bs }) }
  | none => s

/-- A lane of a vector load as its register takes it (R115). -/
def extendLane (size : Nat) (signed : Bool) (v : Word) : Lane :=
  if size = 1 then (if signed then (v.setWidth 8).signExtend 32 else (v.setWidth 8).setWidth 32)
  else if size = 2 then (if signed then (v.setWidth 16).signExtend 32 else (v.setWidth 16).setWidth 32)
  else v.setWidth 32

/-- Write returned data to its destination in an agent. -/
def putDest (a : Agent) (d : Dest) (vals : List (Nat × Word)) : Agent :=
  match d with
  | .none => a
  | .sreg n => putSA a n ((vals.head?.map (·.2)).getD 0)
  | .vreg n size signed =>
    vals.foldl (fun a p => if size = 8 then putV2A a n p.1 p.2 else putVA a n p.1 (extendLane size signed p.2)) a

/-- The registers of a destination: V, then S.
Log 109: DESIGN CHOICE. -/
def destRegs : Dest → List Nat × List Nat
  | .none => ([], [])
  | .sreg n => ([], if n = 0 then [] else [n])
  | .vreg n size _ => (if size = 8 then [n, n + 1] else [n], [])

/-- A lane's result: lane, address, value and poison. -/
abbrev LaneVal := Nat × Word × Word × Option (BitVec 12)

/-- Some lane's data are poisoned. -/
def poisoned (vals : List LaneVal) : Bool := vals.any (fun p => p.2.2.2.isSome)

/-- Poisoned data raise POISON before a register that they were to fill is read (R111); data that fill none raise none.
Log 109: DESIGN CHOICE. -/
def trapsLater (d : Dest) (vals : List LaneVal) : Bool :=
  poisoned vals && !((destRegs d).1.isEmpty && (destRegs d).2.isEmpty)

/-- Data returns to an agent: the destinations are written, or a POISON trap becomes pending on the slot
(R111). -/
def deliver (s : State) (agent : Nat) (sec : Bool) (d : Dest) (vals : List LaneVal) : State :=
  if trapsLater d vals then
    let l := vals.filter (fun p => p.2.2.2.isSome)
    let tag := l.foldl (fun t q => minTag t q.2.2.2) none
    let scalar := match d with
      | .vreg _ _ _ => false
      | _ => true
    let (vs, ss) := destRegs d
    updAgent s agent (fun a =>
      let x := getSlot a sec
      putSlot a sec { x with poison := x.poison ++
        [⟨vs, ss, ((l.head?.map (·.2.1)).getD 0), if scalar then 0 else maskList (l.map (·.1)), tag.getD 0⟩] })
  else updAgent s agent (fun a => putDest a d (vals.map (fun p => (p.1, p.2.2.1))))

/-- A load or atomic whose data return as it issues; with poisoned data it stays in its count until its trap (R126). -/
def deliverNow (s : State) (d : Dest) (vals : List LaneVal) : State :=
  deliver (if trapsLater d vals then countUp s .ld else s) s.cur.id s.slot d vals

/-- Read every access of a load and deliver the data (R113, R115). -/
def loadAll (s : State) (core : Nat) : List Acc → List LaneVal × State
  | [] => ([], s)
  | a :: r =>
    let (v, t, s) := readAcc s core a
    let (l, s) := loadAll s core r
    ((a.lane, a.va, v, t) :: l, s)

/-- The sectors that a store's lanes cover whole together. -/
def wholeSectors (l : List Acc) : List (Nat × Bool) :=
  l.filterMap (fun a =>
    if a.loc % 32 = 0 && (List.range 32).all (fun j => l.any (fun b => b.coh == a.coh && decide (b.loc ≤ a.loc + j) && decide (a.loc + j < b.loc + b.size)))
    then some (a.loc / 32, a.coh) else none)

/-- A sector about to be written whole loses its poison and its errors unread, in the core's L1 too (R98, R394). -/
def cleanSector (s : State) (core k : Nat) (coh : Bool) : State :=
  let s : State :=
    if coh then
      { s with cached := smPut none s.cached k (some { rdSector s true k with tag := none, dirty := true }), latent := smPut 0 s.latent (copyErr k) 0 }
    else
      let s := if locClass (32 * k) = 1 then writeBack s k else s
      { s with latent := smPut 0 s.latent k 0, poison := smPut none s.poison k none }
  match smGet none s.l1 (l1Key core k) with
  | some c => { s with l1 := smPut none s.l1 (l1Key core k) (some { c with tag := none }) }
  | none => s

/-- A store with the non-temporal hint takes no cluster cache line: one to host memory that no cache holds goes to the host
(R95, R99). -/
def ntView (s : State) (a : Acc) : Acc :=
  if a.nt && locClass a.loc = 1 && (smGet none s.cached (a.loc / 32)).isNone then { a with coh := false } else a

/-- Perform every access of a store, in ascending lane order (R112). -/
def storeAll (s : State) (core : Nat) (l : List Acc) : State :=
  let l := l.map (ntView s)
  l.foldl (fun s a => writeAcc s core a) ((wholeSectors l).foldl (fun s p => cleanSector s core p.1 p.2) s)

/-- The registers a request's data will write are pending on the scoreboard. -/
def pend (s : State) (d : Dest) : State :=
  let (vs, ss) := destRegs d
  onCur s (fun a => { a with vPend := vs ++ a.vPend, sPend := ss ++ a.sPend })

/-- Remove one occurrence of each of some numbers. -/
def eraseAll (l r : List Nat) : List Nat := r.foldl (fun l n => l.erase n) l

/-- The registers of a request are released from the scoreboard. -/
def unpend (s : State) (agent : Nat) (d : Dest) : State :=
  let (vs, ss) := destRegs d
  updAgent s agent (fun a => { a with vPend := eraseAll a.vPend vs, sPend := eraseAll a.sPend ss })

/-- Drop a request. -/
def dropReq (s : State) (id : Nat) : State := { s with reqs := s.reqs.filter (fun r => r.id ≠ id) }

/-- The core of an agent. -/
def coreOf (s : State) (agent : Nat) : Nat := ((findAgent s agent).map (·.core)).getD 0

/-- The home is another node of the fabric (R82), or a peer's window (R309, the model's class 6): the access is a
request to it. -/
def isRemote (a : Acc) : Bool := locClass a.loc = 2 || locClass a.loc = 6

/-- The request counts in the stores class (R126). -/
def isStoreOp : ReqOp → Bool
  | .store => true
  | .reduce _ => true
  | .sketch _ _ _ => true
  | _ => false

/-- What has come back for a lane of a request. -/
def gotLane (r : Req) (lane : Nat) : Option (Word × Option (BitVec 12)) := (r.got.find? (·.1 == lane)).map (·.2)

/-- The accesses of a request that this device itself performs and has not performed. -/
def localLeft (r : Req) : List Acc := r.accs.filter (fun a => !isRemote a && (gotLane r a.lane).isNone)

/-- A plain load's or store's accesses here, which may be performed at any time. -/
def plainOp : ReqOp → Bool
  | .load => true
  | .store => true
  | _ => false

/-- The accesses of a request that must come back: another node's, and those a service performs. -/
def waitingAccs (r : Req) : List Acc :=
  r.accs.filter (fun a => (isRemote a || !plainOp r.op) && (gotLane r a.lane).isNone)

/-- A request whose every lane is in completes (R126): the data go to their destinations; the POISON trap of poisoned data
keeps it in its count; an LDAQ at CORE or wider invalidates the L1 again (R114, R271). -/
def finishReq (s : State) (r : Req) : State :=
  let s := dropReq s r.id
  let s := if r.acq.any (fun c => decide (2 ≤ c)) then invalidateL1 s r.core else s
  if isStoreOp r.op then countDown s r.agent .st
  else
    let vals := r.accs.map (fun a => (a.lane, a.va, (gotLane r a.lane).getD (0, none)))
    let s := deliver (unpend s r.agent r.dest) r.agent r.secondary r.dest vals
    if trapsLater r.dest vals then s else countDown s r.agent .ld

/-- Replace a request by what it has become, or complete it. -/
def progress (s : State) (r : Req) : State :=
  if r.accs.all (fun a => (gotLane r a.lane).isSome) then finishReq s r
  else { s with reqs := s.reqs.map (fun q => if q.id = r.id then r else q) }

/-- Two accesses share a byte. -/
def overlaps (a b : Acc) : Bool := decide (a.loc < b.loc + b.size) && decide (b.loc < a.loc + a.size)

/-- The lanes that satisfy a test, and the lower lanes that share a byte with one of them (R112). -/
def withLower (f : Acc → Bool) : List Acc → List Acc
  | [] => []
  | a :: r => let l := withLower f r
    if f a || l.any (overlaps a) then a :: l else l

/-- The scope at which a lane's store is performed while it is in flight (R271, R275): each by its own page. -/
def laneLevel (r : Req) (a : Acc) : Nat := if a.ord = 2 then r.levelU else r.level

/-- A store whose lanes cover a sector whole is performed one lane at a time: with the last of them the sector has been written
whole (R98, R394). -/
def wholeNow (s : State) (r : Req) (now : List Acc) (done : Acc → Bool) : State :=
  (wholeSectors (r.accs.filter (fun a => !isRemote a))).foldl (fun s p =>
    let mine := r.accs.filter (fun a => !isRemote a && a.loc / 32 == p.1 && a.coh == p.2)
    if now.any (fun a => mine.any (fun b => b.lane == a.lane)) && mine.all done then cleanSector s r.core p.1 p.2 else s) s

/-- Perform the local lanes of a plain request that satisfy a test, in ascending order: the request after it, and the state. A
store that its cluster sees already leaves no older copy in the cluster's L1s (R271). -/
def doLanes (s : State) (r : Req) (f : Acc → Bool) : Req × State :=
  match r.op with
  | .store =>
    let now := withLower f (localLeft r)
    let r := { r with got := r.got ++ now.map (fun a => (a.lane, 0, none)) }
    let s := wholeNow (storeAll s r.core now) r now (fun a => (gotLane r a.lane).isSome)
    (r, now.foldl (fun s a => if laneLevel r a < 3 then s else l1DropCluster s r.core (a.loc / 32)) s)
  | .load =>
    let (l, s) := loadAll s r.core ((localLeft r).filter f)
    ({ r with got := r.got ++ l.map (fun p => (p.1, p.2.2)) }, s)
  | _ => (r, s)

/-- Perform lanes of a request, and complete it where nothing is left. -/
def performLanes (f : Acc → Bool) (s : State) (r : Req) : State :=
  let (r, s) := doLanes s r f
  progress s r

/-! ### Parties and scopes (R269, R271) -/

/-- A party's place in the scopes (R269): its sheaf or program, its stook and its core. -/
structure Seat where
  agent : Nat
  stook : Nat
  core : Nat
deriving DecidableEq, Repr

/-- The place of an agent. -/
def seatOf (a : Agent) : Seat := ⟨a.id, a.stook, a.core⟩

/-- One instance of a scope holds both parties (R269): SHEAF, STOOK, CORE, CLUSTER; every party of this device is in one
instance of the wider scopes.
Log 107: DEDUCED. -/
def sameScope (sc : Nat) (x y : Seat) : Bool :=
  match sc with
  | 0 => x.agent == y.agent
  | 1 => x.agent == y.agent || x.stook == y.stook
  | 2 => x.core == y.core
  | 3 => clusterOf x.core == clusterOf y.core
  | _ => true

/-- A lane of a request is performed for a party while it is in flight (R271): the issuer's own, or a store at a scope whose
instance holds both. -/
def seesLane (x : Seat) (r : Req) (a : Acc) : Bool :=
  r.agent == x.agent || (isStoreOp r.op && decide (0 < laneLevel r a) && sameScope (laneLevel r a) ⟨r.agent, r.stook, r.core⟩ x)

/-- Some lane of a request is performed for a party while it is in flight. -/
def seenBy (x : Seat) (r : Req) : Bool := r.agent == x.agent || r.accs.any (seesLane x r)

/-- Perform the local lanes that a party sees and that satisfy a test, of the requests in flight, oldest first. -/
def drainSeen (s : State) (x : Seat) (f : Acc → Bool) : State :=
  (s.reqs.filter (seenBy x)).foldl (fun s r => performLanes (fun a => f a && seesLane x r a) s r) s

/-- Perform what the agent in focus sees in flight and new accesses follow: what shares a byte with them (R112, R271, R273), and
STRONG lanes before a STRONG access (R274). -/
def drainOverlap (s : State) (l : List Acc) : State :=
  drainSeen s (seatOf s.cur) (fun a => l.any (overlaps a) || (a.ord = 1 && l.any (fun b => b.ord = 1)))

/-- A location of a plane-space byte: in a plane store, among the tile slots' headers and bitmaps in core SRAM, or nowhere (R94). -/
def planeSpace (loc : Nat) : Bool :=
  locClass loc = 4 || locClass loc = 5 || (locClass loc = 3 && decide (0x77000 ≤ loc % 2 ^ 19))

/-- A new access must wait: for an acquire of its agent that is in flight (R114); for a request that another node or a
service must answer, to the same bytes (R112, R271), or STRONG before a STRONG one (R274); and a plane-space access for the
remap in progress (R229). -/
def mustWait (s : State) (l : List Acc) : Bool :=
  (s.remap.isSome && l.any (fun a => planeSpace a.loc)) ||
  s.reqs.any (fun r =>
    (r.agent == s.cur.id && (r.acq.isSome || (waitingAccs r).any (fun a => a.ord = 1 && l.any (fun b => b.ord = 1)))) ||
    (waitingAccs r).any (fun a => seesLane (seatOf s.cur) r a && l.any (overlaps a)))

/-- A request of the agent in focus, with what has come back at once. -/
def newReq (s : State) (id : Nat) (op : ReqOp) (d : Dest) (l : List Acc) (remote vec : Bool)
    (got : List (Nat × Word × Option (BitVec 12))) : Req :=
  { id := id, agent := s.cur.id, stook := s.cur.stook, core := s.cur.core, secondary := s.slot, op := op, dest := d, accs := l,
    remote := remote, acq := none, vec := vec, level := 0, levelU := 0, stamp := s.epoch, since := s.time, got := got }

/-- Put a request of the agent in focus in flight. -/
def sendReq (s : State) (op : ReqOp) (d : Dest) (l : List Acc) (vec : Bool) (acq : Option Nat)
    (got : List (Nat × Word × Option (BitVec 12))) : State :=
  let (n, s) := freshId s
  let r := { newReq s n op d l (l.any isRemote) vec got with acq := acq }
  let s := pend (countUp s (if isStoreOp op then .st else .ld)) d
  postPlain { s with reqs := s.reqs ++ [r] } s.cur.k.badge n (isStoreOp op) (l.filter isRemote)

/-- Which of an access list are performed as they issue: the local ones, unless they are left in flight (R126, R128, R274, R275). -/
def atIssue (later : Bool) (l : List Acc) : List Acc := l.filter (fun a => !isRemote a && !later)

/-- Whether the local accesses of an instruction are left in flight: a choice where there are some. -/
def chooseLater (s : State) (l : List Acc) : Bool × State := if l.any (fun a => !isRemote a) then popDefer s else (false, s)

/-- A load that has passed its checks (R126): its lanes are read now, left in flight, or sent, each by its own page (R275);
`acq` is the scope of an LDAQ, which is read at once where it is local. -/
def issueLoad (s : State) (d : Dest) (l : List Acc) (acq : Option Nat) : State :=
  let s := drainOverlap s l
  let (later, s) := if acq.isSome then (false, s) else chooseLater s l
  let now := atIssue later l
  let (vals, s) := loadAll s s.cur.core now
  let vec := match d with
    | .vreg _ _ _ => true
    | _ => false
  if now.length = l.length then deliverNow s d vals
  else sendReq s .load d l vec acq (vals.map (fun p => (p.1, p.2.2)))

/-- A store that has passed its checks (R126): its lanes are performed now, left in flight, or sent, each by its own page
(R275); a release's own store is performed at once where it is local. -/
def issueStore (s : State) (l : List Acc) (vec release : Bool) : State :=
  let s := drainOverlap s l
  let (later, s) := if release then (false, s) else chooseLater s l
  let now := atIssue later l
  let s := storeAll s s.cur.core now
  if now.length = l.length then s else sendReq s .store .none l vec none (now.map (fun a => (a.lane, 0, none)))

/-! ### Fetch (R44, R89, R150) -/

/-- What a fetch answers: the word, or that the page cannot be fetched from.
Log 54: DEDUCED.
Log 101: DEDUCED. -/
def fetchWord (s : State) (va : Word) : Option (Nat × State) :=
  let w := whoOf s.cur
  if canonical va = false then none
  else match translate s w va with
    | .bad _ _ _ => none
    | .ok pg pa new =>
      match pinTake s.pins w.ctx va pg with
      | none => none
      | some pins =>
        let loc := pageLoc s pg pa
        if (w.priv || pg.u) && pg.x && locClass loc = 0 && smGet false s.measured (loc / 65536) then
          some (leNat (rdBytes s (pageCoh pg pa) loc 4),
            pinFill (eccRead (tlbLearn { walkRead s w va with pins := pins } new) (pageCoh pg pa) loc 4) (pageCoh pg pa) (loc / 32))
        else none

end Sys2Proof.Machine
end

