-- ==== Sys2Proof/Machine/LoadStore.lean ====
section
/-!
DEFINITION. Loads, stores, prefetch, WAIT and FENCE (05 R113 to R117, R125, R127), and what a release or fence
orders before it (16 R271, R277).
-/
namespace Sys2Proof.Machine

open Sys2Proof

/-- A trap of the instruction in issue at its own address. -/
def trapAt (s : State) (cause : Nat) (taddr tinfo mask : Word) : Issue := .trap ⟨cause, pcOf s, taddr, tinfo, mask⟩

/-- A precise trap after an instruction's walks: the errors that the walks detected stay detected (R98). -/
def keepWalk (s t : State) : Issue → Issue
  | .trap x => if s.latent.isEmpty then .trap x else .after t x
  | r => r

/-- The accesses of a memory instruction through the checks of R110: what follows runs on the checked accesses,
or the instruction traps, or parks at a translation fault (R104), or waits behind a request of its own. -/
def access (s : State) (k : AccKind) (size align : Nat) (vec : Bool) (l : List (Nat × Word × Word × Word))
    (f : List (Acc × Page) → State → Issue) (lim : Acc → Bool := fun _ => true) : Issue :=
  let m : Word → Word := fun x => if vec then x else 0
  match checkAccs s (whoOf s.cur) k size align l lim with
  | .trap c a x t => keepWalk s t (trapAt s c a 0 (m x))
  | .fault va kd lv e x t => .done (parkSlot t (accBits k) va kd lv e (m x))
  | .ok accs s' => if mustWait s' (accs.map (·.1)) then .stall else keepWalk s s' (f accs s')

/-- Step 6 of R110, then the access itself. -/
def afterLost (s : State) (vec : Bool) (accs : List (Acc × Page)) (f : List Acc → Issue) : Issue :=
  match checkLost s accs with
  | some (a, x) => trapAt s XLOST a 0 (if vec then x else 0)
  | none => f (accs.map (·.1))

/-- A scalar load (R113). -/
def scalarLoad (s : State) (size : Nat) (va : Word) (d : Nat) : Issue :=
  access s .rd size size false [(0, va, 0, 0)] (fun accs t =>
    afterLost t false accs (fun l => .done (advance (issueLoad t (.sreg d) l none))))

/-- A scalar store (R113). -/
def scalarStore (s : State) (size : Nat) (va x : Word) : Issue :=
  access s .wr size size false [(0, va, x, 0)] (fun accs t =>
    afterLost t false accs (fun l => .done (advance (issueStore t l false false))))

/-- LDS (R113). -/
def execLds (d a z : Nat) (o : Int) (s : State) : Out :=
  run (.lds d a z o) { sr := [a], sw := [d], cls := some .ld } (fun s => scalarLoad s (2 ^ z) (getS s a + wi o) d) s

/-- STS (R113). -/
def execSts (d a z : Nat) (o : Int) (s : State) : Out :=
  run (.sts d a z o) { sr := [a, d], cls := some .st } (fun s => scalarStore s (2 ^ z) (getS s a + wi o) (getS s d)) s

/-- The access size of Form P (R113). -/
def wSize (w : Nat) : Nat := if w = 0 then 4 else 8

/-- An acquire at CORE or wider invalidates the L1 (R114, R271). -/
def acquireAt (s : State) (sc : Nat) : State := if 2 ≤ sc then invalidateL1 s s.cur.core else s

/-- LDAQ (R113, R114): performed before any later access of its slot; the L1 is invalidated at CORE or wider. -/
def execLdaq (d a c w : Nat) (o : Int) (s : State) : Out :=
  run (.ldaq d a c w o) { sr := [a], sw := [d], cls := some .ld }
    (fun s =>
      let size := wSize w
      access s .rd size size false [(0, getS s a + wi (o * size), 0, 0)] (fun accs t =>
        afterLost t false accs (fun l => .done (advance (issueLoad (acquireAt t c) (.sreg d) l (some c)))))) s

/-- The request holds back a release or fence of the agent in focus at a scope (R114, R125, R271, R277): a load or atomic of
its own until its data are in; a remote store that it sees, from GROUP scope on, until it has reached its home; a counter
step of its own, which is an atomic (R247). UNORD accesses are held by kind U alone. -/
def holdsBack (s : State) (sc : Nat) (stores unord : Bool) (r : Req) : Bool :=
  decide (1 ≤ sc) && (waitingAccs r).any (fun a => (unord || a.ord ≠ 2) &&
  (match r.op with
   | .store => stores && decide (5 ≤ sc) && seesLane (seatOf s.cur) r a
   | .reduce _ => stores && decide (5 ≤ sc) && seesLane (seatOf s.cur) r a
   | _ => r.agent == s.cur.id))

/-- What a release or fence orders before it can be performed now. -/
def canOrder (s : State) (sc : Nat) (stores unord : Bool) : Bool := !s.reqs.any (holdsBack s sc stores unord)

/-- Where a store is performed at a scope (R271): from DEVICE on in its home or the coherent caches; at CLUSTER there too where
the cluster cache never holds it; below, on the way there. -/
def performedHome (sc : Nat) (a : Acc) : Bool := decide (4 ≤ sc) || (sc = 3 && !a.coh)

/-- A release or fence performs at its scope a request that it orders (R114, R125, R271, R277): its own loads, and the stores
that it sees. -/
def orderReq (x : Seat) (sc : Nat) (stores unord : Bool) (s : State) (r : Req) : State :=
  let f : Acc → Bool := fun a => (unord || a.ord ≠ 2) && seesLane x r a
  if r.accs.any f = false then s
  else if isStoreOp r.op then
    if stores then performLanes (fun a => f a && performedHome sc a) s
      { r with level := max r.level sc, levelU := if unord then max r.levelU sc else r.levelU }
    else s
  else performLanes f s r

/-- Perform at a scope what a release or fence orders before it. -/
def order (s : State) (sc : Nat) (stores unord : Bool) : State :=
  if sc = 0 then s else s.reqs.foldl (orderReq (seatOf s.cur) sc stores unord) s

/-- STRL (R113, R114): every earlier access of the sheaf, but to UNORD pages, is performed at its scope first. -/
def execStrl (d a c w : Nat) (o : Int) (s : State) : Out :=
  run (.strl d a c w o) { sr := [a, d], cls := some .st }
    (fun s =>
      let size := wSize w
      access s .wr size size false [(0, getS s a + wi (o * size), getS s d, 0)] (fun accs t =>
        if canOrder t c true false = false then .stall
        else
          let t := order t c true false
          afterLost t false accs (fun l => .done (advance (issueStore t l false true))))) s

/-! ### Vector loads and stores (R115, R116) -/

/-- The lane addresses of LDC and STC (R115). -/
def contigAddr (s : State) (a : Nat) (o : Int) (size l : Nat) : Word :=
  getS s a + wi (o * (wOf s * size : Nat)) + wd (l * size)

/-- The lane addresses of LDV and STV (R115). -/
def indexedAddr (s : State) (a b l : Nat) : Word := getS s a + (getV s b l).setWidth 64

/-- The signed element types that extend a narrow load (R115). -/
def signExt (et : Nat) : Bool := et = 0 || et = 2 || et = 4 || et = 6

/-- The accesses of an instruction with the non-temporal hint. -/
def withHint (nt : Bool) (l : List Acc) : List Acc := l.map (fun a => { a with nt := nt })

/-- A vector load (R115); with the non-temporal hint no line is allocated (R95). -/
def vecLoad (i : Instr) (d size : Nat) (nt : Bool) (addr : State → Nat → Word) (s : State) : Issue :=
  if size = 8 ∧ d % 2 = 1 then illegal s i
  else
    match activeLanes s with
    | [] => .done (advance s)
    | act =>
      access s .rd size size true (act.map (fun l => (l, addr s l, 0, 0))) (fun accs t =>
        afterLost t true accs (fun l =>
          .done (advance (issueLoad t (.vreg d size (signExt (etOf t))) (withHint nt l) none))))

/-- The low s bytes a lane of a vector store writes (R115). -/
def storeData (s : State) (d size l : Nat) : Word := if size = 8 then getV2 s d l else (getV s d l).setWidth 64

/-- Replace a stored element's register form in the data a lane stores. -/
def storeForm (s : State) (d size et l : Nat) (x : Word) : Word :=
  if is64 et then x else if size = 8 then (getV s (d + 1) l) ++ x.setWidth 32 else x

/-- The bound check of a vector store (R116, R233): the data to store, the out-of-range lanes, and the entry.
Log 90: DEDUCED. -/
def boundCheck (s : State) (d size bx : Nat) (act : List Nat) : List (Nat × Word) × List Nat × Bound :=
  let et := etOf s
  let e := boundGet s s.cur.core bx
  let val := fun l => elemB et (rawV s et d l)
  let outs := if e.act = 0 then [] else act.filter (fun l => outOfRange (val l) e)
  (act.map (fun l =>
    (l, if e.act = 2 && outs.contains l then
          match clampTo et (val l) e with
          | some x => storeForm s d size et l x
          | none => storeData s d size l
        else storeData s d size l)), outs, e)

/-- A vector store with its bound check between steps 4 and 6 of R110 (R116); its
BOUND trap keeps the count and the flag: log 90. With the non-temporal hint no cluster cache line is allocated (R95). -/
def vecStore (i : Instr) (d size : Nat) (nt : Bool) (addr : State → Nat → Word) (s : State) : Issue :=
  let et := etOf s
  let bx := if bndOf s then bxOf s else 0
  if (size = 8 ∨ (bx ≠ 0 ∧ is64 et = true)) ∧ d % 2 = 1 then illegal s i
  else
    match activeLanes s with
    | [] => .done (advance s)
    | act =>
      let (vals, outs, e) := if bx = 0 then (act.map (fun l => (l, storeData s d size l)), [], Bound.zero)
        else boundCheck s d size bx act
      access s .wr size size true (vals.map (fun p => (p.1, addr s p.1, p.2, 0))) (fun accs t =>
        let t := if outs = [] then t
          else setFlags (boundPut t t.cur.core bx { e with cnt := cntAdd e.cnt outs.length }) fBNDF
        if outs ≠ [] ∧ e.act = 3 then
          .after t ⟨BOUND, pcOf s, addr s (outs.headD 0), wd bx, maskList outs⟩
        else afterLost t true accs (fun l => .done (advance (issueStore t (withHint nt l) true false))))

/-- The registers a vector access moves (R115), with those its bound check reads. -/
def moveRegs (s : State) (store : Bool) (d size : Nat) : List Nat :=
  if size = 8 ∨ (store = true ∧ bndOf s = true ∧ bxOf s ≠ 0 ∧ is64 (etOf s) = true) then [d, d + 1] else [d]

/-- LDC (R115). -/
def execLdc (d a : Nat) (o : Int) (z : Nat) (s : State) : Out :=
  run (.ldc d a o z) { sr := [a], vw := moveRegs s false d (2 ^ z), cls := some .ld }
    (vecLoad (.ldc d a o z) d (2 ^ z) false (fun s l => contigAddr s a o (2 ^ z) l)) s

/-- STC (R115, R116). -/
def execStc (d a : Nat) (o : Int) (z : Nat) (s : State) : Out :=
  run (.stc d a o z) { sr := [a], vr := moveRegs s true d (2 ^ z), cls := some .st }
    (vecStore (.stc d a o z) d (2 ^ z) false (fun s l => contigAddr s a o (2 ^ z) l)) s

/-- LDV (R115); h is the non-temporal hint (R95). -/
def execLdv (d b a z h : Nat) (s : State) : Out :=
  run (.ldv d b a z h) { sr := [a], vr := [b], vw := moveRegs s false d (2 ^ z), cls := some .ld }
    (vecLoad (.ldv d b a z h) d (2 ^ z) (h = 1) (fun s l => indexedAddr s a b l)) s

/-- STV (R115, R116); h is the non-temporal hint (R95). -/
def execStv (d b a z h : Nat) (s : State) : Out :=
  run (.stv d b a z h) { sr := [a], vr := b :: moveRegs s true d (2 ^ z), cls := some .st }
    (vecStore (.stv d b a z h) d (2 ^ z) (h = 1) (fun s l => indexedAddr s a b l)) s

/-- The sectors of the line of a location (R95). -/
def lineSecs (loc : Nat) : List Nat := (List.range 4).map (fun j => loc / 128 * 4 + j)

/-- A core's L1 takes a sector, as the coherent view has it (R95). -/
def fillL1 (s : State) (core k : Nat) : State :=
  let s := eccRead s true (32 * k) 32
  { s with l1 := smPut none s.l1 (l1Key core k) (some (rdSector s true k)) }

/-- The line that a prefetch asks for is brought in, or not, as the part chooses (R117): it is present and permitted, and the
level can hold the page (R95): L1 not a STRONG one, the L2 slice only HBM4's. -/
def prefetch (s : State) (level : Nat) (va : Word) : State :=
  match checkAccs s (whoOf s.cur) .rd 1 1 [(0, va, 0, 0)] with
  | .ok [(a, _)] t =>
    if a.coh && (level ≠ 0 || a.l1) && (level ≠ 2 || locClass a.loc = 0) then
      let (bring, t) := popDefer t
      if bring then (lineSecs a.loc).foldl (fun t k => if level = 0 then fillL1 t t.cur.core k else fillCached t k) t else t
    else t
  | .ok _ t => t
  | .trap _ _ _ t => t
  | .fault _ _ _ _ _ t => t

/-- PREF (R117): no trap, no register, no WAIT class.
Log 24: DESIGN CHOICE. -/
def execPref (a l : Nat) (o : Int) (s : State) : Out :=
  run (.pref a l o) { sr := [a] } (fun s => .done (advance (prefetch s l (getS s a + wi o)))) s

/-! ### WAIT and FENCE (R125, R127) -/

/-- A field of WAIT lets its class pass (R127). -/
def waitField (cnt n : Nat) : Bool := n = 63 || decide (cnt ≤ n)

/-- WAIT (R127). -/
def execWait (l st c t : Nat) (s : State) : Out :=
  run (.wait l st c t) { eng := true }
    (fun s =>
      let a := s.cur
      if waitField a.cntLd l && waitField a.cntSt st && waitField a.cntCp c && waitField a.cntTl t then .done (advance s)
      else .stall) s

/-- FENCE (R125): REL, ACQ, SC, U by kind; an acquire-side kind at CORE or wider invalidates the L1. -/
def execFence (k sc : Nat) (s : State) : Out :=
  run (.fence k sc) {}
    (fun s =>
      let stores := k ≠ 1
      let unord := k = 3
      if canOrder s sc stores unord = false then .stall
      else
        let s := order s sc stores unord
        .done (advance (if k = 0 then s else acquireAt s sc))) s

end Sys2Proof.Machine
end

