-- ==== Sys2Proof/Machine/Atomic.lean ====
section
/-!
DEFINITION. Atomics (05 R118 to R124): the lane operation, where each lane executes (R102, R121), the combining of
lanes on the fabric (R124), the cluster's atomic service (R122, R123), and the events that complete requests.
-/
namespace Sys2Proof.Machine

open Sys2Proof

/-- The atomic operations in the order of their opcodes (R118). -/
inductive AtOp where
  | add | min | max | and | or | xor | xch | cas
deriving DecidableEq, Repr

/-- The code of an operation, as a request holds it. -/
def AtOp.code : AtOp → Nat
  | .add => 0
  | .min => 1
  | .max => 2
  | .and => 3
  | .or => 4
  | .xor => 5
  | .xch => 6
  | .cas => 7

/-- The operation of a code. -/
def atOp (n : Nat) : AtOp :=
  match n with
  | 0 => .add
  | 1 => .min
  | 2 => .max
  | 3 => .and
  | 4 => .or
  | 5 => .xor
  | 6 => .xch
  | _ => .cas

/-- The types an operation takes (R118): the 32- and 64-bit integers, and F32 and BF16 for ATADD. -/
def atType (op : AtOp) (et : Nat) : Bool := et ≤ 3 || (op = .add && (et = 8 || et = 9))

/-- The access size (R118). -/
def atSize (et : Nat) : Nat := if is64 et then 8 else if et = 9 then 2 else 4

/-- The old value combined with an operand: memory's new value, but for ATCAS (R118, R119). -/
def atCombine (op : AtOp) (et : Nat) (old v : Word) : Word :=
  let n := 8 * atSize et
  let x := elemInt et old
  let y := elemInt et v
  match op with
  | .add => match fmtOf et with
    | some f => wd (fadd f ⟨0, 0⟩ (elemFV et old) (elemFV et v)).code
    | none => wd ((old.toNat + v.toNat) % 2 ^ n)
  | .min => if y < x then v else old
  | .max => if x < y then v else old
  | .and => old &&& v
  | .or => old ||| v
  | .xor => old ^^^ v
  | .xch => v
  | .cas => v

/-- Memory's new value (R118). -/
def atNew (op : AtOp) (et : Nat) (old v cmp : Word) : Word :=
  if op = .cas then (if old = cmp then v else old) else atCombine op et old v

/-- An atomic on host memory executes at the host (R99, R102): no cache of this device keeps a copy of the sector. -/
def atHome (s : State) (a : Acc) : State := if locClass a.loc = 1 then writeBack s (a.loc / 32) else s

/-- One lane's read-modify-write at its home (R118): its old value and poison. A poisoned read half performs no
write; the core's own L1 copy of the sector is dropped (R273). Host memory is read and written at the host (R99). -/
def atPerform (s : State) (core : Nat) (op : AtOp) (et : Nat) (a : Acc) : (Nat × Word × Option (BitVec 12)) × State :=
  let coh := a.coh && locClass a.loc ≠ 1
  let s := pinFill (eccRead (atHome s a) coh a.loc a.size) coh (a.loc / 32)
  let old := wd (leNat (rdBytes s coh a.loc a.size))
  let t := if a.pr then some 0xD80 else rdTags s coh a.loc a.size
  let s := if t.isNone then
      wrSector s coh a.loc (leBytes a.size (atNew op et old a.data a.cmp).toNat) none
    else s
  ((a.lane, old, t), l1Drop s core (a.loc / 32))

/-- Lanes performed in ascending order (R120). -/
def atPerformAll (s : State) (core : Nat) (op : AtOp) (et : Nat) : List Acc → List (Nat × Word × Option (BitVec 12)) × State
  | [] => ([], s)
  | a :: r =>
    let (x, s) := atPerform s core op et a
    let (l, s) := atPerformAll s core op et r
    (x :: l, s)

/-- The limits of R121 on the resolved lane. -/
def atLimit (op : AtOp) (et : Nat) (a : Acc) : Bool :=
  match locClass a.loc with
  | 1 => (op = .add || op = .xch || op = .cas) && decide (et ≤ 3)
  | 2 => et ≠ 9
  | _ => true

/-- The lane is served by the cluster's atomic service (R102): near, on a line that the cluster cache of this device can
hold exclusive; host frames are the host's. -/
def isNear (h : Nat) (a : Acc) : Bool := a.coh && locClass a.loc = 0 && h = 0

/-- The lines of a list of lanes, each once, in the order of their first lane. -/
def linesOf (l : List Acc) : List Nat := blocksOf 128 l

/-- The near requests of an instruction, one per line (R123). -/
def nearReqs (s : State) (id : Nat) (op : AtOp) (et : Nat) (near : List Acc) : List AtomReq :=
  (linesOf near).map (fun n =>
    ⟨id, clusterOf s.cur.core, s.cur.core, op.code, et, near.filter (fun a => a.loc / 128 == n)⟩)

/-- The requests waiting in a cluster's queue. -/
def queued (s : State) (cluster : Nat) : Nat := (s.atomQ.filter (fun q => q.cluster == cluster)).length

/-- The lanes on a page marked poison on read: no write is made, and the old value is poisoned whatever memory holds (R90,
R118). -/
def prLanes (l : List Acc) : List (Nat × Word × Option (BitVec 12)) :=
  (l.filter (·.pr)).map (fun a => (a.lane, 0, some 0xD80))

/-! ### What goes over the fabric, and what comes back (R124, R294) -/

/-- Lanes of one operation that the core combines at one fabric address (R124). -/
def combines : ReqOp → Bool
  | .atomic op _ => op ≤ 5
  | .reduce _ => true
  | _ => false

/-- The operand of a combined atomic: the lanes' values in ascending order (R124). -/
def atTotal (op et : Nat) : List Acc → Word
  | [] => 0
  | a :: r => r.foldl (fun t b => atCombine (atOp op) et t b.data) a.data

/-- The accesses a request sends, in lane order: one per lane, or the first lane of each combined address with the
total (R124). -/
def wireAccs (op : ReqOp) : List Acc → List Acc
  | [] => []
  | a :: r =>
    let (o, e) := match op with
      | .atomic o e => (o, e)
      | .reduce e => (0, e)
      | _ => (0, 0)
    if combines op then
      { a with data := atTotal o e (a :: r.filter (fun b => b.loc == a.loc)) } ::
        (wireAccs op r).filter (fun b => b.loc ≠ a.loc)
    else a :: wireAccs op r

/-- The lanes' own results from the old value a combined atomic returns (R124). -/
def spread (op et : Nat) (tag : Option (BitVec 12)) (old : Word) : Option Word → List Acc → List (Nat × Word × Option (BitVec 12))
  | _, [] => []
  | p, a :: r =>
    let v := match p with
      | none => old
      | some x => atCombine (atOp op) et old x
    let q := match p with
      | none => a.data
      | some x => atCombine (atOp op) et x a.data
    (a.lane, v, tag) :: spread op et tag old (some q) r

/-- The accesses of a request that go over the fabric: an atomic makes none for a lane that is poisoned on read (R90, R118). -/
def wired (r : Req) : List Acc :=
  r.accs.filter (fun a => isRemote a && !(a.pr && (match r.op with
    | .atomic _ _ => true
    | _ => false)))

/-- What a response to one sent access brings its lanes; a page marked poisoned on read poisons what is read (R90). -/
def gotWire (r : Req) (a : Acc) (v : Word) (tag : Option (BitVec 12)) : List (Nat × Word × Option (BitVec 12)) :=
  match r.op with
  | .atomic o e =>
    if combines r.op then spread o e tag v none ((wired r).filter (fun b => b.loc == a.loc))
    else [(a.lane, v, tag)]
  | .reduce _ => ((wired r).filter (fun b => b.loc == a.loc)).map (fun b => (b.lane, 0, none))
  | _ => [(a.lane, v, if a.pr then some 0xD80 else tag)]

/-- The kernel facts of an agent. -/
def kernelOf (s : State) (agent : Nat) : Kernel := ((findAgent s agent).map (·.k)).getD Kernel.none

/-- A request's accesses to other nodes leave as packets: reads and writes gathered; an atomic with its operation and type, and a
counter step with the place of its descriptor's flags, one by one (R124, R240, R294, R295). -/
def postReq (s : State) (r : Req) : State :=
  let b := (kernelOf s r.agent).badge
  let at_ : Nat → Nat → State := fun o e => (wireAccs r.op (wired r)).foldl (fun s a =>
    post s b 2 (nodeOf a.loc) (a.loc % 2 ^ 44) 16 (some r.id) [a.loc % 2 ^ 44, a.size, o, e, a.data.toNat, a.cmp.toNat]) s
  match r.op with
  | .load => postPlain s b r.id false (wired r)
  | .query _ _ _ _ _ _ => postPlain s b r.id false (wired r)
  | .store => postPlain s b r.id true (wired r)
  | .sketch _ satf _ => (wired r).foldl (fun s a =>
      post s b 3 (nodeOf a.loc) (a.loc % 2 ^ 44) 8 (some r.id) [a.loc % 2 ^ 44, a.size, satf % 2 ^ 44, a.data.toNat]) s
  | .atomic o e => at_ o e
  | .reduce e => at_ 0 e

/-- Put a request in flight, its packets in the ports' queues. -/
def launchReq (s : State) (r : Req) : State := postReq { s with reqs := s.reqs ++ [r] } r

/-- An atomic that has passed its checks: far lanes of this device are performed now, or one at a time later (R120); near
lanes enter the cluster's queue, and fabric lanes are in flight (R102, R123).
Log 57: DEDUCED. -/
def issueAtomic (s : State) (op : AtOp) (et d h : Nat) (l : List Acc) : Issue :=
  let s := drainOverlap s l
  let act := l.filter (fun a => !a.pr)
  let near := act.filter (isNear h)
  if near ≠ [] ∧ 256 < queued s (clusterOf s.cur.core) + (linesOf near).length then .stall
  else
    let far := act.filter (fun a => !isNear h a && !isRemote a)
    let (later, s) := chooseLater s far
    let (got, s) := atPerformAll s s.cur.core op et (atIssue later far)
    let got := prLanes l ++ got
    let dest : Dest := .vreg d (atSize et) false
    if got.length = l.length then
      .done (advance (deliverNow s dest (l.map (fun a => (a.lane, a.va, ((got.find? (·.1 == a.lane)).map (·.2)).getD (0, none))))))
    else
      let (n, s) := freshId s
      let r := newReq s n (.atomic op.code et) dest l true true got
      let s := pend (countUp s .ld) dest
      .done (advance (launchReq { s with atomQ := s.atomQ ++ nearReqs s n op et near } r))

/-- The data a lane brings: the operand and, for ATCAS, the compare value. -/
def atLane (s : State) (et d a b l : Nat) : Nat × Word × Word × Word :=
  let m := wd (2 ^ (8 * atSize et) - 1)
  (l, getV2 s a l, rawV s et b l &&& m, rawV s et d l &&& m)

/-- An atomic (R118, R121). -/
def atomic (i : Instr) (op : AtOp) (d a b h : Nat) (s : State) : Out :=
  let et := etOf s
  let wide := is64 et
  run i { vr := a :: (a + 1) :: (regs wide b ++ (if op = .cas then regs wide d else [])), vw := regs wide d, cls := some .ld }
    (fun s =>
      if atType op et = false ∨ a % 2 = 1 ∨ (wide = true ∧ (d % 2 = 1 ∨ b % 2 = 1)) then illegal s i
      else
        match activeLanes s with
        | [] => .done (advance s)
        | act =>
          access s .at (atSize et) (atSize et) true (act.map (atLane s et d a b)) (fun accs t =>
            afterLost t true accs (fun l => issueAtomic t op et d h l)) (atLimit op et)) s

/-- ATADD (R118, R119). -/
def execAtadd (d a b h : Nat) (s : State) : Out := atomic (.atadd d a b h) .add d a b h s

/-- ATMIN (R118). -/
def execAtmin (d a b h : Nat) (s : State) : Out := atomic (.atmin d a b h) .min d a b h s

/-- ATMAX (R118). -/
def execAtmax (d a b h : Nat) (s : State) : Out := atomic (.atmax d a b h) .max d a b h s

/-- ATAND (R118). -/
def execAtand (d a b h : Nat) (s : State) : Out := atomic (.atand d a b h) .and d a b h s

/-- ATOR (R118). -/
def execAtor (d a b h : Nat) (s : State) : Out := atomic (.ator d a b h) .or d a b h s

/-- ATXOR (R118). -/
def execAtxor (d a b h : Nat) (s : State) : Out := atomic (.atxor d a b h) .xor d a b h s

/-- ATXCH (R118). -/
def execAtxch (d a b h : Nat) (s : State) : Out := atomic (.atxch d a b h) .xch d a b h s

/-- ATCAS (R118): the compare value is Vd before the instruction. -/
def execAtcas (d a b h : Nat) (s : State) : Out := atomic (.atcas d a b h) .cas d a b h s

/-! ### What comes back -/

/-- The sent accesses of a request that still wait for a response, at nodes that satisfy a test. -/
def waitingWire (r : Req) (f : Nat → Bool) : List Acc :=
  (wireAccs r.op (wired r)).filter (fun a => f (nodeOf a.loc) && (gotLane r a.lane).isNone)

/-- Responses come back for sent accesses, in order. -/
def respond (r : Req) (l : List (Acc × Word × Option (BitVec 12))) : Req :=
  { r with got := r.got ++ l.flatMap (fun p => gotWire r p.1 p.2.1 p.2.2) }

/-- The peer devices of the pod: nodes that are no granary switch (R82).
Log 112: DESIGN CHOICE. -/
def isPeer (n : Nat) : Bool := n < 240

/-- The far lanes of an atomic that this device has still to perform: its local ones that no cluster's queue holds. -/
def farLeft (s : State) (r : Req) : List Acc :=
  (localLeft r).filter (fun a => !s.atomQ.any (fun q => q.req == r.id && q.accs.any (fun b => b.lane == a.lane)))

/-- Perform the far lanes of an atomic that satisfy a test, in ascending order at one address (R120). -/
def doFar (s : State) (r : Req) (f : Acc → Bool) : Req × State :=
  match r.op with
  | .atomic o e =>
    let (got, s) := atPerformAll s r.core (atOp o) e (withLower f (farLeft s r))
    ({ r with got := r.got ++ got }, s)
  | _ => (r, s)

/-- The lanes that an event names: those of its datum from place 2 on, or every one. -/
def chosen (s : State) (a : Acc) : Bool := (s.inp.a.drop 2).isEmpty || (s.inp.a.drop 2).contains a.lane

/-- The switch on the way to a peer's window lets a request through (R307). -/
def passes (s : State) (r : Req) (a : Acc) : Bool :=
  locClass a.loc ≠ 6 || swAccept s (pairFor s a.loc) s.node (kernelOf s r.agent).jobkey (kernelOf s r.agent).grp

/-- The unit tag of a fabric port pair or switch, now (R101, R393). -/
def fabricTag (s : State) (q : Nat) : BitVec 12 := tagOf s (112 + q)

/-- The unit whose bank and tag an unanswered or refused access shows: the switch's, or the carrying port pair's (R101, R310). -/
def answerUnit (s : State) (loc : Nat) : Nat := if 240 ≤ nodeOf loc then nodeOf loc - 240 else pairFor s loc

/-- The poison that an unanswered or refused access returns. -/
def lostTag (s : State) (loc : Nat) : BitVec 12 := fabricTag s (answerUnit s loc)

/-- A request that its target has refused (R310): the number that stands for that among the tags of an event. -/
def refusedTag : Nat := 2 ^ 13

/-- The peers' responses that an event brings to a request, in the order of the accesses sent; none where the event is for this
device's own lanes alone. Of those that the target refuses, data come poisoned with the port pair's tag, and a store is discarded
with a record (R310). -/
def peersAnswer (s : State) (r : Req) : Req × State :=
  if s.inp.a.getD 1 0 = 1 then (r, s)
  else
    let w := (waitingWire r (fun n => isPeer n && away s r.id n)).filter (passes s r)
    let l := (w.zip (List.range w.length)).map (fun p => (p.1, s.inp.data.getD p.2 0, s.inp.tags.getD p.2 0))
    let s := match l.find? (fun p => p.2.2 = refusedTag) with
      | some p => if isStoreOp r.op then logRefused s (answerUnit s p.1.loc) p.1.loc else s
      | none => s
    (respond r (l.map (fun p => if p.2.2 = refusedTag then (p.1, 0, some (lostTag s p.1.loc)) else (p.1, wd p.2.1, tagIn p.2.2))), s)

/-- The peers' answers are taken, and the request completes where nothing is left. -/
def peersProgress (s : State) (r : Req) : State := let (r, s) := peersAnswer s r; progress s r

/-- MEMORY_RESPONSE (R111, R120, R126): a load's or atomic's lanes here are performed, all or those that the event names, and
the peers answer; the request completes when everything it waits for has come back. Event data: id, whether for this device's
own lanes alone, those lanes (none: all); data and tags of the peers' answers (0 clean, n + 1 the tag n, 2^13 refused). -/
def execMemoryResponse (s : State) : Out :=
  match s.reqs.find? (fun r => r.id == s.inp.a.headD 0) with
  | none => .next s
  | some r =>
    match r.op with
    | .load => let (r, t) := doLanes s r (chosen s); .next (peersProgress t r)
    | .atomic _ _ => let (r, t) := doFar s r (chosen s); .next (peersProgress t r)
    | _ => .next s

/-- STORE_ACK (R126, R128): a store's lanes here are performed, all or those that the event names, and the peers have
performed theirs, a NWR's, a NRED's or the flag of a sketch's descriptor (R242) among them. Event data: id, whether for this
device's own lanes alone, those lanes (none: all); as tags, 2^13 for each of the peers' answers that refuses. -/
def execStoreAck (s : State) : Out :=
  match s.reqs.find? (fun r => r.id == s.inp.a.headD 0) with
  | none => .next s
  | some r =>
    match r.op with
    | .store => let (r, t) := doLanes s r (chosen s); .next (peersProgress t r)
    | .reduce _ => .next (peersProgress s r)
    | .sketch _ _ _ => .next (peersProgress s r)
    | _ => .next s

/-! ### The atomic service sheaf (R122, R123) -/

/-- NEAR_ATOMIC_SERVICE (R123): the head request's lanes and their return slots, together. Event data: cluster. -/
def execNearAtomicService (s : State) : Out :=
  match s.atomQ.find? (fun q => q.cluster == s.inp.a.headD 0) with
  | none => .next s
  | some q =>
    let s := { s with atomQ := s.atomQ.erase q }
    let (got, s) := atPerformAll s q.core (atOp q.op) q.et q.accs
    match s.reqs.find? (fun r => r.id == q.req) with
    | none => .next s
    | some r => .next (progress s { r with got := r.got ++ got })

/-- ATOMIC_SERVICE_RESTART (R123, R400): a request leaves the queue only with its line update and return writes
committed, so the restarted service replays exactly the requests still queued and nothing is lost or doubled. -/
def execAtomicServiceRestart (s : State) : Out := .next s

end Sys2Proof.Machine
end

