-- ==== Sys2Proof/Machine/Control.lean ====
section
/-!
DEFINITION. Control flow (07 R150 to R158): branches, SPLIT, JOIN and EXIT over the two slots and the divergence
stack, and the program traps (25 R377).
-/
namespace Sys2Proof.Machine

open Sys2Proof

/-- A branch target in words from the branch (R38). -/
def target (pc : Word) (o : Int) : Word := pc + wi (4 * o)

/-- BRA (R151). -/
def execBra (o : Int) (s : State) : Out :=
  run (.bra o) { eng := true } (fun s => .done (setPc s (target (pcOf s) o))) s

/-- CALL (R151): S62 := PC + 4. -/
def execCall (o : Int) (s : State) : Out :=
  run (.call o) { sw := [62] } (fun s => .done (setPc (setS s 62 (pcOf s + 4)) (target (pcOf s) o))) s

/-- A jump to a register's address: an unaligned target traps ALIGN and writes nothing (R38). -/
def jumpTo (s : State) (t : Word) (link : Bool) : Issue :=
  if t.toNat % 4 ≠ 0 then .trap ⟨ALIGN, pcOf s, t, 0, 0⟩
  else .done (setPc (if link then setS s 62 (pcOf s + 4) else s) t)

/-- JMP (R151). -/
def execJmp (a : Nat) (n : Int) (s : State) : Out :=
  run (.jmp a n) { sr := [a] } (fun s => jumpTo s (getS s a + wi (4 * n)) false) s

/-- CALLR (R151). -/
def execCallr (a : Nat) (n : Int) (s : State) : Out :=
  run (.callr a n) { sr := [a], sw := [62] } (fun s => jumpTo s (getS s a + wi (4 * n)) true) s

/-- The BC conditions (R152). -/
def bcCond (c : Nat) (x : Word) : Bool :=
  match c with
  | 0 => x = 0
  | 1 => x ≠ 0
  | 2 => x.toInt < 0
  | 3 => 0 ≤ x.toInt
  | 4 => 0 < x.toInt
  | _ => x.toInt ≤ 0

/-- The whole slot branches, or goes on (R152, R153). -/
def branchIf (s : State) (t : Bool) (o : Int) : Issue :=
  .done (if t then setPc s (target (pcOf s) o) else advance s)

/-- BC (R152). -/
def execBc (c h a : Nat) (o : Int) (s : State) : Out :=
  run (.bc c h a o) { sr := [a], eng := true } (fun s => branchIf s (bcCond c (getS s a)) o) s

/-- ANYB (R153). -/
def execAnyb (k h : Nat) (o : Int) (s : State) : Out :=
  run (.anyb k h o) {} (fun s => branchIf s (getM s k &&& (slotOf s).mask ≠ 0) o) s

/-- ALLB (R153). -/
def execAllb (k h : Nat) (o : Int) (s : State) : Out :=
  run (.allb k h o) {} (fun s => branchIf s (getM s k &&& (slotOf s).mask = (slotOf s).mask) o) s

/-! ### Two slots and the divergence stack (R154 to R158) -/

/-- The lowest free indexes of the 64-entry stack (R156).
Log 58: DESIGN CHOICE. -/
def freeIdx (st : List StackEnt) : List Nat := (List.range 64).filter (fun i => !st.any (fun e => e.idx == i))

/-- The other slot of the agent in focus. -/
def otherSlot (s : State) : Slot := getSlot s.cur (!s.slot)

/-- SPLIT's rule (R155). -/
def splitStep (s : State) (mk : Word) (neg : Bool) (tgt jo : Int) : Issue :=
  let pc := pcOf s
  let m := (slotOf s).mask
  let t := m &&& (if neg then ~~~mk else mk)
  let f := m &&& ~~~t
  if t = 0 then .done (advance s)
  else if f = 0 then .done (setPc s (target pc tgt))
  else
    let st := s.cur.stack
    let x := slotOf s
    match freeIdx st with
    | [] => .trap ⟨DIVSPILL, pc, 0, 0, 0⟩
    | r :: more =>
      let rec_ : StackEnt := ⟨r, true, target pc jo, 0, m, x.inner⟩
      let mine : Slot := { x with pc := pc + 4, mask := f, inner := some r }
      if (otherSlot s).live then
        match more with
        | [] => .trap ⟨DIVSPILL, pc, 0, 0, 0⟩
        | p :: _ =>
          let path : StackEnt := ⟨p, false, target pc tgt, 0, t, some r⟩
          .done (setSlot (onCur s (fun a => { a with stack := path :: rec_ :: st })) mine)
      else
        let other : Slot := { otherSlot s with live := true, pc := target pc tgt, mask := t, inner := some r, wait := .ready }
        let s := onCur s (fun a => putSlot { a with stack := rec_ :: st, turn := !s.slot } (!s.slot) other)
        .done (setSlot s mine)

/-- SPLIT (R155). -/
def execSplit (k n : Nat) (t j : Int) (s : State) : Out :=
  run (.split k n t j) {} (fun s => splitStep s (getM s k) (n = 1) t j) s

/-- The join record with an index. -/
def joinRec (a : Agent) (i : Nat) : Option StackEnt := a.stack.find? (fun e => e.idx == i && e.join)

/-- Consume the stack entry with an index. -/
def consume (a : Agent) (i : Nat) : Agent := { a with stack := a.stack.filter (fun e => e.idx ≠ i) }

/-- A freed slot takes the most recently pushed parked path, if there is one (R157). -/
def takePath (a : Agent) (sec : Bool) : Agent :=
  let x : Slot := { getSlot a sec with live := false, mask := 0, inner := none, wait := .ready }
  match a.stack.find? (fun e => !e.join) with
  | none => putSlot a sec x
  | some e => putSlot (consume a e.idx) sec { x with live := true, pc := e.pc, mask := e.mask, inner := e.par }

/-- Record e completes: the slot goes on at J with mask E and the record's parent (R157). -/
def completeRec (a : Agent) (sec : Bool) (e : StackEnt) : Agent :=
  putSlot (consume a e.idx) sec
    { getSlot a sec with live := true, pc := e.pc, mask := e.mask, inner := e.par, wait := .ready }

/-- JOIN's rule (R157). -/
def joinStep (a : Agent) (sec : Bool) : Agent :=
  let x := getSlot a sec
  let next := putSlot a sec { x with pc := x.pc + 4 }
  match x.inner with
  | none => next
  | some i => match joinRec a i with
    | none => next
    | some e =>
      if e.pc ≠ x.pc then next
      else
        let e := { e with arr := e.arr ||| x.mask }
        if e.arr = e.mask then completeRec a sec e
        else takePath { a with stack := a.stack.map (fun f => if f.idx = i then e else f) } sec

/-- JOIN (R157). -/
def execJoin (s : State) : Out := run .join {} (fun s => .done (onCur s (fun a => joinStep a s.slot))) s

/-- The walk outward from a record after lanes have left (R158): the first argument bounds it by the stack. -/
def exitWalk : Nat → Agent → Bool → Option Nat → Agent
  | 0, a, sec, _ => takePath a sec
  | _ + 1, a, sec, none => takePath a sec
  | f + 1, a, sec, some i =>
    match joinRec a i with
    | none => takePath a sec
    | some e =>
      if e.mask = 0 then exitWalk f (consume a i) sec e.par
      else if e.arr = e.mask then completeRec a sec e
      else takePath a sec

/-- EXIT's rule (R158): the sheaf ends when both slots are free and no path is parked. -/
def exitStep (a : Agent) (sec : Bool) : Agent :=
  let x := getSlot a sec
  let a := { a with stack := a.stack.map (fun e => if e.join then { e with mask := e.mask &&& ~~~x.mask } else e) }
  let a := exitWalk 65 a sec x.inner
  if a.pri.live || a.sec.live then a else { a with ended := true, active := false }

/-- EXIT (R158). -/
def execExit (s : State) : Out := run .exit {} (fun s => .done (onCur s (fun a => exitStep a s.slot))) s

/-! ### Program traps (R377) -/

/-- TRAP (R377); TRAP 0 is ILLEGAL (R42). -/
def execTrap (n : Nat) (s : State) : Out :=
  run (.trap n) {} (fun s => if n = 0 then illegal s (.trap n) else .trap ⟨TRAPI, pcOf s + 4, 0, wd n, 0⟩) s

/-- BRK (R377). -/
def execBrk (n : Nat) (s : State) : Out :=
  run (.brk n) {} (fun s => .trap ⟨BRKPT, pcOf s + 4, 0, wd n, 0⟩) s

/-- SYSC (R377): TINFO[25] marks a service call. -/
def execSysc (n : Nat) (s : State) : Out :=
  run (.sysc n) {} (fun s => .trap ⟨TRAPI, pcOf s + 4, 0, wd (2 ^ 25 + n), 0⟩) s

/-- A number the event brings. -/
def inA (s : State) (n : Nat) : Nat := s.inp.a.getD n 0

/-- The fates of a fetched word that is no instruction (R42): ILLEGAL with the word in TINFO. The word is the
event's datum. -/
def execReservedEncoding (s : State) : Out :=
  run .reservedEncoding { eng := true } (fun s => .trap (illegalTrap s (inA s 0))) s

/-- A fetch that fails (R44, R150): FETCH at the fetched address, FETCH2 (datum 0 is 1) for a long form's second
word, whose word0 is datum 1; an address that is no multiple of 4 traps ALIGN (R375). -/
def execFetchFault (s : State) : Out :=
  run .fetchFault { eng := true } (fun s =>
    let pc := pcOf s
    if inA s 0 = 1 then .trap ⟨FETCH2, pc, pc + 4, wd (inA s 1), 0⟩
    else if pc.toNat % 4 ≠ 0 then .trap ⟨ALIGN, pc, pc, 0, 0⟩
    else .trap ⟨FETCH, pc, pc, 0, 0⟩) s

end Sys2Proof.Machine
end

