-- ==== Sys2Proof/Machine/Engine.lean ====
section
/-!
DEFINITION. What engine operations share: the party they act for (R269, R276), their reads and writes through the
party's translation (R104), granary memory as an engine meets it (R301, R305), parking, and the descriptor reads of
R130.
-/
namespace Sys2Proof.Machine

open Sys2Proof

/-- The issuing agent as the party of an operation it issues now. -/
def partyOf (s : State) : Party :=
  let a := s.cur
  { agent := a.id, stook := a.stook, core := a.core, slotNo := a.slotNo, k := a.k, priv := a.priv,
    srkey := a.srkey, srseq := a.srseq, rm := rmOf s, stamp := s.epoch,
    after := (s.reqs.filter (seenBy (seatOf a))).map (·.id) }

/-- The party when an operation's first access is translated: from then on it holds that epoch (R107). -/
def stampIf (first : Bool) (s : State) (p : Party) : Party := if first then { p with stamp := s.epoch } else p

/-- No access of the copy has been translated yet. -/
def Copy.fresh (c : Copy) : Bool := c.rows.all (fun n => n = 0) && c.got.isEmpty

/-- The fork edge of an operation's issue (R276): the accesses of the issuer that this device performs, and the stores of other
parties that it sees, are performed first.
Log 36: DESIGN CHOICE. -/
def forkEdge (s : State) : State := drainSeen s (seatOf s.cur) (fun _ => true)

/-- Everything the operation's issuer had in flight at issue has been performed. -/
def edgeDone (s : State) (p : Party) : Bool := !s.reqs.any (fun r => p.after.contains r.id)

/-- The party's accesses (R349: its stook's windows apply). -/
def Party.who (p : Party) : Who := ⟨p.k.ctx, p.core, p.priv, some p.k⟩

/-! ### Accesses -/

/-- Why an engine operation ends in error. -/
inductive EErr where
  | xlate | perm | xlost | fabric
  /-- A store met the live barrier word at the location. -/
  | barwin (loc : Nat)
deriving DecidableEq, Repr

/-- What an engine's access answers; `wait` while another node has still to answer. -/
inductive ERes (α : Type) where
  | ok (a : α) (s : State)
  | wait (s : State)
  | fault (va : Word) (kind level : Nat) (entry : Word)
  | err (e : EErr) (s : State)
deriving DecidableEq, Repr

/-- Resolve one piece of a range (R104, R110 order). -/
def engPiece (s : State) (p : Party) (k : AccKind) (va : Word) (len : Nat) : ERes Piece :=
  if canonical va = false then .err .perm s
  else match translate s p.who va with
    | .bad kd l e => .fault va kd l e
    | .ok pg pa new =>
      match pinTake s.pins p.k.ctx va pg with
      | none => .fault va 3 3 pg.entry
      | some pins =>
        let s := tlbLearn { walkRead s p.who va with pins := pins } new
        let loc := pageLoc s pg pa
        if permitted p.who k pg = false then .err .perm s
        else if k ≠ .rd ∧ (liveIn s loc len).isSome = true then .err (.barwin ((liveIn s loc len).getD loc)) s
        else if lostLoc s loc = true then .err .xlost s
        else .ok ⟨va, loc, pageCoh pg pa, pg.pr, pg.ord, pg.home, pg.hidx, len⟩ s

/-- Resolve a range, sector by sector; the first argument bounds the sectors. -/
def engPieces : Nat → State → Party → AccKind → Word → Nat → ERes (List Piece)
  | 0, s, _, _, _, _ => .ok [] s
  | f + 1, s, p, k, va, n =>
    if n = 0 then .ok [] s
    else
      let len := min n (32 - va.toNat % 32)
      match engPiece s p k va len with
      | .fault a b c d => .fault a b c d
      | .err e s => .err e s
      | .wait s => .wait s
      | .ok x s =>
        match engPieces f s p k (va + wd len) (n - len) with
        | .ok l s => .ok (x :: l) s
        | r => r

/-- A range of n bytes. -/
def engRange (s : State) (p : Party) (k : AccKind) (va : Word) (n : Nat) : ERes (List Piece) :=
  engPieces (n / 32 + 2) s p k va n

/-- Free values of another device's memory, which this model does not hold (log 10).
Log 10: DESIGN CHOICE. -/
def peerBytes (s : State) (n : Nat) : List PByte × State :=
  let t := Config.freeValue s.free
  let tag : Option (BitVec 12) := if t.getLsbD 12 then some (t.setWidth 12) else none
  ((List.range n).map (fun j => ((Config.freeValue (s.free + 1 + j)).setWidth 8, tag)), { s with free := s.free + 1 + n })

/-- Read a resolved range, sector by sector (R272); a page poisoned on read gives its own tag (R90). -/
def readPieces (s : State) : List Piece → List PByte × State
  | [] => ([], s)
  | x :: r =>
    let (bs, s) :=
      if farLoc x.loc ∧ nodeOf x.loc < 240 then peerBytes s x.len
      else
        let s := pinFill (eccRead s x.coh x.loc x.len) x.coh (x.loc / 32)
        let t := rdTags s x.coh x.loc x.len
        ((rdBytes s x.coh x.loc x.len).map (fun b => (b, t)), s)
    let (l, s) := readPieces s r
    ((if x.pr then bs.map (fun b => (b.1, some 0xD80)) else bs) ++ l, s)

/-- One piece is written at its home, with the lowest tag of its bytes (R394), and the issuing core's L1 copy dropped (R271);
another device's memory is not held here (log 10). -/
def writePiece (s : State) (core : Nat) (x : Piece) (bs : List PByte) : State :=
  if farLoc x.loc ∧ nodeOf x.loc < 240 then s
  else
    let s := if bs.length = 32 then s else eccRead s x.coh x.loc x.len
    let s := wrSector s x.coh x.loc (bs.map (·.1)) (pTag bs)
    l1Drop s core (x.loc / 32)

/-- Write a resolved range. -/
def writePieces (core : Nat) : List Piece → List PByte → State → State
  | [], _, s => s
  | x :: r, bs, s => writePieces core r (bs.drop x.len) (writePiece s core x (bs.take x.len))

/-- The bytes for a resolved range, sector by sector, as what is to land. -/
def landings : List Piece → List PByte → List Landing
  | [], _ => []
  | x :: r, bs => ⟨x.loc, x.coh, bs.take x.len⟩ :: landings r (bs.drop x.len)

/-- Bytes land in a sector. -/
def landOne (core : Nat) (s : State) (x : Landing) : State :=
  writePiece s core ⟨0, x.loc, x.coh, false, 0, 0, 0, x.bytes.length⟩ x.bytes

/-- What has landed of what an engine has formed: the state, how many bytes, what is left, and whether another node refused or did
not answer (R305). -/
structure Landed where
  s : State
  n : Nat
  left : List Landing
  bad : Bool
deriving DecidableEq, Repr

/-- The bytes of landings. -/
def landBytesOf (l : List Landing) : Nat := (l.map (fun x => x.bytes.length)).sum

/-- Landings as pieces. -/
def Landing.piece (x : Landing) : Piece := ⟨0, x.loc, x.coh, false, 0, 0, 0, x.bytes.length⟩

/-- What an engine has formed lands, but for the sectors whose places are named, which land later (R128, R135, R272); at other nodes
it lands once what was sent there has been served (R294, R305). -/
def landNow (s : State) (p : Party) (op : Nat) (l : List Landing) : Landed :=
  let q := l.zip (List.range l.length)
  let late : Nat → Bool := fun i => s.inp.data.contains i
  let far := q.filter (fun x => farLoc x.1.loc)
  let here := q.filter (fun x => !farLoc x.1.loc && !late x.2)
  let rest : List (Landing × Nat) → List Landing := fun d => (q.filter (fun x => !d.any (fun y => y.2 == x.2))).map (·.1)
  let put : State → List (Landing × Nat) → State := fun s d => d.foldl (fun s x => landOne p.core s x.1) s
  let ps : List (Landing × Nat) → List Piece := fun d => d.map (fun x => x.1.piece)
  let s := put s here
  if far = [] then ⟨s, landBytesOf (here.map (·.1)), rest here, false⟩
  else match askOf s (.op op [0]) with
    | none => ⟨askWrite s p.k.badge (.op op [0]) p.stamp (ps far) (far.flatMap (·.1.bytes)), landBytesOf (here.map (·.1)), rest here, false⟩
    | some a =>
      match await s p.k.badge a with
      | .wait s => ⟨s, landBytesOf (here.map (·.1)), rest here, false⟩
      | .dead s => ⟨s, landBytesOf (here.map (·.1)), rest here, true⟩
      | .gone a s =>
        let asked := far.take a.pieces.length
        let now := here ++ asked.filter (fun x => !late x.2)
        let more := asked.filter (fun x => late x.2)
        let s := if more = [] then s else { s with asks := s.asks ++ [{ a with pieces := ps more, bytes := more.flatMap (·.1.bytes) }] }
        ⟨put s (asked.filter (fun x => !late x.2)), landBytesOf (now.map (·.1)), rest now, false⟩

/-- Resolved pieces are read for a part of an operation, plane space not while a remap runs (R229); where other nodes hold some of
them, they are asked first, and what was asked is what is read. -/
def readFar (s : State) (p : Party) (op : Nat) (key : List Nat) (l : List Piece) : ERes (List PByte) :=
  match askOf s (.op op key) with
  | some a =>
    (match await s p.k.badge a with
     | .wait s => .wait s
     | .dead s => .err .fabric s
     | .gone a s => let (bs, s) := readPieces s a.pieces; .ok bs s)
  | none =>
    if s.remap.isSome && l.any (fun x => planeSpace x.loc) then .wait s
    else if l.any (fun x => farLoc x.loc) then .wait (askRead s p.k.badge (.op op key) p.stamp l)
    else let (bs, s) := readPieces s l; .ok bs s

/-- Read n bytes for a part of an operation. -/
def engRead (s : State) (p : Party) (op : Nat) (key : List Nat) (k : AccKind) (va : Word) (n : Nat) : ERes (List PByte) :=
  if (askOf s (.op op key)).isSome then readFar s p op key []
  else match engRange s p k va n with
    | .ok l s => readFar s p op key l
    | .wait s => .wait s
    | .fault a b c d => .fault a b c d
    | .err e s => .err e s

/-- What an access answers, as another value. -/
def ERes.map {α β : Type} (f : α → β) : ERes α → ERes β
  | .ok a s => .ok (f a) s
  | .wait s => .wait s
  | .fault a b c d => .fault a b c d
  | .err e s => .err e s

/-- What another node answers is kept as a number while its operation asks for more. -/
def keptVal (s : State) (w : Asked) (x : ERes Nat) : ERes Nat :=
  match askOf s w with
  | some a =>
    (match a.val, x with
     | some v, _ => .ok v s
     | none, .ok v t => .ok v { t with asks := t.asks ++ [{ a with val := some v }] }
     | none, r => r)
  | none => x

/-- Little-endian value of bytes. -/
def pNat (l : List PByte) : Nat := leNat (l.map (·.1))

/-- Clean bytes of a number. -/
def pBytes (n x : Nat) (t : Option (BitVec 12)) : List PByte := (leBytes n x).map (fun b => (b, t))

/-! ### Parking (R104) -/

/-- An engine operation parks at a translation fault: the record's number. -/
def parkEng (s : State) (p : Party) (op src acc : Nat) (va : Word) (kind level : Nat) (entry : Word) : Nat × State :=
  newFault s p.who
    { id := 0, ctx := p.k.ctx, va := va, eseq := 0, entry := entry, kind := kind, level := level,
      acc := acc + 8 + (if p.priv then 0 else 32), src := src, slot := 0, core := p.core,
      owner := .op op, mask := 0, tinfo := 0, idx := none, fate := 0 }

/-- The fate of a parked operation's record: 0 none yet, 1 resolved, 2 fatal. -/
def parkFate (s : State) (n : Nat) : Nat := ((s.faults.find? (fun f => f.id == n)).map (·.fate)).getD 1

/-- A record whose fate is known and whose access goes on, or ends, is forgotten. -/
def dropFault (s : State) (n : Nat) : State := { s with faults := s.faults.filter (fun f => f.id ≠ n) }

/-- Whether a parked operation may go on: still parked, resumed, or fatal. -/
inductive Unpark where
  | wait
  | go (s : State)
  | fatal (s : State)
deriving DecidableEq, Repr

/-- Try to resume an operation (R104). -/
def unpark (s : State) : Option Nat → Unpark
  | none => .go s
  | some n =>
    match parkFate s n with
    | 0 => .wait
    | 1 => .go (dropFault s n)
    | _ => .fatal (dropFault s n)

/-! ### Descriptor reads (R130) -/

/-- What a descriptor read answers: the bytes' value with where they lie, or how the instruction ends. -/
inductive DRes where
  | ok (x : Nat) (loc : Nat) (coh : Bool) (pg : Page) (s : State)
  | stop (r : Issue)
deriving DecidableEq, Repr

/-- The bytes of a descriptor as they come to the instruction: poison traps at once (R130). -/
def descOk (s : State) (va : Word) (a : Acc) (pg : Page) (bs : List PByte) : DRes :=
  match pTag bs with
  | some tag => .stop (.after s ⟨POISON, pcOf s, va, tag.setWidth 64, 0⟩)
  | none => .ok (pNat bs) a.loc a.coh pg s

/-- The slot in issue asks for n bytes at va. -/
def slotAsk (s : State) (va : Word) (n : Nat) : Asked := .slot s.cur.id s.slot [(pcOf s).toNat, va.toNat, n]

/-- What the slot in issue asked for an instruction elsewhere, which it has left. -/
def Ask.stale (s : State) (q : Ask) : Bool :=
  match q.by_ with
  | .slot id sec key => id == s.cur.id && sec == s.slot && key.headD 0 ≠ (pcOf s).toNat
  | _ => false

/-- An instruction that reads two descriptors keeps what it has asked for the first while the second is asked for. -/
def keepFirst (s : State) (w : Asked) : Issue → Issue
  | .done u => .done (match askOf s w, askOf u w with
    | some a, none => { u with asks := u.asks ++ [a] }
    | _, _ => u)
  | r => r

/-- A descriptor at another node is asked for, and the instruction waits until it has come (R130, R294); with no response its bytes
are poisoned (R101, R305). -/
def farDesc (t : State) (va : Word) (n : Nat) (a : Acc) (pg : Page) : DRes :=
  let w := slotAsk t va n
  let ps : List Piece := (List.range ((n + 31) / 32)).map (fun j => ⟨va + wd (32 * j), a.loc + 32 * j, a.coh, pg.pr, pg.ord, pg.home, pg.hidx, min n 32⟩)
  match askOf t w with
  | none => .stop (.done (askRead (dropAsks t (Ask.stale t)) t.cur.k.badge w t.epoch ps))
  | some q => match await t t.cur.k.badge q with
    | .wait _ => .stop .stall
    | .dead t => descOk t va a pg (List.replicate n ((0 : Byte), some (fabricTag t (answerUnit t a.loc))))
    | .gone q t => let (bs, t) := readPieces t q.pieces; descOk t va a pg bs

/-- Read n bytes at va, n a power of two and their alignment, as a load of the issuer checked in the order of R110;
poison traps at once (R130). `wr` asks write permission too.
Log 55: DEDUCED. -/
def readDesc (s : State) (va : Word) (n : Nat) (wr : Bool) : DRes :=
  match checkAccs s (whoOf s.cur) .rd n n [(0, va, 0, 0)] with
  | .trap c a _ t => .stop (keepWalk s t (trapAt s c a 0 0))
  | .fault a kd lv e _ t => .stop (.done (parkSlot t 1 a kd lv e 0))
  | .ok l t =>
    match l with
    | [(a, pg)] =>
      if wr = true ∧ pg.w = false then .stop (keepWalk s t (trapAt s PERM va 0 0))
      else if wr = true ∧ (liveIn t a.loc n).isSome = true then .stop (keepWalk s t (trapAt s BARWIN va 0 0))
      else if mustWait t [a] = true then .stop .stall
      else if lostLoc t a.loc = true then .stop (keepWalk s t (trapAt s XLOST va 0 0))
      else
        let t := (List.range ((n + 31) / 32)).foldl (fun t j => l1Drop t t.cur.core (a.loc / 32 + j)) (drainOverlap t [a])
        if farLoc a.loc then farDesc t va n a pg
        else
          let (bs, t) := readPieces t ((List.range ((n + 31) / 32)).map (fun j =>
            ⟨va + wd (32 * j), a.loc + 32 * j, a.coh, pg.pr, pg.ord, pg.home, pg.hidx, min n 32⟩))
          descOk t va a pg bs
    | _ => .stop .stall

/-- Credit n landed bytes to a stook's barrier (R139, R253); with `err` its error bit is set. -/
def creditBar (s : State) (core pb n : Nat) (err : Bool) : State := barStep s core pb (barCredit n err)

/-- Set the error bit of the barrier whose live word was hit (R138). -/
def hitBar (s : State) (loc : Nat) : State :=
  match barFile loc with
  | some (c, pb, _) => barStep s c pb (fun b => { b with err := true })
  | none => s

/-- The physical barrier of a stook's barrier n. -/
def pbOf (k : Kernel) (n : Nat) : Nat := k.barBase + n

/-- A status word's register is written and released (R136). -/
def writeStatus (s : State) (agent sd : Nat) (x : Word) : State :=
  let d : Dest := .sreg sd
  updAgent (unpend s agent d) agent (fun a => putDest a d [(0, x)])

end Sys2Proof.Machine
end

