-- ==== Sys2Proof/Machine/Fec.lean ====
section
/-!
DEFINITION. The forward error correction of a flit (17 R288): GF(2^8) with x^8 + x^4 + x^3 + x^2 + 1, the check symbols of a
codeword of 128, and the correction of up to 4 symbols.
-/
namespace Sys2Proof.Machine

/-! ### The field -/

/-- Twice an element: times x, the field's polynomial taken away. -/
def gfDouble (a : Nat) : Nat := if 128 ≤ a then (2 * a).xor 0x11D else 2 * a

/-- The product of two elements, over so many bits of the second. -/
def gfMulBits : Nat → Nat → Nat → Nat
  | 0, _, _ => 0
  | n + 1, a, b => (if b % 2 = 1 then a else 0).xor (gfMulBits n (gfDouble a) (b / 2))

/-- The product of two elements. -/
def gfMul (a b : Nat) : Nat := if a = 0 then 0 else gfMulBits 8 a b

/-- The n-th power of x. -/
def gfPow : Nat → Nat
  | 0 => 1
  | n + 1 => gfDouble (gfPow n)

/-- The product of the first n of the powers a^2, a^4, a^8, …; with seven it is 1 / a. -/
def gfInvStep : Nat → Nat → Nat → Nat
  | 0, _, p => p
  | n + 1, a, p => let b := gfMul a a; gfInvStep n b (gfMul p b)

/-- The inverse of an element. -/
def gfInv (a : Nat) : Nat := gfInvStep 7 a 1

/-- The value of a polynomial, its coefficients from the highest down. -/
def gfEval (l : List Nat) (x : Nat) : Nat := l.foldl (fun v c => (gfMul v x).xor c) 0

/-- The sum of products of two lists. -/
def gfDot : List Nat → List Nat → Nat
  | a :: l, b :: m => (gfMul a b).xor (gfDot l m)
  | _, _ => 0

/-! ### Codewords -/

/-- The generator's coefficients below its leading one, from the highest down: the roots are x^0 to x^7.
Log 96: DESIGN CHOICE. -/
def rsGen : List Nat :=
  ((List.range 8).foldl (fun g i => (List.range (g.length + 1)).map (fun j =>
    (g.getD j 0).xor (if j = 0 then 0 else gfMul (g.getD (j - 1) 0) (gfPow i)))) [1]).drop 1

/-- The 8 check symbols of 120 data symbols, the first of which has the highest power: the rest of their division by the
generator. -/
def rsChecks (data : List Nat) : List Nat :=
  data.foldl (fun r d =>
    let f := d.xor (r.headD 0)
    (List.range 8).map (fun i => (r.getD (i + 1) 0).xor (gfMul f (rsGen.getD i 0)))) [0, 0, 0, 0, 0, 0, 0, 0]

/-- The syndromes of a word: its values at the roots. -/
def rsSyndromes (w : List Nat) : List Nat := (List.range 8).map (fun i => gfEval w (gfPow i))

/-- Where the search for an error locator stands: the locator and the one before its last lengthening, lowest coefficient first;
its length, the steps since then, and the discrepancy then. -/
structure Locator where
  c : List Nat
  b : List Nat
  len : Nat
  m : Nat
  d : Nat
deriving DecidableEq, Repr

/-- One step of the search: the next syndrome is taken in. -/
def Locator.next (x : Locator) (syn : List Nat) (n : Nat) : Locator :=
  let d := gfDot x.c ((List.range x.c.length).map (fun i => if i ≤ n then syn.getD (n - i) 0 else 0))
  let f := gfMul d (gfInv x.d)
  let c := (List.range (max x.c.length (x.b.length + x.m))).map (fun i =>
    (x.c.getD i 0).xor (if i < x.m then 0 else gfMul f (x.b.getD (i - x.m) 0)))
  if d = 0 then { x with m := x.m + 1 }
  else if 2 * x.len ≤ n then ⟨c, x.c, n + 1 - x.len, 1, d⟩
  else { x with c := c, m := x.m + 1 }

/-- The error locator of eight syndromes. -/
def rsLocator (syn : List Nat) : Locator := (List.range 8).foldl (fun x n => x.next syn n) ⟨[1], [1], 0, 1, 1⟩

/-- The powers of the symbols that a locator names in a word of 128, the last symbol's being 0. -/
def rsPlaces (c : List Nat) : List Nat := (List.range 128).filter (fun j => gfEval c.reverse (gfPow ((255 - j) % 255)) = 0)

/-- The error at the symbol of power j. -/
def rsError (syn c : List Nat) (j : Nat) : Nat :=
  let x := gfPow ((255 - j) % 255)
  let omega := (List.range 8).map (fun k => gfDot ((List.range (k + 1)).map (fun i => c.getD i 0)) ((List.range (k + 1)).map (fun i => syn.getD (k - i) 0)))
  let slope := (List.range c.length).map (fun i => if i % 2 = 0 then c.getD (i + 1) 0 else 0)
  gfMul (gfPow j) (gfMul (gfEval omega.reverse x) (gfInv (gfEval slope.reverse x)))

/-- A word of 128 symbols corrected, with the places of the symbols that were in error; none where more than 4 are (R288). -/
def rsDecode (w : List Nat) : Option (List Nat × List Nat) :=
  let syn := rsSyndromes w
  if syn.all (· = 0) then some (w, [])
  else
    let x := rsLocator syn
    let places := rsPlaces x.c
    let fixed := (List.range 128).map (fun i =>
      (w.getD i 0).xor (if places.contains (127 - i) then rsError syn x.c (127 - i) else 0))
    if x.len ≤ 4 ∧ places.length = x.len ∧ (rsSyndromes fixed).all (· = 0) = true then some (fixed, places.map (127 - ·)) else none

/-! ### Flits -/

/-- The symbols of a codeword of a flit: codeword 0 has the even-numbered bytes, codeword 1 the odd-numbered ones (R288). -/
def codeword (k : Nat) (l : List Nat) : List Nat := (List.range (l.length / 2)).map (fun i => l.getD (2 * i + k) 0)

/-- A flit's 256 bytes from its header and payload: the check symbols of both codewords in bytes 240 to 255 (R288). -/
def withChecks (l : List Nat) : List Nat :=
  let a := rsChecks (codeword 0 l)
  let b := rsChecks (codeword 1 l)
  l ++ (List.range 8).flatMap (fun i => [a.getD i 0, b.getD i 0])

/-- A flit as received: its bytes corrected, with the places of those that were in error; none where a codeword cannot be
corrected, so that the flit is discarded whole (R288). -/
def decodeFlit (l : List Nat) : Option (List Nat × List Nat) :=
  match rsDecode (codeword 0 l), rsDecode (codeword 1 l) with
  | some (a, ea), some (b, eb) =>
    some ((List.range 128).flatMap (fun i => [a.getD i 0, b.getD i 0]), ea.map (2 * ·) ++ eb.map (2 * · + 1))
  | _, _ => none

end Sys2Proof.Machine
end

