-- ==== Sys2Proof/Machine/Link.lean ====
section
/-!
DEFINITION. Ports, wavelengths and flits (17 R287 to R300, 21 R332 to R335, 26 R397), what a request gets that no node answers
(R101, R292, R305, R310), and device time (18 R320 to R322).
-/
namespace Sys2Proof.Machine

open Sys2Proof

/-! ### Requests that end unanswered (R101, R292, R305, R310) -/

/-- A request takes what has come back; a query is left for SKQRY_RESPONSE to finish. -/
def takeBack (s : State) (r : Req) : State :=
  match r.op with
  | .query _ _ _ _ _ _ => { s with reqs := s.reqs.map (fun q => if q.id = r.id then r else q) }
  | _ => progress s r

/-- The sent accesses of a request that satisfy a test end unanswered: poison for what returns data, and a store is discarded
with a record (R101); of its packets still queued, those that satisfy the other test go no more. -/
def giveUp (s : State) (r : Req) (f : Acc → Bool) (g : Packet → Bool) : State :=
  match (waitingWire r (fun _ => true)).filter f with
  | [] => s
  | a :: w =>
    let l := (a :: w).map (fun x => (x, (0 : Word), some (lostTag s x.loc)))
    let s := if isStoreOp r.op then logRefused s (answerUnit s a.loc) a.loc else s
    takeBack (unsend s r.id g) (respond r l)

/-- A refused XMEM's result word (R302). -/
def xmemErr (code : Nat) : Word := wd (2 ^ 63 + code * 2 ^ 56)

/-- The node that an XMEM goes to (R302). -/
def xmemNode (x : XmemOp) : Nat := if x.f = 1 then bits x.a 51 44 else 240 + x.a.toNat % 8

/-- An XMEM gets its result. -/
def xmemDone (s : State) (x : XmemOp) (v : Word) : State :=
  { unsend s x.id (fun _ => true) with xmems := s.xmems.map (fun y => if y.id = x.id then { y with result := some v } else y) }

/-! ### Ports -/

/-- The mask of one wavelength. -/
def wl (k : Nat) : BitVec 8 := (1 : BitVec 8) <<< k

/-- The park requests in effect at either end (R299, R300). -/
def Port.parked (x : Port) : BitVec 8 := (x.park ||| x.peerPark) &&& ~~~(x.parkReq ||| x.retired ||| x.waking ||| x.training)

/-- The wavelengths that the next mask names (R287, R291, R299). -/
def Port.active (x : Port) : BitVec 8 :=
  if x.st = 2 then ~~~(x.retired ||| x.training ||| x.waking ||| x.parked) else 0

/-- LNK.STAT (R296). -/
def Port.stat (x : Port) : Word :=
  wd (x.retired.toNat * 2 ^ 56 + x.training.toNat * 2 ^ 48 + x.parked.toNat * 2 ^ 40 + x.waking.toNat * 2 ^ 32 +
    x.txMask.toNat * 2 ^ 24 + x.rxMask.toNat * 2 ^ 16 + x.st * 16 + x.speed * 4 + (if x.lastFail then 2 else 0) +
    (if x.st = 2 then 1 else 0))

/-- The bank of a port's pair (R389). -/
def portUnit (p : Nat) : Nat := 112 + p / 2

/-- A link event of a port (R390): ADDR holds the port and the source node. -/
def logPort (s : State) (p kind sev : Nat) : State := logOpen s (portUnit p) kind sev (Config.fabricAddr p s.node)

/-- Little-endian bytes as numbers. -/
def leNats (n x : Nat) : List Nat := (leBytes n x).map (·.toNat)

/-- Queue a control flit (R290). -/
def Port.send (x : Port) (code : Nat) (body : List Nat) : Port := { x with ctlq := x.ctlq ++ [⟨0, 0, 0, 2, 0, 0, code, false, body, []⟩] }

/-- A port carries nothing: down, or training whole. -/
def Port.still (x : Port) (st : Nat) : Port :=
  { x with st := st, waking := 0, txMask := 0, txNext := 0, rxMask := 0, rxNext := 0, own := none, theirs := none }

/-- A port goes down (R292, R298, R397): the requests that waited on it complete as those to an unreachable switch (R292,
R305). -/
def portDown (s : State) (p : Nat) (x : Port) : State :=
  let t := logPort (portPut s p { x.still 0 with training := 0, full := false, trainAt := [] }) p 6 3
  let t := s.reqs.foldl (fun t r => giveUp t r (fun a => portAt s a.loc = p) (fun q => q.port = p)) t
  let t := (s.xmems.filter (fun x => x.result.isNone && portFor s (xmemNode x) 0 = p)).foldl (fun t x => xmemDone t x (xmemErr 4)) t
  killAsks t (fun a => a.pieces.any (fun x => farLoc x.loc && portAt s x.loc = p))

/-- The wavelengths as a list. -/
def wls (m : BitVec 8) : List Nat := (List.range 8).filter (fun k => m.getLsbD k)

/-- Set an element of an eight-element list of counts. -/
def setCnt (l : List Nat) (k n : Nat) : List Nat := l.set k n

/-! ### Training (R297, R298, R333) -/

/-- A training of wavelength k, or of the port (8), begins. -/
def Port.begin (x : Port) (k now : Nat) : Port := { x with trainAt := (k, now) :: x.trainAt.filter (fun t => t.1 ≠ k) }

/-- Full training of a port starts; a training that LNK.CTL.TRAIN asks for takes the retired wavelengths too (R397). What
single wavelengths were to be retrained is trained with it (R333). -/
def startFull (x : Port) (now : Nat) (all : Bool) : Port :=
  { x.still 1 with full := true, training := if all then 0xFF else ~~~x.retired, trainAt := [(8, now)],
                   rtk := if x.full then x.rtk else x.training, ctlq := x.ctlq.filter (fun f => f.code ≠ 2) }

/-- Wavelength k drops out for retraining; when it is the only active one the whole port retrains (R297). A RETRAIN of it that waits
to be sent is sent no more (R333). -/
def dropWl (x : Port) (now k : Nat) : Port :=
  if x.active = wl k then let y := startFull x now false; { y with rtk := y.rtk ||| wl k }
  else { x.begin k now with training := x.training ||| wl k, ctlq := x.ctlq.filter (fun f => f.code ≠ 2 || f.body ≠ [k]) }

/-- The number of the window of LNK.BER counts that a time falls in: a window is 2^24 beats of 16/7 ns (R291, R297). -/
def berWindow (now : Nat) : Nat := 7 * now / 2 ^ 28

/-- At a window's boundary the counts are cleared, but for those held while a wavelength trains or is parked (R297, R300).
Log 39: DEDUCED. -/
def rollBer (x : Port) (now : Nat) : Port :=
  if x.berAt < berWindow now then
    { x with berAt := berWindow now,
             ber := (List.range 8).map (fun k => if (x.training ||| x.parked).getLsbD k then x.ber.getD k 0 else 0) }
  else x

/-- A port with the counts of the window of now. -/
def portNow (s : State) (p : Nat) : Port := rollBer (portGet s p) s.time

/-- BER_WINDOW (R297, R300): a window of 2^24 beat times ends. Event data: port. -/
def execBerWindow (s : State) : Out :=
  let p := s.inp.a.headD 0
  .next (portPut s p (portNow s p))

/-- RETRAIN of a wavelength waits to be sent. -/
def asksRetrain (x : Port) (k : Nat) : Bool := x.ctlq.any (fun f => f.code == 2 && f.body == [k])

/-- BER_THRESHOLD (R297, R333): the receiver's count has reached LNK.THR, and RETRAIN is to be sent. Event data: port,
wavelength. -/
def execBerThreshold (s : State) : Out :=
  let p := s.inp.a.headD 0
  let k := s.inp.a.getD 1 0
  let x := portNow s p
  if x.active.getLsbD k = true ∧ x.thr.toNat ≤ x.ber.getD k 0 ∧ asksRetrain x k = false then .next (portPut s p (x.send 2 [k])) else .next s

/-- A RETRAIN control flit arrives (R333). -/
def rxRetrain (x : Port) (now k : Nat) : Port := if x.active.getLsbD k then dropWl x now k else x

/-- RETRAIN (R333). Event data: port, wavelength. -/
def execRetrain (s : State) : Out :=
  let p := s.inp.a.headD 0
  .next (portPut s p (rxRetrain (portGet s p) s.time (s.inp.a.getD 1 0)))

/-- One bit of CRC-32C, reflected. -/
def crcBits : Nat → Nat → Nat
  | 0, c => c
  | n + 1, c => crcBits n (if c % 2 = 1 then (c / 2).xor 0x82F63B78 else c / 2)

/-- CRC-32C of a byte sequence (R298). -/
def crc32c (l : List Nat) : Nat := (l.foldl (fun c b => crcBits 8 (c.xor (b % 256))) 0xFFFFFFFF).xor 0xFFFFFFFF

/-- The key of a wavelength's retrain count in the window counts (R395). -/
def retrainKey (p k : Nat) : Nat := portUnit p * 2 ^ 40 + p * 8 + k

/-- How often a training has failed in a row. -/
def failCount (x : Port) (k : Nat) : Nat := ((x.fails.find? (fun f => f.1 == k)).map (·.2)).getD 0

/-- A wavelength is retired: it leaves the mask at the next boundary; with the last one the port goes down (R397). -/
def retireWl (s : State) (p : Nat) (x : Port) (k : Nat) : State :=
  let x := { x with retired := x.retired ||| wl k, training := x.training &&& ~~~(wl k), waking := x.waking &&& ~~~(wl k) }
  if x.retired = 0xFF then portDown s p x else portPut s p x

/-- One more in a window count (R395). -/
def winUp (s : State) (key : Nat) : State := { s with rowWin := smPut 0 s.rowWin key (smGet 0 s.rowWin key + 1) }

/-- A wavelength whose retrains have reached LIMIT is retired, with a record (R395, R397). -/
def retireTrained (p k : Nat) (s : State) : State :=
  let s := logPort { s with rowRetired := retrainKey p k :: s.rowRetired } p 3 1
  retireWl s p (portGet s p) k

/-- A successful retrain of a wavelength is counted (R395): at LIMIT it is retired at once (R397). -/
def countRetrain (p k : Nat) (s : State) : State :=
  let u := portUnit p
  let key := retrainKey p k
  let s := winUp (rollWin s u) key
  if s.rowRetired.contains key = true ∨ winLimit s u = 0 ∨ smGet 0 s.rowWin key < winLimit s u then s
  else retireTrained p k s

/-- Retrainings of wavelengths have ended in success: their counts are cleared and RTCNT rises (R297 step 3, R333). -/
def retrained (s : State) (p : Nat) (x : Port) (done : BitVec 8) : State :=
  let x := { x with lastFail := false,
                    ber := (wls done).foldl (fun l k => setCnt l k 0) x.ber,
                    rtcnt := (wls done).foldl (fun l k => setCnt l k (min 255 (l.getD k 0 + 1))) x.rtcnt,
                    fails := x.fails.filter (fun f => !done.getLsbD f.1) }
  (wls done).foldl (fun s k => countRetrain p k s) (portPut s p x)

/-- A training of wavelength k, or of the whole port (8), has failed (R298): it runs again, and the third failure in a row
retires the wavelength, or takes the port down. -/
def trainFail (s : State) (p : Nat) (x : Port) (k : Nat) : State :=
  let n := failCount x k + 1
  let x := { x with fails := x.fails.filter (fun f => f.1 ≠ k), own := none, theirs := none }
  if n < 3 then portPut s p ({ x with fails := (k, n) :: x.fails }.begin k s.time)
  else if x.full then portDown s p { x with lastFail := true }
  else retireWl (logPort s p 5 1) p { x with lastFail := true } k

/-- Both training-complete sets of a port are in (R298): with one digest the configuration takes effect, and a wavelength that
did not train leaves the port for good; else training runs again on what both ends report.
Log 38: DEDUCED. -/
def trainSets (s : State) (p : Nat) (x : Port) (a b : TrainSet) : State :=
  let both := x.training &&& a.mask &&& b.mask
  let y := { x with own := none, theirs := none }
  if a.digest = b.digest then
    if x.full then
      let up := x.training &&& a.mask
      let y := { y with st := 2, full := false, training := 0, speed := a.speed, lastFail := false, fails := [], trainAt := [],
                        rtk := 0, retired := (x.retired &&& ~~~up) ||| (x.training &&& ~~~a.mask) }
      let m := y.active
      if y.retired = 0xFF then portDown s p y
      else retrained s p { y with txMask := m, txNext := m, rxMask := m, rxNext := m } (x.rtk &&& up)
    else retrained s p { y with training := x.training &&& ~~~both, trainAt := y.trainAt.filter (fun t => !both.getLsbD t.1) } both
  else
    let y := { y with speed := max a.speed b.speed }
    if x.full then
      portPut s p ({ y with training := both, retired := x.retired ||| (x.training &&& ~~~both) }.begin 8 s.time)
    else
      let s := portPut s p ((wls both).foldl (fun (y : Port) k => y.begin k s.time) y)
      (wls (x.training &&& (a.mask ||| b.mask) &&& ~~~both)).foldl (fun s k => trainFail s p (portGet s p) k) s

/-- A port has got one more training-complete set (R298). -/
def trainStep (s : State) (p : Nat) : State :=
  let x := portGet s p
  match x.own, x.theirs with
  | some a, some b => if x.training = 0 then s else trainSets s p x a b
  | _, _ => s

/-- The 8 bytes of a wavelength map. -/
def mapBytes (l : List Nat) : List Nat := (List.range 8).map (fun j => l.getD j 0xFF % 256)

/-- This end's training ends (R298): its set, with the digest, is sent as a control flit. -/
def ownTrained (x : Port) (mask speed : Nat) (map : List Nat) : Port :=
  let d := crc32c ([mask % 256] ++ mapBytes map ++ [speed])
  { x.send 3 (leNats 4 d ++ [mask % 256] ++ mapBytes map ++ [speed]) with
    own := some ⟨d, BitVec.ofNat 8 mask, mapBytes map, speed⟩ }

/-- TRAINDONE (R298): this end's training ends, or the peer's training-complete set arrives. Event data: port, 0 for this end's
or 1 for the peer's, mask, speed code, the digest (the peer's) or the fibre delay measured (this end's); list: the wavelength
map. -/
def execTraindone (s : State) : Out :=
  let g := fun n => s.inp.a.getD n 0
  let p := g 0
  let x := portGet s p
  if x.training = 0 then .next s
  else if g 1 = 0 then
    .next (trainStep (portPut s p { ownTrained x (g 2) (g 3) s.inp.data with fibre := g 4 }) p)
  else .next (trainStep (portPut s p { x with theirs := some ⟨g 4, BitVec.ofNat 8 (g 2), mapBytes s.inp.data, g 3⟩ }) p)

/-- A training has lasted more than 100 µs (R298). -/
def trainDue (x : Port) (now k : Nat) : Bool := x.trainAt.any (fun t => t.1 == k && decide (t.2 + 100000 < now))

/-- TRAINING_TIMEOUT (R298): an attempt has lasted over 100 µs. Event data: port, wavelength (of no account while the whole
port trains). -/
def execTrainingTimeout (s : State) : Out :=
  let p := s.inp.a.headD 0
  let x := portGet s p
  let k := if x.full then 8 else s.inp.a.getD 1 0
  if trainDue x s.time k = false ∨ (x.full = false ∧ x.training.getLsbD k = false) then .next s
  else .next (trainFail s p x k)

/-- WAVELENGTH_RETIRE (R395, R397): a wavelength whose retrains stand at LIMIT is retired. Event data: port, wavelength. -/
def execWavelengthRetire (s : State) : Out :=
  let p := s.inp.a.headD 0
  let k := s.inp.a.getD 1 0
  let key := retrainKey p k
  if 8 ≤ k ∨ s.rowRetired.contains key = true ∨ winLimit s (portUnit p) = 0 ∨ winCount s (portUnit p) key < winLimit s (portUnit p) then .next s
  else
    let s := logPort { s with rowRetired := key :: s.rowRetired } p 3 1
    .next (retireWl s p (portGet s p) k)

/-! ### Parking and waking (R299, R300, R335) -/

/-- A wake starts for parked wavelengths of a mask (R299). -/
def startWake (x : Port) (m : BitVec 8) : Port :=
  let w := x.parked &&& m
  { x with park := x.park &&& ~~~m, peerPark := x.peerPark &&& ~~~m, waking := x.waking ||| w,
           parkReq := x.parkReq &&& ~~~m, peerAligned := x.peerAligned &&& ~~~w, selfAligned := x.selfAligned &&& ~~~w }

/-- A write of LNK.PARK at this end (R299); none where it would leave no wavelength active or waking. -/
def writePark (x : Port) (v : BitVec 8) : Option Port :=
  let set := v &&& ~~~x.park
  let clr := x.park &&& ~~~v
  if (~~~(x.retired ||| x.training ||| v ||| (x.peerPark &&& ~~~clr)) ||| x.waking) = 0 then none
  else
    let x := if clr = 0 then x else (startWake x clr).send 5 [clr.toNat]
    let x := { x with park := v, parkReq := x.parkReq ||| (set &&& x.waking) }
    some (if set = 0 then x else x.send 4 [v.toNat])

/-- The port that the event's datum 0 names changes under an MTC of the slot in issue. -/
def linkWrite (i : Instr) (f : State → Port → Option Port) (s : State) : Out :=
  run i { sys := true } (fun s =>
    let p := inA s 0
    match f s (portGet s p) with
    | some x => .done (advance (portPut s p x))
    | none => .trap (illegalTrap s (match fetchWord s (pcOf s) with
      | some (w, _) => w
      | none => 0))) s

/-- LINK_PARK (R299): an MTC to LNK.PARK. Event data: port, value. -/
def execLinkPark (s : State) : Out := linkWrite .linkPark (fun s x => writePark x (BitVec.ofNat 8 (inA s 1))) s

/-- A write of LNK.CTL (R296).
Log 37: DEDUCED. -/
def writeCtl (x : Port) (now : Nat) (v : Word) : Port :=
  let x := { x with ctl := v &&& 7 }
  if v.getLsbD 1 then startFull x now true else x

/-- LINK_TRAIN (R296): an MTC to LNK.CTL that sets TRAIN. Event data: port. -/
def execLinkTrain (s : State) : Out := linkWrite .linkTrain (fun s x => some (writeCtl x s.time (x.ctl ||| 2))) s

/-- PARKSET (R299): the peer's LNK.PARK. Event data: port, value. -/
def rxParkset (x : Port) (v : Nat) : Port :=
  let m := BitVec.ofNat 8 v
  { x with peerPark := m, parkReq := x.parkReq ||| (m &&& ~~~x.peerPark &&& x.waking) }

/-- PARKSET (R299). Event data: port, value. -/
def execParkset (s : State) : Out :=
  let p := s.inp.a.headD 0
  .next (portPut s p (rxParkset (portGet s p) (s.inp.a.getD 1 0)))

/-- WAKE (R299): bits of this end's LNK.PARK are cleared. Event data: port, value. -/
def execWake (s : State) : Out :=
  let p := s.inp.a.headD 0
  .next (portPut s p (startWake (portGet s p) (BitVec.ofNat 8 (s.inp.a.getD 1 0))))

/-- The peer reports alignment (R299). -/
def rxAligned (x : Port) (v : Nat) : Port := { x with peerAligned := x.peerAligned ||| (BitVec.ofNat 8 v &&& x.waking) }

/-- ALIGNED (R299, R334). Event data: port, value. -/
def execAligned (s : State) : Out :=
  let p := s.inp.a.headD 0
  .next (portPut s p (rxAligned (portGet s p) (s.inp.a.getD 1 0)))

/-- WAKE_COMPLETE (R299, R334): this end is aligned and says so; once both are, the woken wavelengths join the mask at
the next flit. Event data: port. -/
def execWakeComplete (s : State) : Out :=
  let p := s.inp.a.headD 0
  let x := portGet s p
  let x := if x.waking &&& ~~~x.selfAligned = 0 then x
    else { x.send 6 [x.waking.toNat] with selfAligned := x.waking }
  let both := x.waking &&& x.peerAligned &&& x.selfAligned
  .next (portPut s p { x with waking := x.waking &&& ~~~both, peerAligned := x.peerAligned &&& ~~~both,
                              selfAligned := x.selfAligned &&& ~~~both })

/-! ### Sending (R288 to R293, R332 to R335) -/

/-- A slot's width in ns (R323). -/
def widthNs (g : Graticule) : Nat := 2500 * 2 ^ g.width

/-- The occurrence in progress: its start and slot (R323). -/
def occNow (s : State) : Option (Nat × Nat) :=
  if s.grat.nslot = 0 ∨ s.time < s.grat.epoch then none
  else
    let k := (s.time - s.grat.epoch) / widthNs s.grat
    some (s.grat.epoch + k * widthNs s.grat, k % s.grat.nslot)

/-- The rotor port, up, whose core matches this device to a node in a slot. -/
def rotorPort (s : State) (slot node : Nat) : Option Nat :=
  ((List.range 16).map (16 + ·)).find? (fun p => (s.grat.slots.getD slot []).getD (p - 16) 255 = node && (portGet s p).st = 2)

/-- A quota entry's fields (R323): job key, destination, first hop, slot, second slot, quota. -/
def quotaEntry (q : Nat) : Word × Nat × Nat × Nat × Nat × Nat :=
  let dest := fld q 63 56
  let via := fld q 55 48
  (wd (fld q 127 64), dest, if via = 255 then dest else via, fld q 47 42, fld q 41 36, fld q 31 0)

/-- A packet may cross the rotor plane now (R322 to R324, R329): the device is synchronised, the guard is over, and the slot in
progress matches its port to its next hop and is granted to its job for its destination, or is the slot that a relay holds it
for. -/
def rotorOpen (s : State) (p : Nat) (q : Packet) : Bool :=
  match occNow s with
  | none => false
  | some (start, slot) =>
    s.sync = 1 && decide (start + 800 ≤ s.time) && rotorPort s slot q.dst == some p &&
    (if q.kind = 11 then q.words.getD 7 0 = slot
     else s.grat.quota.any (fun e => let (job, dest, via, sl, _, _) := quotaEntry e
       job == q.key && dest == q.words.getD 5 0 && via == q.dst && sl == slot))

/-- The packet is a paused call's data (R326). -/
def callPaused (s : State) (q : Packet) : Bool :=
  q.kind = 7 && s.calls.any (fun c => c.paused.isSome && c.handle.toNat == q.words.getD 1 0 && c.num.toNat == q.words.getD 2 0)

/-- A packet waits for a port, or for the partner of a port that is down (R295). -/
def onPort (s : State) (p : Nat) (q : Packet) : Bool :=
  q.port = p || (decide (p < 16) && q.port = p.xor 1 && (portGet s q.port).st = 0)

/-- The queue of a port's channel, in order. -/
def queueAll (s : State) (p : Nat) (vc : Bool) : List Packet := s.sent.filter (fun q => onPort s p q && (q.kind = 5) = vc)

/-- What of it may leave now. -/
def queueFor (s : State) (p : Nat) (vc : Bool) : List Packet :=
  (queueAll s p vc).filter (fun q => !callPaused s q && (decide (p < 16) || rotorOpen s p q))

/-- The flits that packets fill, so much room being left in the last one (R332). -/
def flitsFor : Nat → List Nat → Nat
  | _, [] => 0
  | room, n :: r =>
    if n ≤ room then flitsFor (room - n) r
    else let k := (n + 231) / 232; k + flitsFor (232 * k - n) r

/-- What is left of a packet longer than a flit. -/
def Port.rest (x : Port) : Nat := (x.carry.map (fun c => c.1.size - c.2)).getD 0

/-- The depth of a port's send queue in flits, both channels together (R335): what is left of a packet begun first, and what fits
behind it is of its channel. -/
def depthOf (s : State) (p : Nat) (x : Port) : Nat :=
  let k := (x.rest + 231) / 232
  let room := 232 * k - x.rest
  let vc : Bool := (x.carry.map (fun c => decide (c.1.kind = 5))).getD false
  k + flitsFor (if vc then 0 else room) ((queueAll s p false).map (·.size)) + flitsFor (if vc then room else 0) ((queueAll s p true).map (·.size))

/-- The auto-wake condition at a boundary, and WAKE as the flit that starts there (R299, R335). -/
def autoWake (x : Port) (depth : Nat) : Option (Flit × Port) :=
  let m := x.park ||| x.peerPark
  if x.ctl.getLsbD 2 && decide (x.qthr.toNat < depth) && m ≠ 0 then
    some (⟨0, 0, 0, 2, 0, 0, 5, false, [m.toNat], []⟩, startWake x 0xFF)
  else none

/-- The packets from the front that fit a room whole (R332). -/
def fitting : Nat → List Packet → List Packet
  | _, [] => []
  | room, q :: r => if q.size ≤ room then q :: fitting (room - q.size) r else []

/-- Credits of a channel (R293). -/
def credit (c : Nat × Nat) (vc : Bool) : Nat := if vc then c.2 else c.1

/-- Add to the credits of a channel. -/
def addCredit (c : Nat × Nat) (vc : Bool) (n : Nat) : Nat × Nat := if vc then (c.1, c.2 + n) else (c.1 + n, c.2)

/-- A data flit of a channel (R332): what is left of a long packet first, then the whole packets that fit; a packet starts only
with credit for all its flits (R293). The packets that leave the queue, the flit, and the port.
Log 95: DESIGN CHOICE. -/
def dataFlit (s : State) (p : Nat) (x : Port) (vc : Bool) : Option (List Packet × Flit × Port) :=
  match x.carry with
  | some (q, at_) =>
    if 16 ≤ p ∧ rotorOpen s p q = false then none
    else
    let n := min 232 (q.size - at_)
    let l := fitting (232 - n) (queueFor s p (q.kind = 5))
    some (l, ⟨0, 0, 0, 1, 0, 0, if l.isEmpty then 31 else n / 8, q.kind = 5, [at_], q :: l⟩,
      { x with carry := if at_ + n < q.size then some (q, at_ + n) else none })
  | none =>
    match queueFor s p vc with
    | [] => none
    | q :: r =>
      let k := (q.size + 231) / 232
      if credit x.credits vc < k then none
      else
        let l := if q.size ≤ 232 then fitting (232 - q.size) r else []
        let c := if vc then (x.credits.1, x.credits.2 - k) else (x.credits.1 - k, x.credits.2)
        some (q :: l, ⟨0, 0, 0, 1, 0, 0, 0, vc, [0], q :: l⟩,
          { x with credits := c, carry := if q.size ≤ 232 then none else some (q, 232) })

/-- A flit that starts with a new SEQ (R289, R332): no flit before it has that number any more. -/
def Port.fresh (x : Port) (f : Flit) : Flit × Port :=
  let f := { f with seq := x.txSeq }
  (f, { x with txSeq := (x.txSeq + 1) % 4096, history := (f :: x.history).take 256, tries := x.tries.filter (fun t => t.1 ≠ x.txSeq) })

/-- The flit that starts at a boundary, the packets that leave the queue with it, the port after it, and whether the flit is new:
WAKE where auto-wake begins, else a resend, a control flit, data of the channel asked for or of the other, or idle (R292, R332,
R335). Wavelength k drops out with RETRAIN(k) (R333). -/
def nextFlit (s : State) (p : Nat) (x : Port) (vc : Bool) : List Packet × Flit × Port × Bool :=
  match autoWake x (depthOf s p x) with
  | some (f, x) =>
    let (f, x) := x.fresh f
    if x.resend.isEmpty then ([], f, x, true) else ([], f, { x with resend := x.resend ++ [f] }, true)
  | none =>
    match x.resend, x.ctlq with
    | f :: r, _ => ([], f, { x with resend := r, fecUnc := x.fecUnc + 1 }, false)
    | [], c :: r =>
      let (f, x) := { x with ctlq := r }.fresh c
      ([], f, if c.code = 2 then rxRetrain x s.time (c.body.headD 0) else x, true)
    | [], [] =>
      match (dataFlit s p x vc).orElse (fun _ => dataFlit s p x (!vc)) with
      | some (l, f, x) => let (f, x) := x.fresh f; (l, f, x, true)
      | none => let (f, x) := x.fresh ⟨0, 0, 0, 0, 0, 0, 0, false, [], []⟩; ([], f, x, true)

/-- The fields of a header that a flit takes as it starts (R289): ACK and NMASK, and a new flit the credits returned, which one sent
again returns again. -/
def stampFlit (f : Flit) (x : Port) (new : Bool) : Flit × Port :=
  let q := min 255 x.owed.1
  let r := min 255 x.owed.2
  let f := { f with ack := (x.rxSeq + 4095) % 4096, nmask := x.txNext.toNat }
  if new then
    let f := { f with crq := q, crs := r }
    (f, { x with owed := (x.owed.1 - q, x.owed.2 - r), history := x.history.map (fun g => if g.seq = f.seq then f else g),
                 resend := x.resend.map (fun g => if g.seq = f.seq then f else g) })
  else (f, x)

/-- The header of a flit (R289). -/
def Flit.header (f : Flit) : Nat :=
  f.seq * 2 ^ 52 + f.ack * 2 ^ 40 + f.nmask * 2 ^ 32 + f.typ * 2 ^ 28 + f.crq * 2 ^ 20 + f.crs * 2 ^ 12 + f.code * 2 ^ 7 +
    (if f.vc then 64 else 0)

/-- The bytes of packets in a flit, the first of them from a place on. -/
def packetLine : Nat → List Packet → List Nat
  | _, [] => []
  | at_, q :: r => ((List.range (q.size - at_)).map (fun i => Config.packetByte q.kind q.dst q.words (at_ + i))) ++ packetLine 0 r

/-- The payload of a flit (R290, R332). -/
def Flit.payload (f : Flit) : List Nat :=
  let l := if f.typ = 1 then packetLine (f.body.headD 0) f.packets else f.body
  (l ++ List.replicate 232 0).take 232

/-- The 256 bytes of a flit (R288): header, payload, and the check bytes of both codewords. -/
def Flit.bytes (f : Flit) : List Nat := withChecks (leNats 8 f.header ++ f.payload)

/-- A collective packet of this device that the granary switch on its static port does not accept is dropped there, and the switch
logs it (R307). -/
def refuseOut (p : Nat) (s : State) (q : Packet) : State :=
  if p < 16 ∧ 6 ≤ q.kind ∧ q.kind ≤ 10 ∧ swAccept s (p / 2) s.node q.key q.grp = false then
    logOpen s (portUnit p) 7 2 (Config.fabricAddr p s.node)
  else s

/-- A flit starts: it is striped over the mask that the last one named, and names the mask of the flit after it (R291); a park that
waited for a wake takes effect after the flit that names the woken wavelengths (R300, R334). -/
def startFlit (s : State) (p : Nat) (x : Port) (vc : Bool) : State :=
  let old := x.txNext
  let (l, f, x, new) := nextFlit s p x vc
  let x := { x with txMask := if x.full then 0 else old, txNext := x.active, txCount := x.txCount + 1 }
  let (f, x) := stampFlit f x new
  let x := { x with parkReq := x.parkReq &&& x.waking, line := f.bytes }
  l.foldl (refuseOut p) { portPut s p x with sent := l.foldl (fun q k => q.erase k) s.sent }

/-- FLIT_BOUNDARY (R291, R332, R334, R335): the next flit of a port starts; while the whole port trains, the flit that carries its
training-complete set alone, before whatever else waits. Links 32 and 33, the host's and a switch's own to another device, deliver
the next of what waits for them. Event data: port, and 1 where a data flit is to be of the response
channel. -/
def execFlitBoundary (s : State) : Out :=
  let p := s.inp.a.headD 0
  let x := portGet s p
  if 32 ≤ p then .next { s with sent := s.sent.eraseP (fun q => q.port = p) }
  else if s.halted = true then .next s
  else if x.st = 2 then .next (startFlit s p x (s.inp.a.getD 1 0 = 1))
  else
    match (if x.st = 1 then x.ctlq.find? (fun c => c.code = 3) else none) with
    | some c =>
      let (f, x) := { x with ctlq := x.ctlq.erase c }.fresh c
      let (f, x) := stampFlit f x true
      .next (portPut s p { x with line := f.bytes, txCount := x.txCount + 1 })
    | none => .next s

/-! ### Receiving (R288, R289, R292, R297) -/

/-- The wavelength that carries a beat of a flit striped over a mask (R291). -/
def beatWl (m : BitVec 8) (beat : Nat) : Option Nat := let l := wls m; l[beat % max 1 l.length]?

/-- Count one corrected symbol at a byte of a flit that arrived on a mask (R297). -/
def countSymbol (m : BitVec 8) (x : Port) (b : Nat) : Port :=
  match beatWl m (b / 32) with
  | some k => { x with ber := setCnt x.ber k (min (2 ^ 32 - 1) (x.ber.getD k 0 + 1)) }
  | none => x

/-- A flit that arrived on a mask is discarded for its errors (R288, R297). -/
def countDiscard (m : BitVec 8) (x : Port) : Port :=
  (wls m).foldl (fun (x : Port) k =>
    if (List.range 8).any (fun j => beatWl m j = some k) then { x with ber := setCnt x.ber k (min (2 ^ 32 - 1) (x.ber.getD k 0 + 32)) }
    else x) x

/-- A flit has been discarded: the missing one is asked for (R292). -/
def askRetry (x : Port) : Port := x.send 1 (leNats 2 x.rxSeq)

/-- A RETRY arrives (R292): the flits from a SEQ on, of those that are kept, are sent again; after 16 resends of one SEQ the port goes
down. -/
def rxRetry (s : State) (p seq : Nat) : State :=
  let x := portGet s p
  let n := ((x.tries.find? (fun t => t.1 == seq)).map (·.2)).getD 0
  if x.history.all (fun f => f.seq ≠ seq) then s
  else if 16 ≤ n then portDown s p x
  else
    let upTo := (x.history.takeWhile (fun f => f.seq ≠ seq)).length + 1
    portPut s p { x with resend := (x.history.take upTo).reverse, tries := (seq, n + 1) :: x.tries.filter (fun t => t.1 ≠ seq) }

/-- RETRY (R292). Event data: port, seq. -/
def execRetry (s : State) : Out := .next (rxRetry s (s.inp.a.headD 0) (s.inp.a.getD 1 0))

/-! ### Device time (R320 to R322) -/

/-- Integers in ascending order. -/
def insAsc (a : Int) : List Int → List Int
  | [] => [a]
  | b :: r => if a ≤ b then a :: b :: r else b :: insAsc a r

/-- The median of skews; of an even number, the value brought, between the two in the middle.
Log 76: DESIGN CHOICE. -/
def medianSkew (l : List Int) (pick : Int) : Int :=
  let x := l.foldl (fun s a => insAsc a s) []
  let a := x.getD ((x.length - 1) / 2) 0
  let b := x.getD (x.length / 2) 0
  max a (min b pick)

/-- Device time is corrected for a skew (R320): slewed for up to 0.4 µs; else a device behind steps forward, and one ahead holds
its count. -/
def correctTime (s : State) (σ : Int) : State :=
  if max σ (-σ) ≤ 400 then { s with slew := σ, hold := 0 }
  else if σ < 0 then { s with time := s.time + (-σ).toNat, slew := 0, hold := 0 }
  else { s with hold := σ.toNat, slew := 0 }

/-- A rotor port is up. -/
def rotorUp (s : State) : Bool := (List.range 16).any (fun q => (portGet s (16 + q)).st = 2)

/-- So many ns pass on the reference clock (R320, R321): what is held is not counted, and a slew of up to 200 ppm takes away from
the skew that is left; with no rotor port up nothing is slewed.
Log 77: DESIGN CHOICE. -/
def passTime (s : State) (n : Nat) (adj : Int) : State :=
  let k := min n s.hold
  let cap : Int := if rotorUp s then ((n - k) / 5000 : Nat) else 0
  let d : Int := if 0 < s.slew then -(min (min cap s.slew) (max 0 (-adj))) else min (min cap (-s.slew)) (max 0 adj)
  { s with time := (((s.time + (n - k) : Nat) : Int) + d).toNat, hold := s.hold - k, slew := s.slew + d }

/-- A record of lost or regained synchronisation (R322, R390). -/
def logSkew (s : State) (port : Nat) : State := logOpen s (112 + port / 2) 5 1 (Config.fabricAddr port s.node)

/-- The latest skews of the active rotor ports (R320). -/
def rotorSkews (s : State) : List Int :=
  (List.range 16).filterMap (fun q => let x := portGet s (16 + q); if x.st = 2 then x.skew else none)

/-- The device acts on the median skew (R320 to R322), its latest beacon having come at a port. -/
def actOnSkew (s : State) (port : Nat) (pick : Int) : State :=
  let σ := medianSkew (rotorSkews s) pick
  let far := decide ((widthNs s.grat : Int) < max σ (-σ))
  if rotorSkews s = [] then s
  else match s.sync with
    | 0 => { s with time := s.time + (-σ).toNat, sync := 1, syncAt := s.time + (-σ).toNat }
    | 1 => if far then logSkew { s with sync := 2, goodSkews := 0 } port else correctTime s σ
    | _ =>
      if far then { s with goodSkews := 0 }
      else if s.goodSkews + 1 < 4 then { s with goodSkews := s.goodSkews + 1 }
      else
        let s := correctTime { s with sync := 1, goodSkews := 0 } σ
        logSkew { s with syncAt := s.time } port

/-- A beacon arrives at a rotor port (R320): its skew is the device's own time less the slot's start and the fibre's delay. -/
def rxBeacon (s : State) (p start : Nat) (pick : Int) : State :=
  let x := portGet s p
  if p < 16 ∨ 32 ≤ p ∨ x.st ≠ 2 then s
  else actOnSkew (portPut s p { x with skew := some ((s.time : Int) - ((start + x.fibre : Nat) : Int)) }) p pick

/-- A signed number from its magnitude and sign. -/
def signed (m neg : Nat) : Int := if neg = 1 then -(m : Int) else m

/-- BEACON (R320 to R322). Event data: rotor port, the slot's start time, and magnitude and sign of a median between two middle
skews. -/
def execBeacon (s : State) : Out :=
  let g := fun n => s.inp.a.getD n 0
  .next (rxBeacon s (g 0) (g 1) (signed (g 2) (g 3)))

/-! ### Receiving -/

/-- A control flit delivered in order takes effect (R290); a reserved code is logged. -/
def rxControl (s : State) (p code : Nat) (body : List Nat) : State :=
  let b := fun n => body.getD n 0
  let le := fun i n => (List.range n).foldr (fun j m => 256 * m + b (i + j)) 0
  let x := portGet s p
  match code with
  | 1 => rxRetry s p (le 0 2 % 4096)
  | 2 => portPut s p (rxRetrain x s.time (b 0))
  | 3 => if x.training = 0 then s
      else trainStep (portPut s p { x with theirs := some ⟨le 0 4, BitVec.ofNat 8 (b 4), (body.drop 5).take 8, b 13⟩ }) p
  | 4 => portPut s p (rxParkset x (b 0))
  | 5 => portPut s p (startWake x (BitVec.ofNat 8 (b 0)))
  | 6 => portPut s p (rxAligned x (b 0))
  | 7 => rxBeacon s p (le 0 8) (signed (s.inp.a.getD 1 0) (s.inp.a.getD 2 0))
  | _ => logPort s p 5 1

/-- A flit that is to be delivered (R289): its ACK and credits are taken, and a data flit's credit is owed back. -/
def rxFlit (x : Port) (hdr : Nat) : Port :=
  let vc : Bool := fld hdr 6 6 = 1
  { x with rxSeq := (x.rxSeq + 1) % 4096, peerAck := fld hdr 51 40,
           credits := (x.credits.1 + fld hdr 27 20, x.credits.2 + fld hdr 19 12),
           owed := if fld hdr 31 28 = 1 then addCredit x.owed vc 1 else x.owed }

/-- A flit that decodes is counted on the mask it came over, and names the mask of the next one, whether or not it is delivered
(R291, R297). -/
def rxCounted (x : Port) (errs : List Nat) (hdr : Nat) : Port :=
  let m := x.rxNext
  let x := { errs.foldl (countSymbol m) x with rxMask := m, rxNext := BitVec.ofNat 8 (fld hdr 39 32) }
  if errs.isEmpty then x else { x with fecCor := x.fecCor + 1 }

/-- FLIT_RECEIVE (R288, R289, R291, R292, R297): the flit is decoded, counted on the mask it came over, and taken in SEQ order; one
that cannot be corrected is discarded and asked for again. What the packets of a data flit ask comes as events of their own.
Event data: port; list: the flit's 256 bytes as they arrive.
Log 40: DEDUCED. -/
def execFlitReceive (s : State) : Out :=
  let p := s.inp.a.headD 0
  let x := portNow s p
  match decodeFlit (((s.inp.data.map (· % 256)) ++ List.replicate 256 0).take 256) with
  | none => .next (portPut s p (askRetry { countDiscard x.rxNext x with rxMask := x.rxNext }))
  | some (bytes, errs) =>
    let hdr := (List.range 8).foldr (fun j m => 256 * m + bytes.getD j 0) 0
    let x := rxCounted x errs hdr
    if fld hdr 63 52 ≠ x.rxSeq then .next (portPut s p x)
    else
      let s := portPut s p { rxFlit x hdr with rxCount := x.rxCount + 1 }
      match fld hdr 31 28 with
      | 0 => .next s
      | 1 => .next s
      | 2 => .next (rxControl s p (fld hdr 11 7) ((bytes.drop 8).take 232))
      | _ => .next (logPort s p 5 1)

end Sys2Proof.Machine
end

