-- ==== Sys2Proof/Machine/Calls.lean ====
section
/-!
DEFINITION. The device's group table and the packets that collective calls exchange (18 R307, R308, R316, R326, R327):
what other parts of the device need of a call.
-/
namespace Sys2Proof.Machine

open Sys2Proof

/-- This device's group table holds the handle under the job key, with the source as a member (R307). -/
def devAccept (s : State) (src : Nat) (jobkey : Word) (grp : BitVec 16) : Bool :=
  match smGet none s.groups grp.toNat with
  | some g => g.valid && g.jobkey == jobkey && (g.nodes.take g.size).contains src
  | none => false

/-- A packet with a group handle that came through a port is accepted: by the switch on its way, unless it came over the rotor
plane, and by this device (R307). -/
def packetOk (s : State) (port src : Nat) (jobkey : Word) (grp : BitVec 16) : Bool :=
  (decide (16 ≤ port) || swAccept s (port / 2) src jobkey grp) && devAccept s src jobkey grp

/-- A valid group table entry for a handle (R308). -/
def groupFor (s : State) (grp : BitVec 16) : Option Group :=
  if grp = 0 then none
  else match smGet none s.groups grp.toNat with
    | some g => if g.valid then some g else none
    | none => none

/-- The other members of a call's group: rank and node. -/
def Call.peers (s : State) (c : Call) : List (Nat × Nat) :=
  match groupFor s c.handle with
  | none => []
  | some g => ((List.range g.size).zip g.nodes).filter (fun p => p.1 ≠ g.rank)

/-- Replace a call. -/
def putCall (s : State) (c : Call) : State := { s with calls := s.calls.map (fun d => if d.id = c.id then c else d) }

/-- Send a packet of a call to every other member: first packets (kind 6), ABORT (8), PAUSE (9), RESUME (10). -/
def tellPeers (s : State) (c : Call) (kind : Nat) (words : List Nat) : State :=
  (c.peers s).foldl (fun s p => post s c.party.k.badge kind p.2 0 48 none (c.party.k.jobkey.toNat :: c.handle.toNat :: c.num.toNat :: words)) s

/-- A rotation's length in ns. -/
def rotationNs (g : Graticule) : Nat := g.nslot * widthNs g

/-- A member's handling of a pause (R326). -/
def holdCall (s : State) (c : Call) : Call :=
  if c.paused.isSome then c else { c with paused := some s.time, everPaused := true }

/-- The first rotation boundary after now (R326). -/
def nextRotation (s : State) : Nat :=
  let r := rotationNs s.grat
  if r = 0 then s.time
  else if s.time < s.grat.epoch then s.grat.epoch
  else s.grat.epoch + ((s.time - s.grat.epoch) / r + 1) * r

/-- A member's handling of RESUME (R326): the call's timers go on from where they were frozen. -/
def freeCall (s : State) (c : Call) : Call :=
  match c.paused with
  | some t => { c with paused := none, released := false, rotEnd := nextRotation s, since := c.since + (s.time - t) }
  | none => c

/-- Pre-emption or an abort pauses the stook's calls and tells every member (R326, R383).
Log 50: DEDUCED. -/
def pauseCalls (s : State) (stook : Nat) : State :=
  (s.calls.filter (fun c => c.party.stook == stook && !c.mine)).foldl
    (fun s c => putCall (tellPeers s c 9 []) { holdCall s c with mine := true }) s

/-- The stook goes on, and so do its calls (R326). -/
def resumeCalls (s : State) (stook : Nat) : State :=
  (s.calls.filter (fun c => c.party.stook == stook && c.mine)).foldl
    (fun s c => putCall (tellPeers s c 10 []) { freeCall s c with mine := false }) s

end Sys2Proof.Machine
end

