-- ==== Sys2Proof/Machine/Residue.lean ====
section
/-!
DEFINITION. The residue number system (10 R194 to R197, R206; 11 R221): moduli, modes, witness arithmetic and the
mixed-radix rebuilding of an integer.
-/
namespace Sys2Proof.Machine

open Sys2Proof

/-- The moduli of the ten logical channels (R194). -/
def moduli : List Nat := [239, 233, 229, 227, 223, 211, 199, 197, 255, 253]

/-- The modulus of a channel. -/
def modulus (k : Nat) : Nat := moduli.getD k 1

/-- The information channels of a mode (R221). -/
def infoChans (mode : Nat) : List Nat :=
  match mode with
  | 0 => [0, 1, 2, 3, 4, 5, 6, 7]
  | 1 => [0, 1, 2, 3]
  | _ => [4, 5, 6, 7]

/-- The check channels of a mode (R221). -/
def checkChans (mode : Nat) : List Nat :=
  match mode with
  | 0 => [8, 9]
  | 1 => [8]
  | _ => [9]

/-- The channels of a mode (R197). -/
def modeChans (mode : Nat) : List Nat := infoChans mode ++ checkChans mode

/-- The witness threshold code of a mode (R197). -/
def threshold (mode : Nat) : Nat :=
  match mode with
  | 0 => 488
  | 1 => 240
  | _ => 232

/-- The product of the information moduli of a mode: M_I for full range (R195, R197). -/
def rangeProd (mode : Nat) : Nat := (infoChans mode).foldl (fun p k => p * modulus k) 1

/-- The signed range of a mode holds x (R195, R197). -/
def inRange (mode : Nat) (x : Int) : Bool :=
  decide (-((rangeProd mode : Int) / 2) ≤ x) && decide (x ≤ (rangeProd mode : Int) / 2)

/-- x mod m in 0 to m - 1 (R9). -/
def modN (x : Int) (m : Nat) : Nat := (x % (m : Int)).toNat

/-- The inverse of a modulo m. -/
def invMod (a m : Nat) : Nat := ((List.range m).find? (fun i => a * i % m = 1 % m)).getD 0

/-- crt of R221 over (residue, modulus) pairs: one mixed-radix digit per channel, with v and p so far. -/
def crtGo : List (Nat × Nat) → Nat → Nat → Nat × Nat
  | [], v, p => (v, p)
  | (x, m) :: r, v, p =>
    let d := modN ((x : Int) - v) m * invMod (p % m) m % m
    crtGo r (v + d * p) (p * m)

/-- crt of R221: the signed integer centred on zero. -/
def crt (l : List (Nat × Nat)) : Int :=
  let (v, p) := crtGo l 0 1
  if (p + 1) / 2 ≤ v then (v : Int) - p else v

/-- |x| ≤ 2^(w/8). -/
def boundedBy (x : Int) (w : Nat) : Bool := decide (x.natAbs ^ 8 ≤ 2 ^ w)

/-- legit of R221. -/
def legit (mode : Nat) (x : Int) (w : Nat) : Bool := inRange mode x && boundedBy x w

/-- The integer that residues of some channels represent. -/
def rebuild (res : List Nat) (chans : List Nat) : Int := crt (chans.map (fun k => (res.getD k 0, modulus k)))

/-- What the thresher finds of an element (R221). -/
inductive Judged where
  | good (x : Int)
  | corr (x : Int) (ch : Nat)
  | uc (x : Int)
  | range (x : Int)
deriving DecidableEq, Repr

/-- judge of R221, and whether the element was an inconsistent half-range one (MXSTAT.HRDET). -/
def judge (mode : Nat) (res : List Nat) (w : Nat) : Judged × Bool :=
  let x := rebuild res (infoChans mode)
  let ok := (checkChans mode).all (fun k => modN x (modulus k) = res.getD k 0)
  let ok := if w < threshold mode then ok && legit mode x w else ok
  if ok then (.good x, false)
  else if threshold mode ≤ w then (.range x, mode ≠ 0)
  else if mode ≠ 0 then (.uc x, true)
  else
    let cand := (List.range 10).filter (fun j => legit 0 (rebuild res ((modeChans 0).filter (· ≠ j))) w)
    match cand with
    | [j] => (.corr (rebuild res ((modeChans 0).filter (· ≠ j))) j, false)
    | _ => (.uc x, false)

/-- The smallest n with x ≤ 2^n. -/
def clog2 (x : Nat) : Nat := if x ≤ 1 then 0 else (x - 1).log2 + 1

/-- The magnitude class of a nonzero integer, in eighths: ceil8(log2 |x|) (R206). -/
def magClass (x : Int) : Int := clog2 (x.natAbs ^ 8)

/-- How far ceil8(log2(2^(a/8) + 2^(b/8))) lies above max(a, b), for d = |a - b|, in eighths: the least k with
2^(k/8) ≥ 1 + 2^(-d/8) (R206). -/
def sumStep (d : Nat) : Nat :=
  if 28 ≤ d then 1 else if 20 ≤ d then 2 else if 15 ≤ d then 3 else if 11 ≤ d then 4
  else if 8 ≤ d then 5 else if 5 ≤ d then 6 else if 3 ≤ d then 7 else 8

/-- wupd of R206: the witness code after a bound of b eighths. -/
def wupd (w : Nat) (b : Int) : Nat :=
  if w = 1023 then 1023
  else
    let m := max (w : Int) b
    let v := m + sumStep ((w : Int) - b).natAbs
    if 1022 < v then 1023 else v.toNat

end Sys2Proof.Machine
end

