-- ==== Sys2Proof/Machine/Matrix.lean ====
section
/-!
DEFINITION. The residue matrix channels (10 R194 to R215, 04 R106): MMA and ACLR at issue, the stream of tile
operations, operand fetch, and the accumulation of an MMA.
-/
namespace Sys2Proof.Machine

open Sys2Proof

/-! ### Tiles -/

/-- A physical tile of a core. -/
def tileGet (s : State) (core t : Nat) : Tile := smGet (Tile.clear 0) s.tiles (core * 8 + t)

/-- Replace a physical tile. -/
def tilePut (s : State) (core t : Nat) (x : Tile) : State := { s with tiles := smPut (Tile.clear 0) s.tiles (core * 8 + t) x }

/-- The physical tile of a tile name of a stook (R25). -/
def physTile (k : Kernel) (t : Nat) : Option Nat := k.tiles[t]?

/-- The mode that the last ACLR or MMA.CLR issued to a tile sets, finished or not (R202). -/
def issuedMode (s : State) (core t : Nat) : Nat :=
  (s.tileOps.filter (fun o => o.core == core && o.tile == t)).foldl (fun m o =>
    match o.kind with
    | .mma true g _ _ => g
    | .aclr _ => 0
    | _ => m) (tileGet s core t).mode

/-- Put a tile operation in its core's stream (R211). -/
def enterStream (s : State) (p : Party) (t : Nat) (k : TileKind) : State :=
  let (n, s) := freshId s
  { s with tileOps := s.tileOps ++ [⟨n, p, p.core, t, k, false, none⟩] }

/-! ### Operands at issue (R200 to R202, R106) -/

/-- A 4-bit format: Q4X or I4. -/
def is4bit (f : Nat) : Bool := f = 2 || f = 5

/-- K of an MMA (R200). -/
def mmaK (fa fb : Nat) : Nat := if is4bit fa && is4bit fb then 128 else 64

/-- The bytes of a line of an operand image (R201). -/
def lineBytes (f k : Nat) : Nat := if is4bit f then k / 2 else k

/-- The byte ranges of an operand's image in rising order (R201): the whole image, or the planes of the mode and the header. -/
def imageRanges (f k g : Nat) (base : Word) : List (Word × Nat) :=
  if f = 6 then (modeChans g).map (fun c => (base + wd (4096 * c), 4096)) ++ [(base + wd 40960, 64)]
  else [(base, 64 * lineBytes f k + 8 * k)]

/-- The sectors of ranges, by address. -/
def sectorVas (l : List (Word × Nat)) : List Word :=
  l.flatMap (fun p => (List.range ((p.2 + 31) / 32)).map (fun j => p.1 + wd (32 * j)))

/-- What an MMA's checks answer. -/
inductive MRes where
  | ok (a b : Operand) (s : State)
  | trap (cause : Nat) (taddr : Word) (s : State)
  | fault (va : Word) (kind level : Nat) (entry : Word) (s : State)
deriving DecidableEq, Repr

/-- A sector of an operand resolved: its address, page and location. -/
structure MSec where
  va : Word
  pg : Page
  loc : Nat
deriving DecidableEq, Repr

/-- Translate the sectors of an operand in order; the first that faults ends it. -/
def mmaXlate (s : State) (p : Party) : List Word → Except MRes (List MSec × State)
  | [] => .ok ([], s)
  | va :: r =>
    match translate s p.who va with
    | .bad k l e => .error (.fault va k l e s)
    | .ok pg pa new =>
      match pinTake s.pins p.k.ctx va pg with
      | none => .error (.fault va 3 3 pg.entry s)
      | some pins =>
        match mmaXlate (tlbLearn { walkRead s p.who va with pins := pins } new) p r with
        | .ok (l, s) => .ok (⟨va, pg, pageLoc s pg pa⟩ :: l, s)
        | .error e => .error e

/-- The page holds matrix operands of a core (R106). -/
def pinned (core : Nat) (pg : Page) : Bool := (pg.home = 2 && pg.hidx = core) || pg.home = 1

/-- A sector read for the matrix channels: uncorrectable errors found now raise ENGERR for the stook (R208). A page poisoned
on read gives its own tag (R90). -/
def fetchSector (s : State) (stook loc : Nat) (coh pr : Bool) : Sector × State :=
  let held := coh && (smGet none s.cached (loc / 32)).isSome
  let new := decide (2 ≤ smGet 0 s.latent (if held then copyErr (loc / 32) else loc / 32))
  let s := eccRead s coh loc 32
  let s := pinFill (if new then raiseImprecise s stook ENGERR 0 s.eseq else s) coh (loc / 32)
  let x := rdSector s coh (loc / 32)
  (if pr then { x with tag := some 0xD80 } else x, s)

/-- The fields of a plane header (R72): F, SRCFMT, its poison tag and NANPTR. -/
def planeHeader (x : Nat) : Int × Nat × Option (BitVec 12) × Word :=
  (sx 16 (fld x 15 0), fld x 23 16, if fld x 47 47 = 1 then some (BitVec.ofNat 12 (fld x 43 32)) else none, wd (fld x 127 64))

/-- An operand before its checks on homes: its image's sectors, and for PLANES the header read and the bitmap. -/
structure MOpnd where
  secs : List MSec
  bitmap : List MSec
  f : Int
  srcfmt : Nat
  tag : Option (BitVec 12)
deriving DecidableEq, Repr

/-- Translate an operand (R106): the image, then for PLANES the bitmap its header names.
Log 115: DEDUCED. -/
def mmaOpnd (s : State) (p : Party) (f k g : Nat) (base : Word) : Except MRes (MOpnd × State) :=
  match mmaXlate s p (sectorVas (imageRanges f k g base)) with
  | .error r => .error r
  | .ok (secs, s) =>
    if f = 6 then
      match secs.drop (secs.length - 2) with
      | [h0, h1] =>
        if pinned p.core h0.pg = false then .ok (⟨secs, [], 0, 0, none⟩, s)
        else
          let (x0, s) := fetchSector s p.stook h0.loc (pageCoh h0.pg h0.loc) h0.pg.pr
          let (x1, s) := fetchSector s p.stook h1.loc (pageCoh h1.pg h1.loc) h1.pg.pr
          let (fe, sf, tg, ptr) := planeHeader (x0.data.toNat + x1.data.toNat * 2 ^ 256)
          let tag := minTag tg (minTag x0.tag x1.tag)
          let bm := wd (ptr.toNat / 64 * 64)
          if bm = 0 then .ok (⟨secs, [], fe, sf, tag⟩, s)
          else
            let vas := sectorVas [(bm, 512)]
            match vas.find? (fun v => !canonical v) with
            | some v => .error (.trap PERM v s)
            | none => match mmaXlate s p vas with
              | .error r => .error r
              | .ok (bs, s) => .ok (⟨secs, bs, fe, sf, tag⟩, s)
      | _ => .ok (⟨secs, [], 0, 0, none⟩, s)
    else .ok (⟨secs, [], 0, 0, none⟩, s)

/-- The operand as issued: the sectors left to read, the header's two already read. -/
def MOpnd.operand (o : MOpnd) (f : Nat) : Operand :=
  let secs := if f = 6 then o.secs.take (o.secs.length - 2) ++ o.bitmap else o.secs
  { fmt := f, secs := secs.map (fun x => (x.loc, pageCoh x.pg x.loc, x.pg.pr)), f := o.f, srcfmt := o.srcfmt,
    tag := o.tag, bitmap := f = 6 && !o.bitmap.isEmpty, got := [] }

/-- The base alignment of an operand (R201). -/
def baseAlign (f : Nat) : Nat := if f = 6 then 64 else 128

/-- The checks of an MMA on its operands (R202 steps 3 to 5).
Log 114: DESIGN CHOICE. -/
def mmaCheck (s : State) (p : Party) (fa fb g : Nat) (a b : Word) : MRes :=
  let k := mmaK fa fb
  if a.toNat % baseAlign fa ≠ 0 then .trap ALIGN a s
  else if b.toNat % baseAlign fb ≠ 0 then .trap ALIGN b s
  else
    match (sectorVas (imageRanges fa k g a) ++ sectorVas (imageRanges fb k g b)).find? (fun v => !canonical v) with
    | some v => .trap PERM v s
    | none =>
      match mmaOpnd s p fa k g a with
      | .error r => r
      | .ok (x, s) =>
        match mmaOpnd s p fb k g b with
        | .error r => r
        | .ok (y, s) =>
          let all := x.secs ++ x.bitmap ++ y.secs ++ y.bitmap
          match all.find? (fun z => !pinned p.core z.pg) with
          | some z => .trap PIN z.va s
          | none => match all.find? (fun z => !permitted p.who .rd z.pg) with
            | some z => .trap PERM z.va s
            | none => .ok (x.operand fa) (y.operand fb) s

/-- The header of a PLANES operand as accesses of the issuer, where it translates (R202 step 5, R280). -/
def headerAccs (s : State) (p : Party) (f : Nat) (base : Word) : List Acc :=
  if f = 6 then
    [base + wd 40960, base + wd 40992].filterMap (fun va => match translate s p.who va with
      | .ok pg pa _ => some (mkAcc s pg pa 0 32 va 0 0)
      | .bad _ _ _ => none)
  else []

/-- MMA and MMA.CLR at issue (R202): the header of a PLANES operand is read after what happens before the MMA (R280), and not while a
remap runs (R229). -/
def mmaIssue (i : Instr) (clr : Bool) (t a b fa fb g : Nat) (s : State) : Out :=
  run i { sr := [a, b], eng := true, cls := some .tl }
    (fun s =>
      match physTile s.cur.k t with
      | none => illegal s i
      | some pt =>
        if clr = false ∧ g ≠ issuedMode s s.cur.core pt then illegal s i
        else
          let s0 := forkEdge s
          let p := partyOf s0
          if mustWait s0 (headerAccs s0 p fa (getS s a) ++ headerAccs s0 p fb (getS s b)) then .stall
          else match mmaCheck s0 p fa fb g (getS s a) (getS s b) with
          | .trap c v t => keepWalk s t (trapAt s c v 0 0)
          | .fault va kd lv e t => .done (parkSlot t 17 va kd lv e 0)
          | .ok x y s' => .done (advance (countUp (enterStream s' p pt (.mma clr g x y)) .tl))) s

/-- MMA (R202). -/
def execMma (t a b f g m : Nat) (s : State) : Out := mmaIssue (.mma t a b f g m) false t a b f g m s

/-- MMA.CLR (R202, R213). -/
def execMmaClr (t a b f g m : Nat) (s : State) : Out := mmaIssue (.mmaClr t a b f g m) true t a b f g m s

/-- ACLR (R214). -/
def execAclr (t : Nat) (f : Int) (s : State) : Out :=
  run (.aclr t f) { eng := true, cls := some .tl }
    (fun s =>
      match physTile s.cur.k t with
      | none => illegal s (.aclr t f)
      | some pt => .done (advance (countUp (enterStream (forkEdge s) (partyOf (forkEdge s)) pt (.aclr f)) .tl))) s

/-! ### The stream (R211) -/

/-- The half-range groups that an MMA of mode g occupies (R197, R210). -/
def groupsOf (g : Nat) : List Nat :=
  match g with
  | 0 => [0, 1]
  | 1 => [0]
  | _ => [1]

/-- The groups a tile operation occupies. -/
def TileKind.groups : TileKind → List Nat
  | .mma _ g _ _ => groupsOf g
  | _ => []

/-- The next operation of a core's stream may start. -/
def canStart (s : State) (o : TileOp) : Bool :=
  let before := s.tileOps.takeWhile (fun q => q.id ≠ o.id)
  let mine := before.filter (fun q => q.core == o.core)
  s.remap.isNone && edgeDone s o.party && mine.all (·.started) && mine.all (fun q => q.tile ≠ o.tile) &&
  mine.all (fun q => q.kind.groups.all (fun x => !o.kind.groups.contains x))

/-- Replace a tile operation. -/
def putOp (s : State) (o : TileOp) : State := { s with tileOps := s.tileOps.map (fun q => if q.id = o.id then o else q) }

/-- Read the sectors of an operand that satisfy a test and have not been read. -/
def fetchOperand (s : State) (stook : Nat) (o : Operand) (now : Nat → Bool) : Operand × State :=
  ((List.range o.secs.length).zip o.secs).foldl (fun (o, s) q =>
    if now q.1 && (o.got.find? (·.1 == q.1)).isNone then
      let (x, s) := fetchSector s stook q.2.1 q.2.2.1 q.2.2.2
      ({ o with got := o.got ++ [(q.1, x)] }, s)
    else (o, s)) (o, s)

/-- A sector of an MMA that has issued and not started is read early (R212): it waits for what happens before the MMA, and for a
remap. -/
def mmaFetch (s : State) (id : Nat) (isB : Bool) (k : Nat) : State :=
  match s.tileOps.find? (fun o => o.id == id && !o.started) with
  | none => s
  | some o =>
    match o.kind with
    | .mma clr g a b =>
      if s.remap.isSome = true ∨ edgeDone s o.party = false then s
      else
        let (x, s) := fetchOperand s o.party.stook (if isB then b else a) (fun j => j == k)
        putOp s { o with kind := .mma clr g (if isB then a else x) (if isB then x else b) }
    | _ => s

/-- TILE_OP_START (R211): an MMA's operand sectors are read now, but for those that the event leaves for later
(R212). Event data: core; list: the sectors of A, then of B, that are read only at completion.
Log 25: DESIGN CHOICE. -/
def execTileOpStart (s : State) : Out :=
  match s.tileOps.find? (fun o => o.core == s.inp.a.headD 0 && !o.started) with
  | none => .next s
  | some o =>
    if canStart s o = false then .next s
    else match o.kind with
      | .mma clr g a b =>
        let late := s.inp.data
        let (a', s) := fetchOperand s o.party.stook a (fun j => !late.contains j)
        let (b', s) := fetchOperand s o.party.stook b (fun j => !late.contains (a.secs.length + j))
        .next (putOp s { o with started := true, kind := .mma clr g a' b' })
      | _ => .next (putOp s { o with started := true })

/-! ### Ingress (R203 to R207, R68) -/

/-- An element as the channels take it: its combined mantissa's residues, whether it counts as zero, its exponent,
its magnitude class with the exponent in eighths, and whether it is NaN. -/
structure EIn where
  res : List Nat
  zero : Bool
  e : Int
  cls : Int
  nan : Bool
deriving DecidableEq, Repr

/-- An element of no effect. -/
def EIn.none : EIn := ⟨[0, 0, 0, 0, 0, 0, 0, 0, 0, 0], true, 0, 0, false⟩

/-- The residues of an integer in every channel. -/
def residues (x : Int) : List Nat := moduli.map (fun m => modN x m)

/-- An element of mantissa x and exponent e. -/
def eIn (x e : Int) : EIn := if x = 0 then EIn.none else ⟨residues x, false, e, magClass x + 8 * e, false⟩

/-- The integer form of an FP8 code (R68). -/
def fp8Form (mb : Nat) (off : Int) (c : Nat) : Int × Int :=
  let m := c % 2 ^ mb
  let ex := c / 2 ^ mb % 2 ^ (7 - mb)
  let neg := decide (128 ≤ c)
  if ex = 0 then (snum neg m, 1 - off) else (snum neg (2 ^ mb + m), (ex : Int) - off)

/-- The integer forms of a block of eight elements from its codes (R68), and the outliers among them. -/
def blockForms (f : Nat) (bytes : List Nat) : List (Int × Int) × Nat × Nat :=
  match f with
  | 0 => (bytes.map (fun (c : Nat) => ((sx 8 c : Int), (0 : Int))), 0, 0)
  | 1 => (bytes.map (fun (c : Nat) => ((c : Int), (0 : Int))), 0, 0)
  | 3 => (bytes.map (fp8Form 3 10), 0, 0)
  | 4 => (bytes.map (fp8Form 2 17), 0, 0)
  | 5 =>
    let w := bytes.foldr (fun b n => b + 256 * n) 0
    ((List.range 8).map (fun j => (sx4 (w / 16 ^ j % 16), 0)), 0, 0)
  | _ =>
    let w := bytes.foldr (fun b n => b + 256 * n) 0
    let nibble : Nat → Nat := fun j => w / 16 ^ j % 16
    let l := (List.range 8).map (fun j =>
      let o := if j % 2 = 0 then j + 1 else j - 1
      if nibble j = 8 then
        if nibble o = 8 then ((0 : Int), (0 : Int), false)
        else (snum (decide (8 ≤ nibble o)) (2 + nibble o % 2), ((nibble o / 2 % 4 : Nat) : Int) + 2, true)
      else if nibble o = 8 then (0, 0, false)
      else (sx4 (nibble j), 0, false))
    (l.map (fun x => (x.1, x.2.1)), (l.filter (·.2.2)).length, (q4xInts w).2)

/-- The integer form of a scale (R68). -/
def scaleForm (c : Nat) : Int × Int := if c / 4 = 0 then ((c % 4 : Nat), -32) else ((4 + c % 4 : Nat), ((c / 4 : Nat) : Int) - 33)

/-- A block of a scaled format as the channels take it (R203, R207): elements, outliers, FORMAT events. -/
def blockIn (f : Nat) (bytes : List Nat) (scale : Nat) : List EIn × Nat × Nat :=
  if scale = 0 then (List.replicate 8 EIn.none, 0, 0)
  else if scale = 0xFF then (List.replicate 8 { EIn.none with nan := true }, 0, 0)
  else
    let (l, n, e) := blockForms f bytes
    let (sg, es) := scaleForm scale
    (l.map (fun x => eIn (x.1 * sg) (x.2 + es)), n, e)

/-- Cut a list into n pieces of a length. -/
def pieces {α : Type} (len : Nat) : Nat → List α → List (List α)
  | 0, _ => []
  | n + 1, l => l.take len :: pieces len n (l.drop len)

/-- An operand's lines as the channels take them, with its outliers and converter events. -/
structure LinesIn where
  lines : List (List EIn)
  outliers : Nat
  ev : CvEv
deriving DecidableEq, Repr

/-- The lines of an operand image (R201). -/
def imageIn (f k : Nat) (bytes : List Nat) : LinesIn :=
  let rb := lineBytes f k
  let bb := rb * 8 / k
  let rows := (pieces rb 64 bytes).zip (pieces (k / 8) 64 (bytes.drop (64 * rb)))
  let x := rows.map (fun p => ((pieces bb (k / 8) p.1).zip p.2).map (fun q => blockIn f q.1 q.2))
  { lines := x.map (fun l => l.flatMap (·.1)), outliers := (x.map (fun l => (l.map (·.2.1)).sum)).sum,
    ev := { format := (x.map (fun l => (l.map (·.2.2)).sum)).sum } }

/-- A centred residue (R204). -/
def centred (x m : Nat) : Int := if x ≤ (m - 1) / 2 then x else (x : Int) - m

/-- An element of a plane tile as the channels take it (R203, R204, R206).
Log 113: DEDUCED. -/
def planeIn (g : Nat) (f : Int) (srcfmt : Nat) (bytes : List (Nat × Nat)) (nan : Bool) : EIn :=
  if nan then { EIn.none with nan := true }
  else
    let red := bytes.map (fun p => (p.1, p.2 % modulus p.1))
    let res := (List.range 10).map (fun k => ((red.find? (·.1 == k)).map (·.2)).getD 0)
    let c := (modeChans g).map (fun k => centred (res.getD k 0) (modulus k))
    let v := c.headD 0
    let small := c.all (· == v)
    let cls : Int := if small then magClass v else if srcfmt = 0 then 248 else if srcfmt = 9 then 192 else 490
    if small && v = 0 then EIn.none else ⟨res, false, f, cls + 8 * f, false⟩

/-- The lines of a PLANES operand from its planes of the mode in channel order, and its bitmap (R201, R207). -/
def planesIn (g : Nat) (o : Operand) (bytes : List Nat) : LinesIn :=
  let chans := modeChans g
  let planes := (pieces 4096 chans.length bytes).map (pieces 64 64)
  let bm := bytes.drop (4096 * chans.length)
  let beyond := ((chans.zip (pieces 4096 chans.length bytes)).map (fun p => (p.2.filter (fun b => decide (modulus p.1 ≤ b))).length)).sum
  { lines := (List.range 64).map (fun r =>
      let rows := planes.map (fun p => p.getD r [])
      (List.range 64).map (fun c =>
        planeIn g o.f o.srcfmt (chans.zip (rows.map (fun row => row.getD c 0)))
          (o.bitmap && bm.getD ((64 * r + c) / 8) 0 / 2 ^ ((64 * r + c) % 8) % 2 = 1))),
    outliers := 0, ev := { resrange := beyond } }

/-- The bytes of an operand that has been read, in order. -/
def operandBytes (o : Operand) : List Nat :=
  (List.range o.secs.length).flatMap (fun j =>
    match o.got.find? (·.1 == j) with
    | some p => (leBytes 32 p.2.data.toNat).map (·.toNat)
    | none => List.replicate 32 0)

/-- The lowest poison tag of an operand (R208). -/
def operandTag (o : Operand) : Option (BitVec 12) := o.got.foldl (fun t p => minTag t p.2.tag) o.tag

/-- The lines of an operand. -/
def operandIn (k g : Nat) (o : Operand) : LinesIn :=
  if o.fmt = 6 then planesIn g o (operandBytes o) else imageIn o.fmt k (operandBytes o)

/-! ### Accumulation (R203 to R206, R213) -/

/-- One element's accumulation so far: residues, witness, floor drops. -/
structure Acum where
  res : List Nat
  wit : Nat
  drops : Nat
deriving DecidableEq, Repr

/-- One term (R203, R205). -/
def addTerm (g : Nat) (f : Int) (x : Acum) (a b : EIn) : Acum :=
  if a.zero || b.zero then x
  else
    let s := a.e + b.e - f
    if s < 0 then { x with drops := x.drops + 1 }
    else if 127 < s then { x with wit := 1023 }
    else
      let chans := modeChans g
      { x with res := (List.range 10).map (fun k =>
          if chans.contains k then
            (x.res.getD k 0 + a.res.getD k 0 * b.res.getD k 0 * 2 ^ s.toNat) % modulus k
          else x.res.getD k 0) }

/-- The block bound of a line (R206): the largest class of its nonzero elements, in eighths. -/
def blockBound (l : List EIn) : Option Int :=
  l.foldl (fun (m : Option Int) a =>
    if a.zero then m
    else match m with
      | none => some a.cls
      | some x => some (max x a.cls)) none

/-- One block of eight terms, then its witness update (R205, R206). -/
def addBlock (g : Nat) (f : Int) (x : Acum) (a b : List EIn) : Acum :=
  let x := (a.zip b).foldl (fun x p => addTerm g f x p.1 p.2) x
  match blockBound a, blockBound b with
  | some la, some lb => { x with wit := wupd x.wit (24 + la + lb - 8 * f) }
  | _, _ => x

/-- One element over all blocks of K (R213). -/
def addLine (g : Nat) (f : Int) (e : Elem) (a b : List (List EIn)) : Acum :=
  (a.zip b).foldl (fun x p => addBlock g f x p.1 p.2) ⟨e.res, e.wit, 0⟩

/-- A tile as MMA.CLR leaves it before its terms (R213). -/
def mmaClear (t : Tile) (g : Nat) : Tile := { Tile.clear t.floor with mode := g }

/-- Saturate at 65,535. -/
def sat16 (n : Nat) : Nat := min 65535 n

/-- Extra outlier passes of an operand (R209). -/
def extraPasses (n : Nat) : Nat := (n - 256 + 255) / 256

/-- A tile after an MMA, with its floor drops and whether it saturated a witness (R213). -/
def mmaApply (t : Tile) (g : Nat) (a b : List (List EIn)) : Tile × Nat × Bool :=
  let kb := ((a.headD []).length + 7) / 8
  let la := a.map (fun l => (pieces 8 kb l, l.any (·.nan)))
  let lb := b.map (fun l => (pieces 8 kb l, l.any (·.nan)))
  let cells := ((List.range 64).zip la).flatMap (fun x => ((List.range 64).zip lb).map (fun y =>
    let k := 64 * x.1 + y.1
    let e := smGet Elem.zero t.elems k
    let z := addLine g t.floor e x.2.1 y.2.1
    (k, (⟨z.res, e.nan || x.2.2 || y.2.2, z.wit⟩ : Elem), z.drops, z.wit = 1023 && e.wit ≠ 1023)))
  let drops := (cells.map (·.2.2.1)).sum
  let sat := cells.any (fun c => c.2.1.wit = 1023)
  ({ t with elems := (cells.filter (fun c => c.2.1 ≠ Elem.zero)).map (fun c => (c.1, c.2.1)),
            mmas := sat16 (t.mmas + 1), drops := sat16 (t.drops + drops), wsat := t.wsat || sat },
   drops, cells.any (·.2.2.2))

/-- A 16-bit or 8-bit field of MXSTAT plus n, saturating (R215). -/
def mxAdd (w : Word) (lo width n : Nat) : Word :=
  let old := fld w.toNat (lo + width - 1) lo
  let new := min (2 ^ width - 1) (old + n)
  wd (w.toNat - old * 2 ^ lo + new * 2 ^ lo)

/-- Change MXSTAT of a core. -/
def mxUpd (s : State) (core : Nat) (f : Word → Word) : State :=
  { s with mxstat := smPut 0 s.mxstat core (f (smGet 0 s.mxstat core)) }

/-- Poison meets a tile (R208). -/
def tilePoison (t : Tile) (tag : Option (BitVec 12)) : Tile :=
  match tag with
  | none => t
  | some x => { t with poison := true, ptag := if t.poison && decide (t.ptag.toNat ≤ x.toNat) then t.ptag else x }

/-- A tile operation leaves the stream and its class (R126). -/
def endOp (s : State) (o : TileOp) : State :=
  countDown { s with tileOps := s.tileOps.filter (fun q => q.id ≠ o.id) } o.party.agent .tl

/-- The started operation with a number. -/
def startedOp (s : State) (id : Nat) : Option TileOp := s.tileOps.find? (fun o => o.id == id && o.started)

/-- MMA_COMPLETE (R213, R215). Event data: id. -/
def execMmaComplete (s : State) : Out :=
  match startedOp s (s.inp.a.headD 0) with
  | none => .next s
  | some o =>
    match o.kind with
    | .mma clr g a b =>
      let (a, s) := fetchOperand s o.party.stook a (fun _ => true)
      let (b, s) := fetchOperand s o.party.stook b (fun _ => true)
      let k := mmaK a.fmt b.fmt
      let x := operandIn k g a
      let y := operandIn k g b
      let t := tileGet s o.core o.tile
      let (t, drops, sat) := mmaApply (if clr then mmaClear t g else t) g x.lines y.lines
      let t := tilePoison t (minTag (operandTag a) (operandTag b))
      let s := mxUpd (tilePut s o.core o.tile t) o.core (fun w =>
        mxAdd (mxAdd (mxAdd w 0 16 drops) 16 16 (extraPasses x.outliers + extraPasses y.outliers)) 48 8 (if sat then 1 else 0))
      .next (endOp (countCv s o.core (cvPlus x.ev y.ev)) o)
    | _ => .next s

/-- ACLR_COMPLETE (R214). Event data: id. -/
def execAclrComplete (s : State) : Out :=
  match startedOp s (s.inp.a.headD 0) with
  | none => .next s
  | some o =>
    match o.kind with
    | .aclr f => .next (endOp (tilePut s o.core o.tile (Tile.clear f)) o)
    | _ => .next s

/-- CHINJ_COMPLETE (R228). Event data: id. -/
def execChinjComplete (s : State) : Out :=
  match startedOp s (s.inp.a.headD 0) with
  | none => .next s
  | some o =>
    match o.kind with
    | .chinj ch e n =>
      let t := tileGet s o.core o.tile
      let x := smGet Elem.zero t.elems e
      let x := { x with res := x.res.set ch ((x.res.getD ch 0 + n) % modulus ch) }
      .next (endOp (tilePut s o.core o.tile { t with elems := smPut Elem.zero t.elems e x }) o)
    | _ => .next s

end Sys2Proof.Machine
end

