-- ==== Sys2Proof/Machine/Part.lean ====
section
/-!
DEFINITION. The accesses that the part makes for itself through a context: the launch sequencer's, the dump writer's
and the root controller's (04 R104, 23 R355, R413, 25 R385); and the dump region of a sheaf (25 R385, 07 R156).
-/
namespace Sys2Proof.Machine

open Sys2Proof

/-- For whom the part makes an access: the context, the core its fault record names, the job key and group that a granary switch
sees, and what it serves: a launch (0), a launch queue (1) or a stook (2), and which. -/
structure PartWho where
  ctx : Nat
  core : Nat
  jobkey : Word
  grp : BitVec 16
  by_ : List Nat
deriving DecidableEq, Repr

/-- What the access answers. -/
inductive PRes (α : Type) where
  | ok (x : α) (s : State)
  | bad (va : Word) (kind level : Nat) (entry : Word)
  /-- A permission failure, or an access that its home refuses. -/
  | perm (s : State)
  /-- Another node has still to answer. -/
  | wait (s : State)
deriving DecidableEq, Repr

/-- Resolve n bytes inside one page. -/
def partPiece (s : State) (w : PartWho) (k : AccKind) (va : Word) (n : Nat) : PRes Piece :=
  match sysLoc s w.ctx w.core k va with
  | .bad kd l e _ => .bad va kd l e
  | .perm s => .perm s
  | .ok (loc, coh, pg) s =>
    if k ≠ .rd ∧ (liveIn s loc n).isSome = true then .perm (hitBar s ((liveIn s loc n).getD loc))
    else if lostLoc s loc = true then .perm s
    else .ok ⟨va, loc, coh, pg.pr, pg.ord, pg.home, pg.hidx, n⟩ s

/-- Resolve a range, 32-byte sector by sector; the first argument bounds the sectors. -/
def partPieces : Nat → State → PartWho → AccKind → Word → Nat → PRes (List Piece)
  | 0, s, _, _, _, _ => .ok [] s
  | f + 1, s, w, k, va, n =>
    if n = 0 then .ok [] s
    else
      let len := min n (32 - va.toNat % 32)
      match partPiece s w k va len with
      | .bad a b c d => .bad a b c d
      | .perm s => .perm s
      | .wait s => .wait s
      | .ok x s =>
        match partPieces f s w k (va + wd len) (n - len) with
        | .ok l s => .ok (x :: l) s
        | r => r

/-- The badge of the part's accesses for a context. -/
def PartWho.badge (w : PartWho) : Badge := (w.jobkey, w.grp)

/-- What names an access of the part among what is asked of other nodes. -/
def PartWho.key (w : PartWho) (k : AccKind) (va : Word) (n : Nat) : Asked :=
  .part (w.by_ ++ [va.toNat, n, match k with
    | .rd => 0
    | .wr => 1
    | .at => 2])

/-- The asks of the part for one thing that it serves. -/
def Ask.ofPart (w : List Nat) (a : Ask) : Bool :=
  match a.by_ with
  | .part k => k.take w.length == w
  | _ => false

/-- The part has done what it made accesses for: what other nodes answered is kept no longer. -/
def partDone (s : State) (w : List Nat) : State := dropAsks s (Ask.ofPart w)

/-- The part waits for another node for what it serves. -/
def partAsking (s : State) (w : List Nat) : Bool := s.asks.any (fun a => a.ofPart w && a.val.isNone)

/-- An access of the part of n bytes at va, which `f` performs on the resolved pieces. Where other nodes hold some of it, they are
asked first (R294, R305), and the result is kept until what the access serves is done. -/
def partDo (s : State) (w : PartWho) (k : AccKind) (va : Word) (n : Nat) (bs : List PByte)
    (f : State → List Piece → List PByte → Nat × State) : PRes Nat :=
  let key := w.key k va n
  match askOf s key with
  | some a =>
    (match a.val with
     | some v => .ok v s
     | none => match await s w.badge a with
       | .wait s => .wait s
       | .dead s => .perm s
       | .gone a s =>
         let (v, s) := f s a.pieces a.bytes
         .ok v { s with asks := s.asks ++ [{ a with val := some v }] })
  | none =>
    match partPieces (n / 32 + 2) s w k va n with
    | .ok l s =>
      if l.any (fun x => farLoc x.loc) then
        .wait (if k = .rd then askRead s w.badge key s.epoch l else askWrite s w.badge key s.epoch l bs)
      else let (v, s) := f s l bs; .ok v s
    | .bad a b c d => .bad a b c d
    | .perm s => .perm s
    | .wait s => .wait s

/-- Read n bytes as a number. -/
def partRead (s : State) (w : PartWho) (va : Word) (n : Nat) : PRes Nat :=
  partDo s w .rd va n [] (fun s l _ => let (bs, s) := readPieces s l; (pNat bs, s))

/-- Write bytes: the number that the first 8 of those written stand for. -/
def partWrite (s : State) (w : PartWho) (va : Word) (bs : List Byte) : PRes Nat :=
  partDo s w .wr va bs.length (bs.map (fun b => (b, none))) (fun s l bs => (pNat (bs.take 8), writePieces w.core l bs s))

/-- Park an access of the part (R104): the record's number. -/
def partPark (s : State) (w : PartWho) (op src slot acc : Nat) (va : Word) (kind level : Nat) (entry : Word) : Nat × State :=
  newFault s ⟨w.ctx, w.core, true, none⟩
    { id := 0, ctx := w.ctx, va := va, eseq := 0, entry := entry, kind := kind, level := level,
      acc := acc + 8, src := src, slot := slot, core := w.core, owner := .op op, mask := 0, tinfo := 0,
      idx := none, fate := 0 }

/-! ### The dump region (R385) -/

/-- A slot as the dump shows it. -/
def slotWords (x : Slot) : List Word := [x.pc, x.mask, wd (x.inner.getD 255)]

/-- The dump's STATE (R385); `stop` is 0 hard pre-emption, 1 abort, 2 halt. -/
def stateWord (a : Agent) (stop : Nat) : Word :=
  wd ((if a.pri.live then 1 else 0) + (if a.sec.live then 2 else 0) + (if a.priv then 4 else 0) +
    (if a.ended then 8 else 0) + stop * 16 + (if a.pri.poison.isEmpty && a.sec.poison.isEmpty then 0 else 64))

/-- The mode registers in the dump's order. -/
def modeWords (a : Agent) : List Word :=
  [a.md.setWidth 64, a.sstat.setWidth 64, a.divmask, a.srkey, a.srseq, a.rngstream]

/-- The trap registers in the dump's order. -/
def trapWords (a : Agent) : List Word := [a.tcause, a.tpc, a.taddr, a.tinfo, a.tmask, a.tslot, a.thnd, a.tseq]

/-- The completion counts (R385). -/
def cntsWord (a : Agent) : Word := wd (a.cntLd % 64 + a.cntSt % 64 * 2 ^ 6 + a.cntCp % 64 * 2 ^ 12 + a.cntTl % 64 * 2 ^ 18)

/-- The dump region's words from its first byte (R385). -/
def dumpWords (a : Agent) (stop : Nat) (bulk eseq : Word) : List Word :=
  (List.range 64).map (getSA a) ++ (List.range 16).map (getMA a) ++ trapWords a ++ modeWords a ++
  slotWords a.pri ++ slotWords a.sec ++ [stateWord a stop, 0, bulk, eseq, maskList a.sPend, cntsWord a]

/-- A word list as bytes. -/
def wordBytes (l : List Word) : List Byte := l.flatMap (fun w => leBytes 8 w.toNat)

/-- Bytes padded with zeros to a length. -/
def padTo (n : Nat) (l : List Byte) : List Byte := l ++ List.replicate (n - l.length) 0

/-- An entry of the divergence stack (R156). -/
def stackBytes (e : StackEnt) : List Byte :=
  wordBytes [wd ((e.par.getD 255) * 256 + (if e.join then 1 else 2)), e.mask, e.arr, e.pc]

/-- The stack as the context area holds it (R156, R350). -/
def stackArea (a : Agent) : List Byte :=
  (List.range 64).flatMap (fun i => match a.stack.find? (fun e => e.idx == i) with
    | some e => stackBytes e
    | none => List.replicate 32 0)

/-- The VA of a sheaf's context (R350). -/
def ctxAreaVa (s : State) (a : Agent) : Word :=
  ((smGet none s.ctxs a.k.ctx).map (·.ctxarea)).getD 0 + wd (4096 * (64 * a.core + a.slotNo))

/-- The part's accesses for a stook. -/
def stookWho (t : Stook) : PartWho := ⟨t.k.ctx, t.core, t.k.jobkey, t.k.grp, [2, t.id]⟩

/-- A lost dump is logged (R385, R390). -/
def logLostDump (s : State) (core slotNo : Nat) : State := logKind8 s 8 (wd (core + slotNo * 2 ^ 7))

/-- Write one sheaf's dump and divergence stack; a permission failure loses it. -/
def dumpAgent (s : State) (t : Stook) (a : Agent) (stop : Nat) (bulk : Word) : State :=
  let va := ctxAreaVa s a
  match partWrite s (stookWho t) (va + 2048) (padTo 2048 (wordBytes (dumpWords a stop bulk s.eseq))) with
  | .ok _ s =>
    match partWrite s (stookWho t) va (stackArea a) with
    | .ok _ s => updStook (partDone s [2, t.id]) t.id (fun t => { t with dumped := a.id :: t.dumped })
    | .wait s => s
    | _ => updStook s t.id (fun t => { t with dumped := a.id :: t.dumped })
  | .bad x kd l e =>
    let (n, s) := partPark s (stookWho t) t.id 6 a.slotNo 2 x kd l e
    updStook s t.id (fun t => { t with park := some n })
  | .perm s =>
    updStook (partDone (logLostDump s a.core a.slotNo) [2, t.id]) t.id (fun t => { t with dumped := a.id :: t.dumped, dumpLost := true })
  | .wait s => s

/-- The sheaves of a stook. -/
def sheavesOf (s : State) (stook : Nat) : List Agent :=
  (allAgents s).filter (fun a => a.kind = .sheaf && a.stook == stook)

/-- Write the dumps of a stook that are still due, as far as they go. -/
def dumpAll (stook stop : Nat) (bulk : Word) : List Agent → State → State
  | [], s => s
  | a :: r, s =>
    match findStook s stook with
    | none => s
    | some t =>
      if t.dumped.contains a.id then dumpAll stook stop bulk r s
      else
        let s := dumpAgent s t a stop bulk
        match (findStook s stook).bind (·.park) with
        | some _ => s
        | none => dumpAll stook stop bulk r s

/-- Go on with the dumps of a stook: a fatal record loses the dump it was for (R385). -/
def dumpStook (s : State) (t : Stook) (stop : Nat) (bulk : Word) : State :=
  let l := sheavesOf s t.id
  match unpark s t.park with
  | .wait => s
  | .go s => dumpAll t.id stop bulk l (updStook s t.id (fun t => { t with park := none }))
  | .fatal s =>
    match l.find? (fun a => !t.dumped.contains a.id) with
    | none => updStook s t.id (fun t => { t with park := none })
    | some a =>
      dumpAll t.id stop bulk l (updStook (logLostDump s a.core a.slotNo) t.id
        (fun t => { t with park := none, dumped := a.id :: t.dumped, dumpLost := true }))

/-- Every dump of a stook is written or lost. -/
def dumpsDone (s : State) (stook : Nat) : Bool :=
  match findStook s stook with
  | none => true
  | some t => t.park.isNone && (sheavesOf s stook).all (fun a => t.dumped.contains a.id)

end Sys2Proof.Machine
end

