-- ==== Sys2Proof/Machine/Convert.lean ====
section
/-!
DEFINITION. CVT (08 R174, R175; 03 R56, R411): one type to another, lane by lane, and the Q4X and S8 conversions.
-/
namespace Sys2Proof.Machine

open Sys2Proof

/-- An element's exact value as a float value. -/
def srcFV (t : Nat) (raw : Word) : FV :=
  if isInt t then signedV false (elemInt t raw) 1 else elemFV t raw

/-- A value into a float type of MD.ET (R174, R56): one rounding, or the FP8 path with its events and flags. -/
def cvtFloat (s : State) (et d l : Nat) (v : FV) : LRes :=
  match fmtOf et with
  | none => { val := 0 }
  | some f =>
    if f.ieee then floatRes (fpack f (laneRnd s d l false) v)
    else
      let (r, e) := fp8Plain f (laneRnd s d l true) v
      { floatRes r with ev := e }

/-- A float value into an integer type (R174). -/
def cvtInt (s : State) (et d l : Nat) (v : FV) : LRes :=
  match v with
  | .nan _ => { val := 0, flags := fINV, inv := true }
  | .inf neg => { val := formInt et (if neg then etMin et else etMax et), flags := fINV, inv := true, ev := { satcv := 1 } }
  | .fin neg n q =>
    let (m, inx) := roundNat (laneRnd s d l false) neg n q
    let x := snum neg m
    if x < etMin et ∨ etMax et < x then
      { val := formInt et (if neg then etMin et else etMax et), flags := fINV, inv := true, ev := { satcv := 1 } }
    else { val := formInt et x, flags := if inx then fINX else 0 }

/-- CVT between the types 0 to 12 (R174). -/
def cvtLane (s : State) (t d a l : Nat) : LRes :=
  let et := etOf s
  let x := rawV s t a l
  if t = et then { val := formBits et (elemBits et x) }
  else if isInt t ∧ isInt et then intRes et (satOf s) (elemInt t x)
  else if isInt et then cvtInt s et d l (elemFV t x)
  else cvtFloat s et d l (srcFV t x)

/-- The groups of eight lanes that hold an active lane (R175). -/
def groupOf (l : Nat) : Nat := l / 8

/-- The first active lane of its group, which carries the group's events. -/
def leads (act : List Nat) (l : Nat) : Bool := !act.any (fun k => groupOf k == groupOf l && decide (k < l))

/-- CVT into Q4X (R175): each active lane's share of its group's block.
Log 105: DEDUCED. -/
def cvtToQ4X (s : State) (t d a : Nat) (act : List Nat) (l : Nat) : LRes :=
  let g := groupOf l
  let (w, c, e) := encodeQ4X 1 ((List.range 8).map (fun j =>
    (elemFV t (rawV s t a (8 * g + j)), laneRnd s d (8 * g + j) false)))
  { val := if l % 8 = 0 then wd w else if l % 8 = 1 then wd c else 0, ev := if leads act l then e else {} }

/-- CVT from Q4X (R175): element j of the group's block, rounded to MD.ET. -/
def cvtFromQ4X (s : State) (d a : Nat) (act : List Nat) (l : Nat) : LRes :=
  let g := groupOf l
  let (vs, e) := decodeQ4X (getV s a (8 * g)).toNat ((getV s a (8 * g + 1)).toNat % 256)
  { cvtFloat s (etOf s) d l (vs.getD (l % 8) (.fin false 0 1)) with ev := if leads act l then e else {} }

/-- CVT into S8 (R175); no flag of SSTAT is set: log 105. -/
def cvtToS8 (s : State) (t a l : Nat) : LRes :=
  let (c, e) := encodeS8 (elemFV t (rawV s t a l))
  { val := wd c, ev := e }

/-- The value of an S8 element (R61). -/
def s8FV (c : Nat) : FV :=
  if c = 0 then .fin false 0 1 else if c = 0xFF then .nan false else .fin false (s8Val c).1 (s8Val c).2

/-- CVT from S8 (R175). -/
def cvtFromS8 (s : State) (d a l : Nat) : LRes :=
  cvtFloat s (etOf s) d l (s8FV ((getV s a l).toNat % 256))

/-- The pair of source and destination types is allowed (R174, R175). -/
def cvtPair (t et : Nat) : Bool :=
  if t = 13 ∨ t = 14 then isFloat et
  else if et = 13 ∨ et = 14 then isFloat t
  else true

/-- CVT's rule for a lane. -/
def cvtRule (s : State) (t d a : Nat) (act : List Nat) (l : Nat) : LRes :=
  if t = 13 then cvtFromQ4X s d a act l
  else if t = 14 then cvtFromS8 s d a l
  else if etOf s = 13 then cvtToQ4X s t d a act l
  else if etOf s = 14 then cvtToS8 s t a l
  else cvtLane s t d a l

/-- CVT (R174, R175). -/
def execCvt (d a t : Nat) (s : State) : Out :=
  run (.cvt d a t) { vr := regs (is64 t) a, vw := regs (is64 (etOf s)) d }
    (fun s =>
      let et := etOf s
      if cvtPair t et = false then illegal s (.cvt d a t)
      else if (is64 t = true ∧ a % 2 = 1) ∨ (is64 et = true ∧ d % 2 = 1) then illegal s (.cvt d a t)
      else
        let act := activeLanes s
        lanesEnd s (.cvt d a t) et d (act.map (fun l => (l, cvtRule s t d a act l)))) s

end Sys2Proof.Machine
end

