-- ==== Sys2Proof/Machine/Thresher.lean ====
section
/-!
DEFINITION. The thresher (11 R216 to R231): ADRN and its drain, CHINJ, containment, and the remap of a channel to the
spare die.
-/
namespace Sys2Proof.Machine

open Sys2Proof

/-! ### ADRN at issue (R216) -/

/-- The bytes of a destination image (R217). -/
def imageBytes (fmt : Nat) : Nat :=
  match fmt with
  | 0 => 16384
  | 1 => 8192
  | 2 => 8192
  | 3 => 4096
  | 4 => 4096
  | 5 => 2560
  | 6 => 16384
  | 7 => 32768
  | _ => 41536

/-- ADRN (R216, R219). -/
def execAdrn (t a b f x : Nat) (s : State) : Out :=
  run (.adrn t a b f x) { sr := [a], sw := [b], eng := true, cls := some .tl }
    (fun s =>
      let dst := getS s a
      let last := dst + wd (imageBytes f - 1)
      match physTile s.cur.k t with
      | none => illegal s (.adrn t a b f x)
      | some pt =>
        if f = 8 ∧ x ≠ 0 then illegal s (.adrn t a b f x)
        else if dst.toNat % 64 ≠ 0 then trapAt s ALIGN dst 0 0
        else if canonical dst = false then trapAt s PERM dst 0 0
        else if canonical last = false then trapAt s PERM last 0 0
        else
          let s := forkEdge s
          let s := enterStream s (partyOf s) pt (.adrn dst f x b (boundGet s s.cur.core x) Drain.zero)
          .done (advance (pend (countUp s .tl) (.sreg b)))) s

/-! ### CHINJ at issue (R228) -/

/-- CHINJ (R228). -/
def execChinj (a : Nat) (s : State) : Out :=
  run (.chinj a) { sr := [a], sys := true, cls := some .tl }
    (fun s =>
      let x := getS s a
      let ch := bits x 27 24
      if bits x 63 40 ≠ 0 ∨ bits x 31 28 ≠ 0 ∨ x.getLsbD 23 = true ∨ bits x 19 12 ≠ 0 ∨ 9 < ch then illegal s (.chinj a)
      else match physTile s.cur.k (bits x 22 20) with
        | none => illegal s (.chinj a)
        | some pt =>
          let s := forkEdge s
          .done (advance (countUp (enterStream s (partyOf s) pt (.chinj ch (bits x 11 0) (bits x 39 32))) .tl))) s

/-! ### Judging (R221, R225) -/

/-- Core, tile and element in CHCON's layout [35:14] (R225, R390). -/
def elemAddr (core tile e : Nat) : Word := wd (e * 2 ^ 24 + tile * 2 ^ 21 + core * 2 ^ 14)

/-- The window class of a die: LIMIT of its WCFG (R395). -/
def dieLimit (s : State) (d : Nat) : Nat := winLimit s (96 + d)

/-- One correction, on channel ch of an element (R225): its ESEQ, CHCON, CHCNT, and the die's window count, whose
reaching LIMIT leaves the die's declaration pending under key 32 + die (R229, R395). -/
def countCorr (s : State) (core tile e ch : Nat) : State :=
  let d := s.chmap.getD ch 0
  let (q, s) := takeEseq (rollWin s (96 + d))
  let c := s.chcon.toNat
  let n := min 65535 (fld c 51 36 + 1)
  let keep := fld c 5 0
  let cap := if fld c 0 0 = 1 then fld c 63 52 * 2 ^ 52 + fld c 35 6 * 2 ^ 6 + keep
    else q.toNat % 4096 * 2 ^ 52 + (elemAddr core tile e).toNat + d * 2 ^ 10 + ch * 2 ^ 6 + keep / 2 * 2 + 1
  let w := smGet 0 s.dieWin d + 1
  let s := { s with chcon := wd (cap + n * 2 ^ 36), chcnt := smPut 0 s.chcnt d (satInc (smGet 0 s.chcnt d)),
                    dieWin := smPut 0 s.dieWin d w }
  if w = dieLimit s d then { s with dieWin := smPut 0 s.dieWin (32 + d) ((elemAddr core tile e).toNat + 1) } else s

/-- Judge one element of a tile, with its events (R221, R225). -/
def judgeOne (s : State) (core tile e : Nat) (t : Tile) (d : Drain) : Judged × State × Drain :=
  let x := smGet Elem.zero t.elems e
  let (j, hr) := judge t.mode x.res x.wit
  let s := if hr then mxUpd s core (fun w => mxAdd w 32 16 1) else s
  let bad := match d.bad with
    | some b => some b
    | none => some e
  match j with
  | .good _ => (j, s, d)
  | .corr _ ch =>
    let die := s.chmap.getD ch 0
    (j, countCorr s core tile e ch,
     { d with corr := d.corr + 1, dies := if d.dies.any (fun y => y / 4096 == die) then d.dies else d.dies ++ [die * 4096 + e] })
  | .uc _ => (j, { s with chcon := s.chcon ||| 4 }, { d with unc := d.unc + 1, bad := bad, pois := true })
  | .range _ => (j, { s with chcon := s.chcon ||| 8 }, { d with rng := d.rng + 1, bad := bad, pois := true })

/-- Judge elements in ascending order. -/
def judgeAll (core tile : Nat) (t : Tile) : List Nat → State → Drain → List (Nat × Judged) × State × Drain
  | [], s, d => ([], s, d)
  | e :: r, s, d =>
    let (j, s, d) := judgeOne s core tile e t d
    let (l, s, d) := judgeAll core tile t r s d
    ((e, j) :: l, s, d)

/-- The integer of a judgement. -/
def Judged.val : Judged → Int
  | .good x => x
  | .corr x _ => x
  | .uc x => x
  | .range x => x

/-- The element is written poisoned by the thresher (R226). -/
def Judged.bad : Judged → Bool
  | .good _ => false
  | .corr _ _ => false
  | .uc _ => true
  | .range _ => true

/-- The tag an element is written with (R223): the tile's, the thresher's, or the lower of both. -/
def elemTag (s : State) (t : Tile) (j : Judged) : Option (BitVec 12) :=
  minTag (if t.poison then some t.ptag else none) (if j.bad then some (tagOf s 107) else none)

/-! ### Output (R223, R217, R233) -/

/-- The type code of an output format (R217); 5 and 8 have none. -/
def fmtEt (fmt : Nat) : Nat :=
  match fmt with
  | 0 => 8
  | 1 => 9
  | 2 => 10
  | 3 => 11
  | 4 => 12
  | 6 => 0
  | 7 => 2
  | _ => 8

/-- The bytes of an element of a plain format (R217). -/
def fmtSize (fmt : Nat) : Nat :=
  match fmt with
  | 0 => 4
  | 1 => 2
  | 2 => 2
  | 3 => 1
  | 4 => 1
  | 6 => 4
  | _ => 8

/-- The draw of an engine write (R59). -/
def engRnd (p : Party) (va : Word) (ln purpose : Nat) : Rnd := ⟨p.rm, draw p.srkey p.srseq va ln purpose⟩

/-- The value of an element (R223). -/
def drainFV (j : Judged) (nan : Bool) (f : Int) : FV :=
  if nan then .nan false else fscale (signedV false j.val 1) f

/-- An element in a plain format, before the bound: its code, and its converter events (R223). -/
def plainCode (fmt : Nat) (r : Rnd) (j : Judged) (nan : Bool) (f : Int) : Nat × CvEv :=
  if fmt = 6 ∨ fmt = 7 then
    if nan then (0, { nandrop := 1 })
    else if fmt = 7 then ((wi j.val).toNat, {})
    else match drainFV j nan f with
      | .fin neg n d =>
        let y := snum neg (roundNat r neg n d).1
        let z := max (-(2 ^ 31)) (min (2 ^ 31 - 1) y)
        ((wi z).toNat % 2 ^ 32, if z = y then {} else { satcv := 1 })
      | _ => (0, {})
  else match fmtOf (fmtEt fmt) with
    | none => (0, {})
    | some g =>
      if g.ieee then ((fpack g r (drainFV j nan f)).code, {})
      else let (x, e) := fp8Plain g r (drainFV j nan f); (x.code, e)

/-- The bound check of a written value (R232, R233): the code written, and whether it counted as out of range. -/
def drainBound (et : Nat) (code : Nat) (x : Int) (e : Bound) : Nat × Bool :=
  let v : BVal := if isInt et then .int x else elemB et (wd code)
  if e.act = 0 ∨ outOfRange v e = false then (code, false)
  else if e.act = 2 then
    match clampTo et v e with
    | some y => (y.toNat % 2 ^ etBits et, true)
    | none => (code, true)
  else (code, true)

/-- One element drained. -/
structure OutElem where
  idx : Nat
  fv : FV
  code : Nat
  out : Bool
  ev : CvEv
  tag : Option (BitVec 12)
deriving DecidableEq, Repr

/-- An element in a plain format at its address (R223). -/
def plainElem (p : Party) (dst : Word) (fmt bx : Nat) (e : Bound) (t : Tile) (x : Nat × Judged) (tag : Option (BitVec 12)) : OutElem :=
  let nan := (smGet Elem.zero t.elems x.1).nan
  let (c, ev) := plainCode fmt (engRnd p (dst + wd (fmtSize fmt * x.1)) 0 0) x.2 nan t.floor
  let int : Int := if nan then 0 else if fmt = 6 then sx 32 c else x.2.val
  let (c, o) := if bx = 0 then (c, false) else drainBound (fmtEt fmt) c int e
  ⟨x.1, .fin false 0 1, c, o, ev, tag⟩

/-- The byte of a Q4X element's nibble (R59, R217). -/
def q4xVa (dst : Word) (e : Nat) : Word := dst + wd (32 * (e / 64) + 4 * (e % 64 / 8) + e % 8 / 2)

/-- An element on its way into a Q4X block, checked as F32 (R232, R233). -/
def q4xElem (p : Party) (dst : Word) (bx : Nat) (e : Bound) (t : Tile) (x : Nat × Judged) (tag : Option (BitVec 12)) : OutElem :=
  let nan := (smGet Elem.zero t.elems x.1).nan
  let v := drainFV x.2 nan t.floor
  let c := (fpack fF32 (engRnd p (q4xVa dst x.1) (4 * (x.1 % 2)) 1) v).code
  let (y, o) := if bx = 0 then (c, false) else drainBound 8 c 0 e
  ⟨x.1, if o && e.act = 2 && !nanBound (.flt v) e then fdecode fF32 y else v, 0, o, {}, tag⟩

/-- Rows of a drain that are stored together, so that every store covers whole sectors: four rows of Q4X, all 64 of
PLANES, else one. -/
def unitRows (fmt : Nat) : Nat := if fmt = 5 then 4 else if fmt = 8 then 64 else 1

/-- The byte ranges of the unit that starts at a row (R217). -/
def unitRanges (fmt : Nat) (dst : Word) (row : Nat) : List (Word × Nat) :=
  if fmt = 5 then [(dst + wd (32 * row), 128), (dst + wd (2048 + 8 * row), 32)]
  else if fmt = 8 then [(dst, 41536)]
  else [(dst + wd (64 * fmtSize fmt * row), 64 * fmtSize fmt)]

/-- The bytes of a Q4X unit: four rows of words, then of scales, with the events (R223).
Log 29: DEDUCED. -/
def q4xBytes (p : Party) (dst : Word) (l : List OutElem) : List (List PByte) × CvEv :=
  let blocks := (pieces 8 32 l).map (fun (b : List OutElem) =>
    let (w, c, ev) := encodeQ4X 1 (b.map (fun x => (x.fv, engRnd p (q4xVa dst x.idx) (4 * (x.idx % 2)) 0)))
    (w, c, ev, b.foldl (fun (t : Option (BitVec 12)) (x : OutElem) => minTag t x.tag) none))
  ([blocks.flatMap (fun b => pBytes 4 b.1 b.2.2.2), blocks.flatMap (fun b => pBytes 1 b.2.1 b.2.2.2)],
   blocks.foldl (fun e b => cvPlus e b.2.2.1) {})

/-- The bytes of a plane tile (R224). -/
def planeBytes (s : State) (dst : Word) (t : Tile) (l : List (Nat × Judged)) : List PByte :=
  let tag := l.foldl (fun g x => minTag g (elemTag s t x.2)) (if t.poison then some t.ptag else none)
  let elems := l.map (fun x => (x.2, smGet Elem.zero t.elems x.1))
  let planes := (List.range 10).flatMap (fun k =>
    if (modeChans t.mode).contains k then
      elems.map (fun x => if x.1.bad then x.2.res.getD k 0 else modN x.1.val (modulus k))
    else List.replicate 4096 0)
  let header := (t.floor % 2 ^ 16).toNat + 0x1F * 2 ^ 16 + t.mode * 2 ^ 24 +
    (match tag with
     | some g => (0x8000 + g.toNat) * 2 ^ 32
     | none => 0) + (dst + 41024).toNat * 2 ^ 64
  let bitmap := (pieces 8 512 elems).map (fun b => b.foldr (fun x n => 2 * n + (if x.2.nan then 1 else 0)) 0)
  planes.map (fun b => (BitVec.ofNat 8 b, none)) ++ pBytes 64 header none ++ bitmap.map (fun b => (BitVec.ofNat 8 b, none))

/-- The sheaf an operation is issued for: its issuer, or the sheaf that forked the issuing program (R264). -/
def sheafOf (s : State) (agent : Nat) : Nat :=
  match findAgent s agent with
  | some a => if a.kind = .sheaf then agent else a.forker
  | none => agent

/-- The elements of a unit out of bounds count (R233). -/
def countOut (s : State) (o : TileOp) (bx : Nat) (d : Drain) (l : List OutElem) : State × Drain :=
  match l.filter (·.out) with
  | [] => (s, d)
  | x :: r =>
    let b := boundGet s o.core bx
    let s := boundPut s o.core bx { b with cnt := cntAdd b.cnt (r.length + 1) }
    (updAgent s (sheafOf s o.party.agent) (fun a => { a with sstat := a.sstat ||| fBNDF }),
     { d with bnd := true, out := match d.out with
       | some y => some y
       | none => some x.idx })

/-- Judge and form one unit: the bytes of its ranges, the state and the progress. -/
def drainUnit (s : State) (o : TileOp) (dst : Word) (fmt bx row : Nat) (e : Bound) (d : Drain) :
    List (List PByte) × State × Drain :=
  let t := tileGet s o.core o.tile
  let n := 64 * unitRows fmt
  let (l, s, d) := judgeAll o.core o.tile t ((List.range n).map (fun j => 64 * row + j)) s d
  let d := { d with next := 64 * row + n, pois := d.pois || t.poison,
                    nan := d.nan || l.any (fun x => (smGet Elem.zero t.elems x.1).nan) }
  if fmt = 8 then ([planeBytes s dst t l], s, d)
  else if fmt = 5 then
    let xs := l.map (fun x => q4xElem o.party dst bx e t x (elemTag s t x.2))
    let (bs, ev) := q4xBytes o.party dst xs
    let (s, d) := countOut (countCv s o.core ev) o bx d xs
    (bs, s, d)
  else
    let xs := l.map (fun x => plainElem o.party dst fmt bx e t x (elemTag s t x.2))
    let ev := xs.foldl (fun e x => cvPlus e x.ev) {}
    let (s, d) := countOut (countCv s o.core ev) o bx d xs
    ([xs.flatMap (fun x => pBytes (fmtSize fmt) x.code x.tag)], s, d)

/-- Resolve ranges one after another. -/
def engRanges (s : State) (p : Party) (k : AccKind) : List (Word × Nat) → ERes (List (List Piece))
  | [] => .ok [] s
  | x :: r =>
    match engRange s p k x.1 x.2 with
    | .fault a b c d => .fault a b c d
    | .err e s => .err e s
    | .wait s => .wait s
    | .ok l s => match engRanges s p k r with
      | .ok m s => .ok (l :: m) s
      | q => q

/-- Some piece lies in plane space (R94). -/
def inPlanes (l : List (List Piece)) : Bool := l.any (fun r => r.any (fun x => planeSpace x.loc))

/-- The ECODE of a failed store (R219). -/
def EErr.adrn : EErr → Nat
  | .xlate => 1
  | .perm => 2
  | .xlost => 3
  | .barwin _ => 4
  | .fabric => 5

/-- What a failed access leaves behind: the error bit of the barrier hit (R218, R138). -/
def errMark (s : State) : EErr → State
  | .barwin loc => hitBar s loc
  | _ => s

/-- The status word of an ADRN (R219). -/
def drainStatus (fmt : Nat) (f : Int) (d : Drain) : Word :=
  wd ((if fmt = 7 ∨ fmt = 8 then (f % 2 ^ 16).toNat * 2 ^ 48 else 0) + d.corr * 2 ^ 35 + d.unc * 2 ^ 22 + d.rng * 2 ^ 9 +
    (if d.bnd then 2 ^ 8 else 0) + (if d.pois then 2 ^ 7 else 0) + (if d.nan then 2 ^ 6 else 0) + d.ecode * 4 +
    (if d.ecode ≠ 0 then 2 else 0) + 1)

/-- Each affected die's corrected record (R227).
Log 85: DEDUCED. -/
def logDies (s : State) (core tile : Nat) (l : List Nat) : State :=
  l.foldl (fun s x => logOpen s (96 + x / 4096) 1 1 (elemAddr core tile (x % 4096))) s

/-- An ADRN ends (R219, R226, R227, R233). -/
def drainEnd (s : State) (o : TileOp) (fmt bx sb : Nat) (e : Bound) (d : Drain) : State :=
  let s := logDies s o.core o.tile d.dies
  let rpol := s.chcon.getLsbD 5
  let upol := s.chcon.getLsbD 4
  let rec_ := 0 < d.unc || (0 < d.rng && rpol)
  let s := if rec_ then logEvent s 107 2 2 (elemAddr o.core o.tile (d.bad.getD 0)) (wd (d.unc * 2 ^ 16 + d.rng)) else s
  let q := s.eseq
  let (_, s) := takeEseq s
  let s := writeStatus s o.party.agent sb (drainStatus fmt (tileGet s o.core o.tile).floor d)
  let s := endOp (dropAsks s (Ask.ofOp o.id)) o
  if (0 < d.unc && upol) || (0 < d.rng && rpol) then raiseImprecise s o.party.stook ENGERR 0 q
  else match d.out with
    | some x => if e.act = 3 then raiseImprecise s o.party.stook ENGERR 0 (wd (bx + x * 2 ^ 6)) else s
    | none => s

/-- What a unit has formed lands (R128); refused or unanswered by another node, the drain ends (R219, R305). The state, and the
drain's progress where it goes on. -/
def drainLand (s : State) (o : TileOp) (dst : Word) (fmt bx sb : Nat) (e : Bound) (d : Drain) (l : List Landing) : State × Option Drain :=
  let x := landNow s o.party o.id l
  if x.bad then (drainEnd x.s o fmt bx sb e { d with todo := [], ecode := EErr.fabric.adrn }, none)
  else if x.left = [] then (x.s, some { d with todo := [] })
  else (putOp x.s { o with kind := .adrn dst fmt bx sb e { d with todo := x.left } }, none)

/-- The drain runs unit by unit until it ends, parks or waits for another node; the first argument bounds the units of one event.
Log 27: DESIGN CHOICE. -/
def drainLoop : Nat → State → TileOp → Word → Nat → Nat → Nat → Bound → Drain → State
  | 0, s, o, dst, fmt, bx, sb, e, d => putOp s { o with kind := .adrn dst fmt bx sb e d }
  | n + 1, s, o, dst, fmt, bx, sb, e, d =>
    if 4096 ≤ d.next then
      match drainLand s o dst fmt bx sb e d d.todo with
      | (s, some d) => drainEnd s o fmt bx sb e d
      | (s, none) => s
    else
      let row := d.next / 64
      match engRanges s o.party .wr (unitRanges fmt dst row) with
      | .fault va kd lv en =>
        let (f, s) := parkEng s o.party o.id 3 2 va kd lv en
        putOp s { o with park := some f, kind := .adrn dst fmt bx sb e d }
      | .wait s => putOp s { o with kind := .adrn dst fmt bx sb e d }
      | .err x s => drainEnd (errMark s x) o fmt bx sb e { d with ecode := x.adrn }
      | .ok l s =>
        let (bs, s, d) := drainUnit s o dst fmt bx row e d
        match drainLand s o dst fmt bx sb e d (d.todo ++ (l.zip bs).flatMap (fun x => landings x.1 x.2)) with
        | (s, some d) => drainLoop n s o dst fmt bx sb e d
        | (s, none) => s

/-- An ADRN issued earlier on a core of the same cluster, and not parked at a fault, is served first (R20, R220); one that a remap
keeps from starting holds back none that has started (R229).
Log 94: DEDUCED. -/
def thresherBusy (s : State) (o : TileOp) : Bool :=
  s.tileOps.any (fun q => decide (q.id < o.id) && clusterOf q.core == clusterOf o.core && q.park.isNone && (q.started || s.remap.isNone) &&
    (match q.kind with
     | .adrn _ _ _ _ _ _ => true
     | _ => false))

/-- ADRN_COMPLETE (R128, R219): the drain is judged and stored, from where it stands, whole or by the units that the event names;
or what is left of units lands. Event data: id, units (0: all that are left), 1 to form the next unit while some of those before it
is still to land; list: the sectors of what is to land, by place, that land later. -/
def execAdrnComplete (s : State) : Out :=
  match startedOp s (s.inp.a.headD 0) with
  | none => .next s
  | some o =>
    match o.kind with
    | .adrn dst fmt bx sb e d =>
      if thresherBusy s o then .next s
      else if d.todo ≠ [] ∧ s.inp.a.getD 2 0 = 0 then
        match drainLand s o dst fmt bx sb e d d.todo with
        | (s, some d) => .next (putOp s { o with kind := .adrn dst fmt bx sb e d })
        | (s, none) => .next s
      else match unpark s o.park with
        | .wait => .next s
        | .go s =>
          let n := s.inp.a.getD 1 0
          .next (drainLoop (if n = 0 then 65 else n) s { o with park := none, party := stampIf (d.next = 0) s o.party } dst fmt bx sb e d)
        | .fatal s => .next (drainEnd s { o with park := none } fmt bx sb e { d with ecode := 1 })
    | _ => .next s

/-! ### The spare die (R229 to R231) -/

/-- CHMAP as a word (R230). -/
def chmapWord (l : List Nat) : Nat := (List.range 11).foldl (fun w k => w + l.getD k 0 * 16 ^ k) 0

/-- A die's declaration is pending: its fault is lasting and its remap has not begun (R395). -/
def dieDeclared (s : State) (d : Nat) : Bool := smGet 0 s.dieWin (32 + d) ≠ 0

/-- The value of an MTC to CHMAP moves exactly one channel onto the spare and gives the spare up (R231): the
channel. -/
def oneMove (s : State) (v : Word) : Option Nat :=
  let spare := s.chmap.getD 10 15
  match (List.range 10).filter (fun k => fld v.toNat (4 * k + 3) (4 * k) ≠ s.chmap.getD k 0) with
  | [k] =>
    if spare ≠ 15 ∧ fld v.toNat (4 * k + 3) (4 * k) = spare ∧ bits v 43 40 = 15 ∧ bits v 63 44 = 0 then some k else none
  | _ => none

/-- A write of CHMAP (R231). -/
def writeChmap (s : State) (v : Word) (w : Nat) : Issue :=
  if s.remap.isSome || (List.range 11).any (dieDeclared s) then .stall
  else if v.toNat = chmapWord s.chmap then .done (advance s)
  else match oneMove s v with
    | some k => .done (advance { s with remap := some ⟨k, s.chmap.getD k 0, false⟩ })
    | none => .trap (illegalTrap s w)

/-- The word at the slot's PC. -/
def wordAtPc (s : State) : Nat :=
  match fetchWord s (pcOf s) with
  | some (w, _) => w
  | none => 0

/-- CHMAP_WRITE (R231): an MTC of the value to CHMAP.
Log 84: DEDUCED. -/
def execChmapWrite (v : Nat) (s : State) : Out :=
  run (.chmapWrite v) { sys := true } (fun s => writeChmap s (wd v) (wordAtPc s)) s

/-- DIE_LASTING_FAULT (R229 step 1, R230): the die's fault is lasting; with a free spare matrix issue is held for the
remap, else the fault is logged alone. Event data: die.
Log 86: DEDUCED. -/
def execDieLastingFault (s : State) : Out :=
  let d := s.inp.a.headD 0
  if dieDeclared s d = false ∨ s.remap.isSome = true then .next s
  else
    let addr := wd (smGet 0 s.dieWin (32 + d) - 1)
    match (List.range 10).find? (fun k => s.chmap.getD k 0 == d) with
    | some k =>
      if s.chmap.getD 10 15 = 15 then
        .next (logOpen { s with dieWin := smPut 0 s.dieWin (32 + d) 0 } (96 + d) 4 3 addr)
      else .next { s with remap := some ⟨k, d, false⟩ }
    | none => .next { s with dieWin := smPut 0 s.dieWin (32 + d) 0 }

/-- A residue rebuilt from the other channels of its mode, and whether the value was legitimate (R229 step 3). -/
def rebuildRes (mode k : Nat) (res : List Nat) (ok : Int → Bool) : Nat × Bool :=
  if (modeChans mode).contains k then
    let v := rebuild res ((modeChans mode).filter (· ≠ k))
    (modN v (modulus k), ok v)
  else (0, true)

/-- A tile with channel k rebuilt (R229 step 3). -/
def rebuildTile (tag : BitVec 12) (k : Nat) (t : Tile) : Tile :=
  let l := t.elems.map (fun p => (p, rebuildRes t.mode k p.2.res (fun v => legit t.mode v p.2.wit)))
  let t := { t with elems := (l.map (fun x => (x.1.1, { x.1.2 with res := x.1.2.res.set k x.2.1 }))).filter (fun p => p.2 ≠ Elem.zero) }
  if l.any (fun x => !x.2.2) then tilePoison t (some tag) else t

/-- The RMODE that a rebuild goes by (R229). -/
def planeMode (b : Nat) : Nat := if b = 1 then 1 else if b = 2 then 2 else 0

/-- One plane tile slot of a core with channel k rebuilt onto a die (R229 step 3).
Log 87: DEDUCED. -/
def rebuildSlot (tag : BitVec 12) (k die core : Nat) (s : State) (t : Nat) : State :=
  let head := sramLoc core (0x77000 + 576 * t)
  let mode := planeMode (homeByte s (head + 3)).toNat
  let at_ : Nat → Nat := fun c => planeStoreLoc core (s.chmap.getD c 0) (4096 * t)
  let others := (modeChans mode).filter (· ≠ k)
  let l := (List.range 4096).map (fun e =>
    rebuildRes mode k ((List.range 10).map (fun c => if others.contains c then (homeByte s (at_ c + e)).toNat else 0)) (inRange mode))
  let new := planeStoreLoc core die (4096 * t)
  let s' := (List.range 128).foldl (fun (u : State) j =>
    let g := if (modeChans mode).contains k then others.foldl (fun g c => minTag g (homeTag s ((at_ c + 32 * j) / 32))) none else none
    wrSector u false (new + 32 * j) (((l.drop (32 * j)).take 32).map (fun x => BitVec.ofNat 8 x.1)) g) s
  if l.any (fun x => !x.2) then
    let old := leNat (rdBytes s' false (head + 4) 2)
    let low := if old / 2 ^ 15 % 2 = 1 then min (old % 4096) tag.toNat else tag.toNat
    { s' with mem := smPutList 0 s'.mem (head + 4) (leBytes 2 (0x8000 + low)) }
  else s'

/-- Every plane tile slot of every core that is not wholly zero; a slot of zeros rebuilds to zeros. -/
def planeSlots (s : State) : List (Nat × Nat) :=
  (List.range 128).flatMap (fun core =>
    let lo := planeStoreLoc core 0 0
    let hi := planeStoreLoc (core + 1) 0 0
    let sec := s.poison.filter (fun p => decide (lo / 32 ≤ p.1) && decide (p.1 < hi / 32))
    let cells := s.mem.filter (fun p => decide (lo ≤ p.1) && decide (p.1 < hi))
    let ts := cells.map (fun p => (p.1 - lo) % 2 ^ 18 / 4096) ++ sec.map (fun p => (32 * p.1 - lo) % 2 ^ 18 / 4096)
    ((List.range 64).filter (ts.contains ·)).map (fun t => (core, t)))

/-- A location of a plane store after a channel has moved from one die to another (R94, R229). -/
def movedLoc (old new loc : Nat) : Nat :=
  if locClass loc = 4 ∧ (loc - 4 * 2 ^ 52) / 2 ^ 18 % 11 = old then loc + new * 2 ^ 18 - old * 2 ^ 18 else loc

/-- An access after a channel has moved. -/
def movedAcc (old new : Nat) (a : Acc) : Acc := { a with loc := movedLoc old new a.loc }

/-- An MMA's operand after a channel has moved: its sectors are read from the channel's new die, those read early from the old one
among them (R19, R94). -/
def movedOperand (old new : Nat) (o : Operand) : Operand :=
  { o with secs := o.secs.map (fun x => (movedLoc old new x.1, x.2)),
           got := o.got.filter (fun g => (o.secs[g.1]?).all (fun x => movedLoc old new x.1 == x.1)) }

/-- A tile operation after a channel has moved. -/
def movedOp (old new : Nat) (o : TileOp) : TileOp :=
  match o.kind with
  | .mma clr g a b => { o with kind := .mma clr g (movedOperand old new a) (movedOperand old new b) }
  | _ => o

/-- A sketch's descriptor after a channel has moved. -/
def movedSketch (old new : Nat) (d : Sketch) : Sketch := { d with loc := movedLoc old new d.loc }

/-- What a request does at its home, after a channel has moved. -/
def movedReqOp (old new : Nat) : ReqOp → ReqOp
  | .sketch wide satf coh => .sketch wide (movedLoc old new satf) coh
  | op => op

/-- A CPL, after a channel has moved. -/
def movedCpl (old new : Nat) (c : CplOp) : CplOp :=
  { c with lanes := c.lanes.map (fun p => (movedAcc old new p.1, movedAcc old new p.2)) }

/-- A SKOP, after a channel has moved. -/
def movedSkop (old new : Nat) (o : SkOp) : SkOp :=
  { o with dst := movedSketch old new o.dst, src := o.src.map (movedSketch old new) }

/-- CHMAP gives a channel another die: every access in flight goes to the bytes where they now lie (R18, R94). -/
def relocate (s : State) (old new : Nat) : State :=
  { s with
    reqs := s.reqs.map (fun (r : Req) => { r with op := movedReqOp old new r.op, accs := r.accs.map (movedAcc old new) }),
    atomQ := s.atomQ.map (fun (q : AtomReq) => { q with accs := q.accs.map (movedAcc old new) }),
    asks := s.asks.map (fun (a : Ask) => { a with pieces := a.pieces.map (fun (x : Piece) => { x with loc := movedLoc old new x.loc }) }),
    cpls := s.cpls.map (movedCpl old new),
    skops := s.skops.map (movedSkop old new),
    tileOps := s.tileOps.map (movedOp old new),
    suspended := s.suspended.map (fun (p : Susp) => { p with cpls := p.cpls.map (movedCpl old new), skops := p.skops.map (movedSkop old new) }),
    calls := s.calls.map (fun (c : Call) => { c with geom := c.geom.map (fun g => (movedSketch old new g.1, movedSketch old new g.2)) }) }

/-- The rebuilding leaves a tile as it was but for its poison: what the spare holds is not in use (R229, R230). -/
def poisonOnly (t u : Tile) : Tile := { t with poison := u.poison, ptag := u.ptag }

/-- REMAP_COMPLETE (R229 steps 2 to 5, R230): once every started operation has finished and all that engines have formed has
landed, the channel is rebuilt on the
spare; a verification that passes writes CHMAP, logs the record and releases matrix issue; one that fails leaves the tiles on
the old map. Event data: ok.
Log 108: DEDUCED. -/
def execRemapComplete (s : State) : Out :=
  match s.remap with
  | none => .next s
  | some r =>
    if r.held = true ∨ s.tileOps.any (·.started) = true ∨ s.copies.any (fun c => !c.todo.isEmpty) = true ∨
        s.calls.any (fun c => !c.todo.isEmpty) = true then .next s
    else
      let ok := s.inp.a.headD 0 ≠ 0
      let tag := tagOf s 107
      let die := s.chmap.getD 10 15
      let s := { s with tiles := (s.tiles.map (fun p =>
        (p.1, if ok then rebuildTile tag r.ch p.2 else poisonOnly p.2 (rebuildTile tag r.ch p.2)))).filter (fun p => p.2 ≠ Tile.clear 0) }
      let s := (planeSlots s).foldl (fun u p => rebuildSlot tag r.ch die p.1 u p.2) s
      if ok = false then .next (logFree { s with remap := some { r with held := true } } 107 4 3)
      else
        let w := smGet 0 s.dieWin (32 + r.old)
        let s := relocate { s with chmap := (s.chmap.set r.ch die).set 10 15, remap := none, dieWin := smPut 0 s.dieWin (32 + r.old) 0 } r.old die
        .next (if w = 0 then logFree s (96 + r.old) 3 1 else logOpen s (96 + r.old) 3 1 (wd (w - 1)))

end Sys2Proof.Machine
end

