-- ==== Sys2Proof/Machine/CopyEngine.lean ====
section
/-!
DEFINITION. The copy engine (06 R129 to R141): CPB and its slices, validation, the conversions row by row, completion,
the follow-on MMA, and CPL.
-/
namespace Sys2Proof.Machine

open Sys2Proof

/-! ### The descriptor (R132) -/

/-- A field of a copy descriptor. -/
def Slice.fld (x : Slice) (hi lo : Nat) : Nat := Sys2Proof.fld x.desc.toNat hi lo

/-- SRC. -/
def Slice.src (x : Slice) : Word := wd (x.fld 63 0)
/-- DST. -/
def Slice.dst (x : Slice) : Word := wd (x.fld 127 64)
/-- SPITCH. -/
def Slice.spitch (x : Slice) : Nat := x.fld 159 128
/-- DPITCH. -/
def Slice.dpitch (x : Slice) : Nat := x.fld 191 160
/-- ROWS. -/
def Slice.rows (x : Slice) : Nat := x.fld 223 192
/-- ROWBYTES. -/
def Slice.rowBytes (x : Slice) : Nat := x.fld 255 224
/-- MMAW. -/
def Slice.mmaw (x : Slice) : Nat := x.fld 287 256
/-- SCOFS. -/
def Slice.scofs (x : Slice) : Int := sx 32 (x.fld 447 416)
/-- TEXP. -/
def Slice.texp (x : Slice) : Int := sx 16 (x.fld 463 448)
/-- CONV. -/
def Slice.conv (x : Slice) : Nat := x.fld 467 464
/-- DRM. -/
def Slice.drm (x : Slice) : Nat := x.fld 470 468
/-- FOLLOW. -/
def Slice.follow (x : Slice) : Bool := x.fld 471 471 = 1
/-- SIDX. -/
def Slice.sidx (x : Slice) : Nat := x.fld 475 472
/-- SCNT. -/
def Slice.scnt (x : Slice) : Nat := x.fld 479 476
/-- OB. -/
def Slice.ob (x : Slice) : Nat := x.fld 481 480

/-- The slice holds the tile-op class of its sheaf raised (R137). -/
def Slice.counts (x : Slice) : Bool := x.follow && x.sidx = 0

/-! ### CPB (R129 to R131) -/

/-- The open copy of a stook that carries a tag. -/
def openCopy (s : State) (stook : Nat) (toReg : Bool) (tag : Nat) : Option Copy :=
  s.copies.find? (fun c => c.stook == stook && c.toReg == toReg && c.tag == tag && c.order == 0)

/-- The copies a stook has open. -/
def openCount (s : State) (stook : Nat) : Nat := (s.copies.filter (fun c => c.stook == stook && c.order == 0)).length

/-- The sheaf already supplies a slice of the open copy with this tag: its status register is pending for it. -/
def joinsCopy (s : State) (tag : Nat) : Bool :=
  match openCopy s s.cur.stook true tag with
  | some c => c.slices.any (fun x => x.party.agent == s.cur.id)
  | none => false

/-- The place of the next copy to close. -/
def nextOrder (s : State) : Nat := s.copies.foldl (fun n c => max n c.order) 0 + 1

/-- A copy with one more slice, which closes it when it is the last (R131). -/
def Copy.add (c : Copy) (x : Slice) (order : Nat) : Copy :=
  { c with slices := c.slices ++ [x], rows := c.rows ++ [0],
           order := if c.slices.length + 1 = c.n then order else 0,
           follow := c.follow || x.counts }

/-- A slice is handed over (R131). -/
def takeSlice (s : State) (toReg : Bool) (tag : Nat) (x : Slice) : State :=
  match openCopy s s.cur.stook toReg tag with
  | some c => { s with copies := s.copies.map (fun d => if d.id = c.id then d.add x (nextOrder s) else d) }
  | none =>
    let (n, s) := freshId s
    let c : Copy := { id := n, stook := s.cur.stook, core := s.cur.core, toReg := toReg, tag := tag, n := x.scnt + 1,
                      slices := [], order := 0, checked := false, rows := [], bytes := 0, pois := false, err := 0,
                      todo := [], got := [], landed := false, follow := false, park := none }
    { s with copies := s.copies ++ [c.add x (nextOrder s)] }

/-- CPB (R129 to R131). -/
def cpb (toReg : Bool) (tag a : Nat) (s : State) : Issue :=
  match readDesc s (getS s a) 64 false with
  | .stop r => r
  | .ok x _ _ _ s =>
    let s := forkEdge s
    let y : Slice := ⟨partyOf s, BitVec.ofNat 512 x⟩
    if (openCopy s s.cur.stook toReg tag).isNone && decide (16 ≤ openCount s s.cur.stook) then .stall
    else if y.counts && decide (62 ≤ s.cur.cntTl) then .stall
    else
      let s := countUp s .cp
      let s := if y.counts then countUp s .tl else s
      let s := if toReg then pend s (.sreg tag) else s
      .done (advance (takeSlice s toReg tag y))

/-- CPB to a barrier (R129). -/
def execCpb (n a : Nat) (s : State) : Out :=
  run (.cpb n a) { sr := [a], eng := true, cls := some .cp }
    (fun s => if s.cur.k.nBar ≤ n then illegal s (.cpb n a) else cpb false n a s) s

/-- CPB to a status register (R129, R136): a further slice of the sheaf's own open copy is not held back by that copy's
own pending register. -/
def execCpbStatus (d a : Nat) (s : State) : Out :=
  run (.cpbStatus d a)
    { sr := [a], sw := if joinsCopy s d && (s.cur.kind = .sheaf || decide (d < 16)) then [] else [d], eng := true, cls := some .cp }
    (cpb true d a) s

/-! ### Validation (R134, R137) -/

/-- The source element size of a conversion (R133, R134). -/
def srcSize (c : Nat) : Nat :=
  match c with
  | 0 => 1
  | 4 => 4
  | 6 => 4
  | 7 => 4
  | _ => 2

/-- The destination element size of a conversion (R134). -/
def dstSize (c : Nat) : Nat :=
  match c with
  | 1 => 4
  | 6 => 2
  | 7 => 2
  | _ => 1

/-- n, the elements of a row (R133). -/
def Slice.elems (x : Slice) : Nat := if x.conv = 6 then x.rowBytes / 4 * 8 else x.rowBytes / srcSize x.conv

/-- The slice moves nothing (R132). -/
def Slice.empty (x : Slice) : Bool := x.rows = 0 || x.rowBytes = 0

/-- The bytes of a destination row, without scales (R133). -/
def Slice.dstRow (x : Slice) : Nat :=
  match x.conv with
  | 0 => x.rowBytes
  | 1 => x.elems / 2
  | 2 => x.elems
  | 3 => x.elems
  | _ => 2 * x.elems

/-- A conversion into or from a scale array. -/
def scaled (c : Nat) : Bool := c = 1 || c = 2 || c = 3 || c = 6

/-- The plane-tile shape of R133. -/
def Slice.planeShape (x : Slice) : Bool := x.rows = 64 && x.rowBytes = if x.conv = 4 then 256 else 128

/-- A follow-on word is a legal Form X MMA (R137). -/
def mmawOk (w : Nat) : Bool :=
  fld w 31 25 = 0x23 && fld w 0 0 = 0 && decide (fld w 9 7 < 7) && decide (fld w 6 4 < 7) && decide (fld w 2 1 < 3)

/-- The slices fail SLICE (R134). -/
def sliceBad (l : List Slice) : Bool :=
  let n := (l.head?.map Slice.scnt).getD 0
  let ids := l.map Slice.sidx
  ids.any (fun i => decide (1 < ids.count i)) || ids.any (fun i => decide (n < i)) || l.any (fun x => x.scnt ≠ n) ||
  l.any (fun x => x.follow && x.sidx ≠ 0)

/-- A slice fails DESC (R134, R137). -/
def Slice.descBad (x : Slice) : Bool :=
  x.fld 511 482 ≠ 0 || decide (8 ≤ x.conv) || x.drm = 6 || x.ob = 3 || (x.follow && !mmawOk x.mmaw)

/-- A slice fails SHAPE (R134). -/
def Slice.shapeBad (x : Slice) : Bool :=
  let c := x.conv
  if x.empty then c = 4 || c = 5
  else
    x.rowBytes % srcSize c ≠ 0 || (scaled c && x.elems % 8 ≠ 0) ||
    ((c = 4 || c = 5) && !x.planeShape) ||
    ((c = 0 || c = 4 || c = 5 || c = 7) && x.texp ≠ 0) ||
    x.src.toNat % srcSize c ≠ 0 || (decide (1 < x.rows) && x.spitch % srcSize c ≠ 0) ||
    (if c = 4 || c = 5 then x.dst.toNat % 64 ≠ 0
     else x.dst.toNat % dstSize c ≠ 0 || (decide (1 < x.rows) && x.dpitch % dstSize c ≠ 0) ||
       (decide (1 < x.rows) && decide (x.dpitch < x.dstRow)))

/-- The error of a copy's validation: 2 SLICE, 1 DESC, 3 SHAPE, 0 none (R134, R136). -/
def validate (l : List Slice) : Nat :=
  if sliceBad l then 2 else if l.any Slice.descBad then 1 else if l.any Slice.shapeBad then 3 else 0

/-- The destination bytes a slice plans to write (R136). -/
def Slice.planned (x : Slice) : Nat :=
  if x.empty then 0
  else if x.conv = 4 ∨ x.conv = 5 then 41536
  else x.rows * (x.dstRow + if x.conv = 1 ∨ x.conv = 2 ∨ x.conv = 3 then x.elems / 8 else 0)

/-! ### One row (R133, R141) -/

/-- The rounding mode of a slice (R132). -/
def Slice.rm (x : Slice) : Nat := if x.drm = 7 then x.party.rm else x.drm

/-- The rounding of a slice's element at an address (R59). -/
def Slice.rnd (x : Slice) (va : Word) (ln : Nat) : Rnd := ⟨x.rm, draw x.party.srkey x.party.srseq va ln 0⟩

/-- The source address of row j. -/
def Slice.srcRow (x : Slice) (j : Nat) : Word := x.src + wd (j * x.spitch)

/-- The destination address of row j. -/
def Slice.dstVa (x : Slice) (j : Nat) : Word := x.dst + wd (j * x.dpitch)

/-- The scale row j, on the destination side or, for code 6, on the source side (R133). -/
def Slice.scaleVa (x : Slice) (j : Nat) : Word :=
  (if x.conv = 6 then x.src else x.dst) + wi x.scofs + wd (j * (x.elems / 8))

/-- Cut bytes into elements of a size. -/
def cutBytes (size : Nat) (l : List PByte) : List (List PByte) := pieces size (l.length / size) l

/-- A BF16 element scaled by 2^(-TEXP). -/
def bfIn (x : Slice) (b : List PByte) : FV := fscale (fdecode fBF16 (pNat b)) (-x.texp)

/-- A row's destination bytes, its scale bytes, and its converter events. -/
abbrev RowOut := List PByte × List PByte × CvEv

/-- A block-scaled encoder's row (codes 1 to 3). -/
def encodeRow (x : Slice) (j : Nat) (src : List PByte) : RowOut :=
  let width := if x.conv = 1 then 4 else 8
  let blocks := ((List.range (x.elems / 8)).zip (cutBytes 16 src)).map (fun (q : Nat × List PByte) =>
    let va := x.dstVa j + wd (width * q.1)
    let xs := (cutBytes 2 q.2).map (bfIn x)
    let tag := pTag q.2
    match x.conv with
    | 1 =>
      let (w, c, e) := encodeQ4X x.ob (((List.range 8).zip xs).map (fun (p : Nat × FV) => (p.2, x.rnd (va + wd (p.1 / 2)) (4 * (p.1 % 2)))))
      (pBytes 4 w tag, pBytes 1 c tag, e)
    | 2 =>
      let (l, c, e) := encodeFp8 fE4 kE4 (((List.range 8).zip xs).map (fun (p : Nat × FV) => (p.2, x.rnd (va + wd p.1) 0)))
      (l.flatMap (fun b => pBytes 1 b tag), pBytes 1 c tag, e)
    | _ =>
      let (l, c, e) : List Int × Nat × CvEv := encodeInts kI8 127 (((List.range 8).zip xs).map (fun (p : Nat × FV) => (p.2, x.rnd (va + wd p.1) 0)))
      (l.flatMap (fun (b : Int) => pBytes 1 (b % 256).toNat tag), pBytes 1 c tag, e))
  (blocks.flatMap (·.1), blocks.flatMap (·.2.1), blocks.foldl (fun e b => cvPlus e b.2.2) {})

/-- A row of code 6, from its words and its scale row. -/
def decodeRow (x : Slice) (j : Nat) (src scales : List PByte) : RowOut :=
  let blocks := ((List.range (x.elems / 8)).zip ((cutBytes 4 src).zip (cutBytes 1 scales))).map (fun (q : Nat × List PByte × List PByte) =>
    let tag := minTag (pTag q.2.1) (pTag q.2.2)
    let (vs, e) := decodeQ4X (pNat q.2.1) (pNat q.2.2)
    (((List.range 8).zip vs).flatMap (fun (p : Nat × FV) =>
      pBytes 2 (fpack fBF16 (x.rnd (x.dstVa j + wd (2 * (8 * q.1 + p.1))) 0) (fscale p.2 x.texp)).code tag), e))
  (blocks.flatMap (·.1), [], blocks.foldl (fun e b => cvPlus e b.2) {})

/-- A row of code 7. -/
def narrowRow (x : Slice) (j : Nat) (src : List PByte) : RowOut :=
  (((List.range x.elems).zip (cutBytes 4 src)).flatMap (fun (q : Nat × List PByte) =>
    pBytes 2 (fpack fBF16 (x.rnd (x.dstVa j + wd (2 * q.1)) 0) (fdecode fF32 (pNat q.2))).code (pTag q.2)), [], {})

/-- A row of the codes that go row by row. -/
def convRow (x : Slice) (j : Nat) (src scales : List PByte) : RowOut :=
  match x.conv with
  | 0 => (src, [], {})
  | 6 => decodeRow x j src scales
  | 7 => narrowRow x j src
  | _ => encodeRow x j src

/-- Emax of a tile (R73): the largest floor(log2) of its finite nonzero elements. -/
def emax (l : List FV) : Option Int :=
  l.foldl (fun (m : Option Int) v =>
    match v with
    | .fin _ n d =>
      if n = 0 then m
      else match m with
        | none => some (floorLog2 n d)
        | some e => some (max e (floorLog2 n d))
    | _ => m) none

/-- A plane tile from its elements: X, NaN bits, F, SRCFMT, POISON's tag, in memory order (R71, R72, R133). -/
def planeImage (dst : Word) (xs : List Int) (nans : List Bool) (f : Int) (srcfmt : Nat) (tag : Option (BitVec 12)) : List PByte :=
  let header := (f % 2 ^ 16).toNat + srcfmt * 2 ^ 16 +
    (match tag with
     | some g => (0x8000 + g.toNat) * 2 ^ 32
     | none => 0) + (dst + 41024).toNat * 2 ^ 64
  (moduli.flatMap (fun m => xs.map (fun v => ((BitVec.ofNat 8 (modN v m) : Byte), (none : Option (BitVec 12)))))) ++ pBytes 64 header none ++
  (pieces 8 512 nans).flatMap (fun b => pBytes 1 (b.foldr (fun x n => 2 * n + (if x then 1 else 0)) 0) none)

/-- Codes 4 and 5: a whole tile (R73, R141). -/
def planeConv (x : Slice) (src : List PByte) : List PByte × CvEv :=
  let tag := pTag src
  if x.conv = 4 then
    (planeImage x.dst ((cutBytes 4 src).map (fun b => sx 32 (pNat b))) (List.replicate 4096 false) 0 0 tag, {})
  else
    let vs := (cutBytes 2 src).map (fun b => fdecode fBF16 (pNat b))
    let m := emax vs
    let f : Int := match m with
      | none => 0
      | some e => e - 23
    let xs := ((List.range 4096).zip vs).map (fun (p : Nat × FV) =>
      match p.2 with
      | .fin neg n d =>
        (match fscale (.fin neg n d) (-f) with
         | .fin _ a b => snum neg (roundNat (x.rnd (x.dst + wd p.1) 0) neg a b).1
         | _ => 0)
      | _ => 0)
    let nans := vs.map (fun v => !isFin v)
    (planeImage x.dst xs nans f 9 tag, { nansc := (nans.filter (· == true)).length })

/-! ### Execution (R131, R135, R138) -/

/-- The copy the engine of a core works on: the first closed copy that has not landed, or whose follow-on MMA is parked at a fault
(R137; R131 takes copies in the order in which they closed; that one parked at a fault keeps the later ones waiting is the model's
reading).
Log 92: DEDUCED. -/
def headCopy (s : State) (core : Nat) : Option Copy :=
  (s.copies.filter (fun c => c.core == core && c.order ≠ 0 && (!c.landed || c.park.isSome))).foldl (fun (m : Option Copy) c =>
    match m with
    | none => some c
    | some d => some (if c.order < d.order then c else d)) none

/-- Replace a copy. -/
def putCopy (s : State) (c : Copy) : State := { s with copies := s.copies.map (fun d => if d.id = c.id then c else d) }

/-- The ECODE of a failed access (R136). -/
def EErr.copy : EErr → Nat
  | .xlate => 4
  | .perm => 5
  | .barwin _ => 6
  | .xlost => 7
  | .fabric => 9

/-- The rows a slice must write. -/
def Slice.goal (x : Slice) : Nat := if x.empty then 0 else x.rows

/-- All the rows of a slice, as a set of bits. -/
def Slice.full (x : Slice) : Nat := 2 ^ x.goal - 1

/-- Every row of every slice has been moved. -/
def Copy.allRows (c : Copy) : Bool := (c.slices.zip c.rows).all (fun p => p.2 = p.1.full)

/-- The copy has failed with an error code (R135, R138). -/
def failCopy (s : State) (c : Copy) (e : Nat) : State :=
  dropAsks (putCopy s { c with err := e, landed := true, todo := [], park := none }) (Ask.ofOp c.id)

/-- What is left of the rows formed lands, but for the sectors that the event names (R128); the bytes credit the barrier as they land
(R139), and what another node refuses or does not answer fails the copy (R101, R305). -/
def landRest (s : State) (c : Copy) : State :=
  match c.slices with
  | [] => putCopy s c
  | x :: _ =>
    let r := landNow s x.party c.id c.todo
    let c := { c with bytes := c.bytes + r.n, todo := r.left, landed := c.allRows && r.left.isEmpty }
    let s := if c.toReg ∨ r.n = 0 then r.s else creditBar r.s c.core (pbOf x.party.k c.tag) r.n false
    if r.bad then failCopy s c EErr.fabric.copy else putCopy s c

/-- The source ranges of a row, or of a whole plane tile. -/
def Slice.reads (x : Slice) (j : Nat) : List (Word × Nat) :=
  if x.conv = 4 ∨ x.conv = 5 then (List.range 64).map (fun r => (x.srcRow r, x.rowBytes))
  else if x.conv = 6 then [(x.srcRow j, x.rowBytes), (x.scaleVa j, x.elems / 8)]
  else [(x.srcRow j, x.rowBytes)]

/-- The destination ranges of a row, or of a whole plane tile. -/
def Slice.writes (x : Slice) (j : Nat) : List (Word × Nat) :=
  if x.conv = 4 ∨ x.conv = 5 then [(x.dst, 41536)]
  else if x.conv = 1 ∨ x.conv = 2 ∨ x.conv = 3 then [(x.dstVa j, x.dstRow), (x.scaleVa j, x.elems / 8)]
  else [(x.dstVa j, x.dstRow)]

/-- The sectors of a row that a copy has read early. -/
def Copy.early (c : Copy) (k j i : Nat) : Option (List PByte) := (c.got.find? (fun g => g.1 == (k, j, i))).map (·.2)

/-- Read a resolved range, its pieces being the i-th and those after it of the row, where they have not been read early. -/
def readPart (got : Nat → Option (List PByte)) : Nat → State → List Piece → List PByte × State
  | _, s, [] => ([], s)
  | i, s, x :: r =>
    let (a, s) := match got i with
      | some b => (b, s)
      | none => readPieces s [x]
    let (b, s) := readPart got (i + 1) s r
    (a ++ b, s)

/-- Read resolved ranges one after another. -/
def readRanges (got : Nat → Option (List PByte)) : Nat → State → List (List Piece) → List (List PByte) × State
  | _, s, [] => ([], s)
  | i, s, l :: r =>
    let (a, s) := readPart got i s l
    let (b, s) := readRanges got (i + l.length) s r
    (a :: b, s)

/-- What a unit of a slice writes: the bytes of its destination ranges, and its events. -/
def Slice.unitOut (x : Slice) (j : Nat) (src : List (List PByte)) : List (List PByte) × CvEv :=
  if x.conv = 4 ∨ x.conv = 5 then
    let (b, e) := planeConv x src.flatten
    ([b], e)
  else
    let (b, sc, e) := convRow x j (src.headD []) (src.getD 1 [])
    ([b, sc], e)

/-- A request for sectors of row j of slice k of a copy. -/
def Ask.ofRow (id k j : Nat) (a : Ask) : Bool :=
  match a.by_ with
  | .op n (1 :: x :: y :: _) => n == id && x == k && y == j
  | _ => false

/-- The places of the sectors that such a request is for. -/
def Ask.secs (a : Ask) : List Nat :=
  match a.by_ with
  | .op _ (_ :: _ :: _ :: l) => l
  | _ => []

/-- Other nodes are asked for sectors of a row, by place (R294). -/
def askRow (s : State) (c : Copy) (p : Party) (k j : Nat) (l : List (Nat × Piece)) : State :=
  if l = [] then s else askRead s p.k.badge (.op c.id (1 :: k :: j :: l.map (·.1))) p.stamp (l.map (·.2))

/-- What other nodes have sent of a row's sectors is taken; whether some of it does not come (R305). -/
def takeFar (s : State) (c : Copy) (p : Party) (k j : Nat) : Copy × State × Bool :=
  (s.asks.filter (Ask.ofRow c.id k j)).foldl (fun (x : Copy × State × Bool) a =>
    match await x.2.1 p.k.badge a with
    | .wait s => (x.1, s, x.2.2)
    | .dead s => (x.1, s, true)
    | .gone a s =>
      let (bs, s) := readPieces s a.pieces
      ({ x.1 with got := x.1.got ++ (a.secs.zip (cutPieces a.pieces bs)).map (fun q => ((k, j, q.1), q.2.2)) }, s, x.2.2)) (c, s, false)

/-- The sectors of a row at other nodes that have not come, by place. -/
def Copy.farLeft (c : Copy) (k j : Nat) (rs : List (List Piece)) : List (Nat × Piece) :=
  ((List.range rs.flatten.length).zip rs.flatten).filter (fun q => farLoc q.2.loc && (c.early k j q.1).isNone)

/-- A row whose ranges are resolved is read, formed, and begins to land. -/
def moveRow (s : State) (c : Copy) (k : Nat) (x : Slice) (j : Nat) (rs ws : List (List Piece)) : State :=
  let (src, s) := readRanges (c.early k j) 0 s rs
  let (out, ev) := x.unitOut j src
  let pois := out.any (fun l => (pTag l).isSome) || ((x.conv = 4 || x.conv = 5) && (pTag src.flatten).isSome)
  let done := if x.conv = 4 ∨ x.conv = 5 then x.full else c.rows.getD k 0 ||| 2 ^ j
  landRest (countCv s c.core ev)
    { c with rows := c.rows.set k done, got := c.got.filter (fun g => g.1.1 ≠ k || g.1.2.1 ≠ j), pois := c.pois || pois,
             todo := c.todo ++ (ws.zip out).flatMap (fun p => landings p.1 p.2) }

/-- One row of slice k of a copy (R131, R135): every translation of the row comes before its writes, and its sectors at other nodes
come before it is moved.
Log 26: DESIGN CHOICE. -/
def copyRow (s : State) (c : Copy) (k : Nat) (x : Slice) (j : Nat) : State :=
  match engRanges s x.party .rd (x.reads j) with
  | .fault va kd lv e =>
    let (n, s) := parkEng s x.party c.id 1 1 va kd lv e
    putCopy s { c with park := some n }
  | .wait s => putCopy s c
  | .err e s => failCopy s c e.copy
  | .ok rs s =>
    match engRanges s x.party .wr (x.writes j) with
    | .fault va kd lv e =>
      let (n, s) := parkEng s x.party c.id 1 2 va kd lv e
      putCopy s { c with park := some n }
    | .wait s => putCopy s c
    | .err e s => failCopy (errMark s e) c e.copy
    | .ok ws s =>
      if s.remap.isSome && (inPlanes rs || inPlanes ws) then putCopy s c
      else
        let (c, s, bad) := takeFar s c x.party k j
        let l := c.farLeft k j rs
        if bad then failCopy s c EErr.fabric.copy
        else if l = [] then moveRow s c k x j rs ws
        else putCopy (askRow s c x.party k j (l.filter (fun q => !s.asks.any (fun a => a.ofRow c.id k j && a.secs.contains q.1)))) c

/-- A row of a slice that is still to be moved. -/
def Slice.isLeft (x : Slice) (done r : Nat) : Bool := decide (r < x.goal) && !done.testBit r

/-- The slice and row to work on: those chosen, else the first that are left. -/
def pickSlice (c : Copy) (want row : Option Nat) : Option (Nat × Slice × Nat) :=
  let l := ((List.range c.slices.length).zip (c.slices.zip c.rows)).filter (fun p => p.2.2 ≠ p.2.1.full)
  let p := (want.bind (fun w => l.find? (·.1 == w))).orElse (fun _ => l.head?)
  p.map (fun p => (p.1, p.2.1, match row.filter (p.2.1.isLeft p.2.2) with
    | some r => r
    | none => ((List.range p.2.1.goal).find? (p.2.1.isLeft p.2.2)).getD 0))

/-- A sector of a row is read before the row is moved, by the copy at the head of its engine, in any order (R135). -/
def copyFetch (s : State) (id k j i : Nat) : State :=
  match s.copies.find? (fun c => c.id == id) with
  | none => s
  | some c =>
    match c.slices[k]? with
    | none => s
    | some x =>
      if headCopy s c.core ≠ some c ∨ c.slices.any (fun x => !edgeDone s x.party) = true ∨ c.park.isSome = true ∨ validate c.slices ≠ 0 ∨
          s.remap.isSome = true ∨ x.isLeft (c.rows.getD k 0) j = false ∨ (c.early k j i).isSome = true then s
      else match engRanges s x.party .rd (x.reads j) with
        | .ok rs t =>
          match rs.flatten[i]? with
          | some p =>
            let c := { c with slices := c.slices.map (fun (y : Slice) => { y with party := stampIf c.fresh s y.party }) }
            if farLoc p.loc then
              if s.asks.any (fun a => a.ofRow c.id k j && a.secs.contains i) then
                let (c, t, bad) := takeFar t c x.party k j
                if bad then failCopy t c EErr.fabric.copy else putCopy t c
              else putCopy (askRow t c x.party k j [(i, p)]) c
            else
              let (bs, t) := readPieces t [p]
              putCopy t { c with got := ((k, j, i), bs) :: c.got }
          | none => s
        | _ => s

/-- COPY_EXECUTE (R128, R131, R134, R135): the copy at the head of its engine is validated once, then moves one row, or lands what is
left of rows. Event data: id, and the slice and row to take if the event chooses, which it may while some of earlier rows is still
to land; list: the sectors of what is to land, by place, that land later. -/
def execCopyExecute (s : State) : Out :=
  match s.copies.find? (fun c => c.id == s.inp.a.headD 0) with
  | none => .next s
  | some c =>
    if headCopy s c.core ≠ some c ∨ c.landed = true ∨ c.slices.any (fun x => !edgeDone s x.party) = true then .next s
    else match unpark s c.park with
      | .wait => .next s
      | .fatal s => .next (failCopy s c 4)
      | .go s =>
        let c := { c with park := none, slices := c.slices.map (fun (x : Slice) => { x with party := stampIf c.fresh s x.party }) }
        let e := if c.checked then 0 else validate c.slices
        if c.todo ≠ [] ∧ (s.inp.a[1]? = none ∨ c.allRows = true) then .next (landRest s c)
        else if e ≠ 0 then .next (failCopy s { c with checked := false } e)
        else
          let c := { c with checked := true }
          match pickSlice c s.inp.a[1]? s.inp.a[2]? with
          | none => .next (putCopy s { c with landed := true })
          | some (k, x, j) => .next (copyRow s c k x j)

/-! ### Completion (R136, R137, R139) -/

/-- Slice 0 of a copy. -/
def Copy.first (c : Copy) : Option Slice := c.slices.find? (fun x => x.sidx = 0)

/-- FOLLOW_ON_MMA (R137): once every byte has landed the engine checks the MMA and issues it. Event data: id. -/
def execFollowOnMma (s : State) : Out :=
  match s.copies.find? (fun c => c.id == s.inp.a.headD 0) with
  | none => .next s
  | some c =>
    if c.landed = false ∨ c.err ≠ 0 ∨ c.follow = false then .next s
    else match unpark s c.park, c.first with
      | .wait, _ => .next s
      | .fatal s, _ => .next (putCopy s { c with err := 8, park := none })
      | .go s, none => .next (putCopy s { c with follow := false })
      | .go s, some x =>
        let w := x.mmaw
        let clr := fld w 3 3 = 1
        let g := fld w 2 1
        let c := { c with park := none }
        match physTile x.party.k (fld w 24 22) with
        | none => .next (putCopy s { c with err := 8 })
        | some pt =>
          if clr = false ∧ g ≠ issuedMode s c.core pt then .next (putCopy s { c with err := 8 })
          else match mmaCheck s x.party (fld w 9 7) (fld w 6 4) g (wd (x.fld 351 288)) (wd (x.fld 415 352)) with
            | .trap _ _ t => .next (putCopy (detected s t) { c with err := 8 })
            | .fault va kd lv e t =>
              let (n, s) := parkEng (detected s t) x.party c.id 1 17 va kd lv e
              .next (putCopy s { c with park := some n })
            | .ok a b s => .next (putCopy (enterStream s (stampIf true s x.party) pt (.mma clr g a b)) { c with follow := false })

/-- The copy status word (R136). -/
def copyStatus (c : Copy) (q : Word) : Word :=
  wd (q.toNat % 65536 * 2 ^ 48 + min (2 ^ 32 - 1) c.bytes * 2 ^ 16 + c.err * 2 ^ 8 + (if c.pois then 4 else 0) +
    (if c.err ≠ 0 then 2 else 0) + 1)

/-- COPY_COMPLETE (R136, R139): the completion object is set and the copy leaves its classes. Event data: id. -/
def execCopyComplete (s : State) : Out :=
  match s.copies.find? (fun c => c.id == s.inp.a.headD 0) with
  | none => .next s
  | some c =>
    if c.landed = false ∨ (c.err = 0 ∧ c.follow = true) then .next s
    else
      let s :=
        if c.toReg then
          let (q, s) := takeEseq s
          c.slices.foldl (fun s x => writeStatus s x.party.agent c.tag (copyStatus c q)) s
        else if c.err = 0 then s
        else match c.slices with
          | [] => s
          | x :: _ =>
            let pb := pbOf x.party.k c.tag
            let n := if c.checked then (c.slices.map Slice.planned).sum - c.bytes else 0
            if n = 0 then barStep s c.core pb (fun b => { b with err := true }) else creditBar s c.core pb n true
      let s := c.slices.foldl (fun s x =>
        let s := countDown s x.party.agent .cp
        if x.counts && (c.err ≠ 0) then countDown s x.party.agent .tl else s) s
      .next { s with copies := s.copies.filter (fun d => d.id ≠ c.id) }

/-! ### CPL (R140) -/

/-- An address of a CPL lane: its lane, whether it is the destination, and the address. -/
structure CplAddr where
  lane : Nat
  dst : Bool
  va : Word
deriving DecidableEq, Repr

/-- A CPL address resolved. -/
structure CplRes where
  ad : CplAddr
  acc : Acc
  pg : Page
deriving DecidableEq, Repr

/-- The trap of the addresses that fail a step. -/
def cplTrap (s : State) (cause : Nat) (l : List CplAddr) : Option Issue :=
  match l with
  | [] => none
  | x :: _ => some (trapAt s cause x.va (if x.dst then 1 else 0) (maskList (l.map (·.lane))))

/-- Translate every address; those that fault with their record's facts. -/
def cplXlate (s : State) (w : Who) : List CplAddr → List CplRes × List (CplAddr × Nat × Nat × Word) × State
  | [] => ([], [], s)
  | x :: r =>
    match translate s w x.va with
    | .bad k l e =>
      let (a, b, s) := cplXlate (walkRead s w x.va) w r
      (a, (x, k, l, e) :: b, s)
    | .ok pg pa new =>
      match pinTake s.pins w.ctx x.va pg with
      | none =>
        let (a, b, s) := cplXlate (walkRead s w x.va) w r
        (a, (x, 3, 3, pg.entry) :: b, s)
      | some pins =>
        let (a, b, s) := cplXlate (tlbLearn { walkRead s w x.va with pins := pins } new) w r
        (⟨x, mkAcc s pg pa x.lane 16 x.va 0 0, pg⟩ :: a, b, s)

/-- The first step of R110 at which an address fails, over all of them together. -/
def firstTrap : List (Option Issue) → Option Issue
  | [] => none
  | some r :: _ => some r
  | none :: r => firstTrap r

/-- CPL's checks, then its issue (R140); PERM comes before BARWIN, both of step 4 of R110.
Log 93: DEDUCED. -/
def cplIssue (s : State) (pb : Nat) (l : List CplAddr) : Issue :=
  match firstTrap [cplTrap s ALIGN (l.filter (fun x => x.va.toNat % 16 ≠ 0)),
                   cplTrap s PERM (l.filter (fun x => !canonical x.va))] with
  | some r => r
  | none =>
    let w := whoOf s.cur
    let (rs, bad, s') := cplXlate s w l
    match bad with
    | (x, k, lv, e) :: _ => 
      .done (parkSlot (detected s s') (if x.dst then 2 else 1) x.va k lv e (maskList (bad.map (·.1.lane))) (if x.dst then 1 else 0))
    | [] =>
      let some_ : (CplRes → Bool) → List CplAddr := fun f => (rs.filter f).map (·.ad)
      match firstTrap [cplTrap s PERM (some_ (fun x => !permitted w (if x.ad.dst then .wr else .rd) x.pg)),
                       cplTrap s BARWIN (some_ (fun x => x.ad.dst && (liveIn s' x.acc.loc 16).isSome)),
                       cplTrap s XLOST (some_ (fun x => lostLoc s' x.acc.loc))] with
      | some r => keepWalk s s' r
      | none =>
        if mustWait s' (rs.map (·.acc)) then .stall
        else
          let s := forkEdge s'
          let (n, s) := freshId s
          let pairs := (rs.filter (fun x => !x.ad.dst)).zip (rs.filter (fun x => x.ad.dst))
          .done (advance { countUp s .cp with
            cpls := s.cpls ++ [⟨n, partyOf s, pb, 0, pairs.map (fun p => (p.1.acc, p.2.acc))⟩] })

/-- CPL (R140); with no active lane it copies nothing. -/
def execCpl (d b a : Nat) (s : State) : Out :=
  run (.cpl d b a) { vr := [d, d + 1, b, b + 1], sr := [a], cls := some .cp }
    (fun s =>
      let n := getS s a
      if d % 2 = 1 ∨ b % 2 = 1 ∨ 1024 ≤ n.toNat ∨ s.cur.k.nBar ≤ n.toNat then illegal s (.cpl d b a)
      else match activeLanes s with
        | [] => .done (advance s)
        | act => cplIssue s (pbOf s.cur.k n.toNat)
            (act.flatMap (fun l => [⟨l, false, getV2 s b l⟩, ⟨l, true, getV2 s d l⟩]))) s

/-- The 16 bytes of a CPL address as a piece. -/
def cplPiece (a : Acc) : Piece := ⟨a.va, a.loc, a.coh, a.pr, a.ord, 0, 0, 16⟩

/-- A CPL address lies in an allocation declared lost (R101, R140). -/
def cplLost (s : State) (l : List Acc) : Bool := l.any (fun a => lostLoc s a.loc)

/-- A CPL lane's 16 bytes are credited and it leaves (R140). -/
def cplLand (s : State) (c : CplOp) (j : Nat) (dead : Bool) : State :=
  let s := creditBar s c.party.core c.pb 16 dead
  let left := c.lanes.eraseIdx j
  if left = [] then countDown (dropAsks { s with cpls := s.cpls.filter (fun x => x.id ≠ c.id) } (Ask.ofOp c.id)) c.party.agent .cp
  else { s with cpls := s.cpls.map (fun x => if x.id = c.id then { x with lanes := left, bytes := x.bytes + 16 } else x) }

/-- A lane's bytes are written, at another node once it has been asked. -/
def cplWrite (s : State) (c : CplOp) (b : Acc) (bs : List PByte) : ERes Unit :=
  if farLoc b.loc then .wait (askWrite s c.party.k.badge (.op c.id [b.lane, 1]) c.party.stamp [cplPiece b] bs)
  else .ok () (writePieces c.party.core [cplPiece b] bs s)

/-- One lane of a CPL moves its bytes. -/
def cplMove (s : State) (c : CplOp) (a b : Acc) : ERes Unit :=
  match askOf s (.op c.id [b.lane, 1]) with
  | some q =>
    (match await s c.party.k.badge q with
     | .wait s => .wait s
     | .dead s => .err .fabric s
     | .gone q s => .ok () (writePieces c.party.core q.pieces q.bytes s))
  | none =>
    match readFar s c.party c.id [a.lane, 0] [cplPiece a] with
    | .ok bs s => cplWrite s c b bs
    | .wait s => .wait s
    | .err e s => .err e s
    | .fault w x y z => .fault w x y z

/-- CPL_LANE_LAND (R140): one lane's bytes land and credit the barrier; a lane that a switch refuses or does not answer is credited
with the error (R101, R305). Event data: id, and the lane's place in the list if the event chooses one. -/
def execCplLaneLand (s : State) : Out :=
  match s.cpls.find? (fun c => c.id == s.inp.a.headD 0) with
  | none => .next s
  | some c =>
    let j := s.inp.a.getD 1 0 % max 1 c.lanes.length
    match c.lanes[j]? with
    | none => .next s
    | some (a, b) =>
      if edgeDone s c.party = false ∨ (s.remap.isSome && (planeSpace a.loc || planeSpace b.loc)) = true then .next s
      else if cplLost s [a, b] = true then .next (cplLand s c j true)
      else match cplMove s c a b with
        | .ok _ s => .next (cplLand s c j false)
        | .wait s => .next s
        | .err _ s => .next (cplLand s c j true)
        | .fault _ _ _ _ => .next s

end Sys2Proof.Machine
end

