-- ==== Sys2Proof/Machine/Sketch.lean ====
section
/-!
DEFINITION. Count sketches (13 R235 to R248): descriptors, hashes, SKUPD and SKQRY with their counter accesses, and the
whole-sketch operations.
-/
namespace Sys2Proof.Machine

open Sys2Proof

/-! ### Descriptors and hashing -/

/-- A sketch descriptor's fields (R235). -/
def sketchOf (va : Word) (loc : Nat) (coh : Bool) (x : Nat) : Sketch :=
  { va := va, loc := loc, coh := coh, base := wd (fld x 63 0), lw := fld x 68 64, depth := fld x 71 69, seed := fld x 75 72,
    scale := sx 8 (fld x 83 76), narrow := fld x 84 84 = 1, satf := fld x 85 85 = 1 }

/-- Why a descriptor is malformed (R236): 0 when it is not.
Log 116: DESIGN CHOICE. -/
def sketchBad (x : Nat) : Nat :=
  let d := sketchOf 0 0 false x
  if fld x 255 86 ≠ 0 then 1
  else if d.lw < 4 ∨ 24 < d.lw then 2
  else if d.depth ≠ 3 ∧ d.depth ≠ 5 ∧ d.depth ≠ 7 then 3
  else if d.base.toNat % 128 ≠ 0 then 4
  else 0

/-- The bytes of a counter. -/
def Sketch.size (d : Sketch) : Nat := if d.narrow then 2 else 4

/-- lim of R242. -/
def Sketch.lim (d : Sketch) : Int := if d.narrow then 2 ^ 15 - 1 else 2 ^ 31 - 1

/-- The counters of a sketch. -/
def Sketch.count (d : Sketch) : Nat := d.depth * 2 ^ d.lw

/-- A and M of a seed set's row (R238). -/
def rowConst (s r : Nat) : Nat × Nat :=
  let (c0, c1, c2, c3) := culm10 (BitVec.ofNat 32 r) 0 0 0 0x4B513745 (BitVec.ofNat 32 s)
  (c1.toNat * 2 ^ 32 + c0.toNat, (c3.toNat * 2 ^ 32 + c2.toNat) ||| 1)

/-- hash of R237: the bucket, and whether the sign is negative. -/
def skHash (s r l i : Nat) : Nat × Bool :=
  if s = 0 then ((i * (2 * r + 1) + 3 * r) % 2 ^ l, i / 2 ^ r % 2 = 1)
  else
    let (a, m) := rowConst s r
    let x := (i + a) * m % 2 ^ 64
    let x := x.xor (x / 2 ^ 29)
    let x := x * 0xB5C319E76A2D4F93 % 2 ^ 64
    (x / 2 ^ (64 - l), x / 2 ^ (63 - l) % 2 = 1)

/-- The counter of a lane's index in a row: its address and sign. -/
structure Cell where
  lane : Nat
  row : Nat
  va : Word
  neg : Bool
deriving DecidableEq, Repr

/-- The counters of an index (R237, R242). -/
def cellsOf (d : Sketch) (lane : Nat) (idx : Word) : List Cell :=
  (List.range d.depth).map (fun r =>
    let (b, g) := skHash d.seed r d.lw idx.toNat
    ⟨lane, r, d.base + wd ((r * 2 ^ d.lw + b) * d.size), g⟩)

/-- The homes that hold counters (R240). -/
def skHome (loc : Nat) (coh : Bool) : Bool :=
  match locClass loc with
  | 0 => coh
  | 1 => false
  | 2 => 240 ≤ nodeOf loc
  | _ => true

/-- Whose request a switch sees: the node, job key and group (R305), and the core whose L1 the issuer reads. -/
structure Asker where
  node : Nat
  jobkey : Word
  grp : BitVec 16
  core : Nat
deriving DecidableEq, Repr

/-- This device asks for a kernel's stook. -/
def askerOf (s : State) (k : Kernel) (core : Nat) : Asker := ⟨s.node, k.jobkey, k.grp, core⟩

/-- SATF of a descriptor is set or cleared where it lies, as one atomic OR or AND of its byte (R242, R245); at a switch the request is
checked as any (R305), and one that is lost does not answer. No L1 of the issuer's core keeps an older copy (R273). Another device's
memory is not held here (log 10). -/
def putSatf (s : State) (w : Asker) (loc : Nat) (coh on : Bool) : State :=
  if (farLoc loc ∧ nodeOf loc < 240) ∨ deadSwitch s loc = true then s
  else if farLoc loc ∧ granaryOk s loc w.node w.jobkey w.grp = false then logRefused s (nodeOf loc - 240) loc
  else
    let s := eccRead s coh (loc + 10) 1
    let b := rdByte s coh (loc + 10)
    l1Drop (wrSector s coh (loc + 10) [if on then b ||| 0x20 else b &&& 0xDF] none) w.core (loc / 32)

/-- The node that steps a counter holds the descriptor too, or this device does: SATF is set with the step. -/
def satfHere (at_ satf : Nat) : Bool := !farLoc satf || (farLoc at_ && nodeOf at_ == nodeOf satf)

/-- The packet that sets or clears SATF of a descriptor at another node (R242, R294). -/
def postSatf (s : State) (b : Badge) (id loc : Nat) (on : Bool) : State :=
  post s b 2 (nodeOf loc) (loc % 2 ^ 44) 16 (some id)
    [loc % 2 ^ 44 + 8, 4, if on then AtOp.or.code else AtOp.and.code, 0, if on then 0x200000 else 0xFFDFFFFF, 0]

/-- SATF of a descriptor held here, now. -/
def getSatf (s : State) (loc : Nat) (coh : Bool) : Bool := (rdByte s coh (loc + 10)).getLsbD 5

/-- The flags of a descriptor as a piece to read. -/
def satfPiece (loc : Nat) (coh : Bool) : Piece := ⟨0, loc + 8, coh, false, 0, 0, 0, 4⟩

/-- SATF of a descriptor, read for a part of an operation. -/
def readSatf (s : State) (p : Party) (op : Nat) (key : List Nat) (loc : Nat) (coh : Bool) : ERes Bool :=
  if farLoc loc then
    match readFar s p op key [satfPiece loc coh] with
    | .ok bs s => .ok (((bs.getD 2 (0, none)).1).getLsbD 5) s
    | .wait s => .wait s
    | .err e s => .err e s
    | .fault a b c d => .fault a b c d
  else .ok (getSatf s loc coh) s

/-- SATF of a descriptor is set or cleared for a part of an operation; at another node once that has been asked. -/
def writeSatf (s : State) (p : Party) (op : Nat) (key : List Nat) (loc : Nat) (coh on : Bool) : ERes Unit :=
  let w := askerOf s p.k p.core
  if farLoc loc then
    match askOf s (.op op key) with
    | some a =>
      (match await s p.k.badge a with
       | .wait s => .wait s
       | .dead s => .err .fabric s
       | .gone _ s => .ok () (putSatf s w loc coh on))
    | none =>
      let (n, s) := newAsk s (.op op key) p.stamp [satfPiece loc coh] []
      .wait (postSatf s p.k.badge n loc on)
  else .ok () (putSatf s w loc coh on)

/-- Saturate to ±lim. -/
def skSat (lim t : Int) : Int := max (-lim) (min lim t)

/-- A counter's value. -/
def counterAt (s : State) (coh : Bool) (loc size : Nat) : Int := sx (8 * size) (leNat (rdBytes s coh loc size))

/-- Write a counter at its place with the poison it brings; the core's own L1 copy is dropped. -/
def putCounter (s : State) (core : Nat) (coh : Bool) (loc size : Nat) (v : Int) (tag : Option (BitVec 12)) : State :=
  l1Drop (wrSector s coh loc (leBytes size (v % 2 ^ (8 * size)).toNat) tag) core (loc / 32)

/-! ### SKUPD (R241 to R243) -/

/-- The types of SKUPD and SKQRY (R241). -/
def skType (et : Nat) : Bool := et = 0 || et = 2 || et = 8 || et = 9 || et = 10

/-- The descriptor of an instruction (R241 steps 2 and 3). -/
def skDesc (s : State) (va : Word) (wr : Bool) (f : Sketch → State → Issue) : Issue :=
  match readDesc s va 32 wr with
  | .stop r => r
  | .ok x loc coh _ t =>
    if sketchBad x ≠ 0 then keepWalk s t (trapAt s SKGEOM va (wd (sketchBad x)) 0) else f (sketchOf va loc coh x) t

/-- A lane's scaled value as an exact integer, with the draw of its row-0 counter's address; none for a NaN (R242, R243). -/
def skValue (s : State) (d : Sketch) (et v lane : Nat) (row0 : Word) : Option Int :=
  let x : FV := if isInt et then signedV false (elemInt et (rawV s et v lane)) 1 else elemFV et (rawV s et v lane)
  match fscale x (-d.scale) with
  | .nan _ => none
  | .inf neg => some (if neg then -(2 ^ 63) else 2 ^ 63)
  | .fin neg n q => some (snum neg (roundNat ⟨rmOf s, draw s.cur.srkey s.cur.srseq row0 lane 0⟩ neg n q).1)

/-- The exact sum of the contributions to one counter, bounded so far outside the counters that it saturates alike. -/
def skTotal (l : List (Cell × Acc × Int)) (va : Word) : Int :=
  let t := ((l.filter (fun x => x.1.va == va)).map (fun x => if x.1.neg then -x.2.2 else x.2.2)).sum
  max (-(2 ^ 40)) (min (2 ^ 40) t)

/-- The steps of a SKUPD: one access per distinct counter, its total as data (R242).
Log 31: DEDUCED. -/
def skSteps : List (Cell × Acc × Int) → List (Cell × Acc × Int) → Nat → List Acc
  | _, [], _ => []
  | all, x :: r, j =>
    { x.2.1 with lane := j, data := wi (skTotal all x.1.va) } ::
      (skSteps all r (j + 1)).filter (fun a => a.va ≠ x.1.va)

/-- SKUPD once its accesses are checked (R242, R243). -/
def skUpdate (i : Instr) (s : State) (d : Sketch) (act : List Nat) (cells : List Cell) (et v : Nat) (accs : List Acc) : Issue :=
  let vals := act.map (fun l => (l, skValue s d et v l (((cells.find? (fun c => c.lane == l)).map (·.va)).getD 0)))
  let nan := maskList ((vals.filter (fun x => x.2.isNone)).map (·.1))
  let items := (cells.zip accs).filterMap (fun x =>
    ((vals.find? (fun y => y.1 == x.1.lane)).bind (·.2)).map (fun q => (x.1, x.2, q)))
  let steps := skSteps items items 0
  let s := drainOverlap s steps
  let t :=
    if steps = [] then s
    else
      let (n, s) := freshId s
      launchReq (countUp s .st) (newReq s n (.sketch (!d.narrow) d.loc d.coh) .none steps true true [])
  if nan = 0 then .done (advance t)
  else
    let t := setFlags (advance t) fINV
    if fptOf s then .after t (afterTrap FPINV (pcOf s) i nan) else .done t

/-- SKUPD (R241 to R243); h selects the place of execution alone (R240).
Log 117: DESIGN CHOICE. -/
def execSkupd (d b a h : Nat) (s : State) : Out :=
  let et := etOf s
  run (.skupd d b a h) { vr := b :: (b + 1) :: regs (is64 et) d, sr := [a], cls := some .st }
    (fun s =>
      if skType et = false ∨ b % 2 = 1 ∨ (is64 et = true ∧ d % 2 = 1) then illegal s (.skupd d b a h)
      else skDesc s (getS s a) true (fun k t =>
        let act := activeLanes t
        let cells := act.flatMap (fun l => cellsOf k l (getV2 t b l))
        if act = [] then .done (advance t)
        else access t .at k.size k.size true (cells.map (fun c => (c.lane, c.va, 0, 0))) (fun accs u =>
          afterLost u true accs (fun l => skUpdate (.skupd d b a h) u k act cells et d l))
          (fun x => skHome x.loc x.coh))) s

/-- One counter step of a SKUPD at its place, then SATF when it saturated (R242): the state, and whether SATF is to be set at another
node. A counter that reads poisoned is not written, as for any atomic (R118, R247).
Log 30: DEDUCED. -/
def sketchStep (s : State) (w : Asker) (wide : Bool) (satf : Nat) (coh : Bool) (a : Acc) : State × Bool :=
  let lim : Int := if wide then 2 ^ 31 - 1 else 2 ^ 15 - 1
  let s := pinFill (eccRead s a.coh a.loc a.size) a.coh (a.loc / 32)
  let t := counterAt s a.coh a.loc a.size + a.data.toInt
  if (if a.pr then some 0xD80 else rdTag s a.coh a.loc).isSome then (s, false)
  else
    let s := putCounter s w.core a.coh a.loc a.size (skSat lim t) none
    if skSat lim t = t then (s, false)
    else if satfHere a.loc satf then (putSatf s w satf coh true, false)
    else (s, true)

/-- The lane number of the access by which a SKUPD sets SATF at another node; it counts with the SKUPD (R242). -/
def satfLane : Nat := 1000

/-- A SKUPD whose counter saturated sets SATF at the descriptor's node, once. -/
def oweSatf (s : State) (r : Req) (satf : Nat) : Req × State :=
  if r.accs.any (fun a => a.lane == satfLane) then (r, s)
  else
    ({ r with accs := r.accs ++ [{ lane := satfLane, va := 0, loc := satf + 8, coh := false, l1 := false, ord := 0, size := 4,
                                   data := 0x200000, cmp := 0, pr := false }] },
     postSatf s (kernelOf s r.agent).badge r.id satf true)

/-- SKETCH_COUNTER_STEP (R242): one counter is stepped. Event data: id, and which of the counters left. -/
def execSketchCounterStep (s : State) : Out :=
  match s.reqs.find? (fun r => r.id == s.inp.a.headD 0) with
  | none => .next s
  | some r =>
    match r.op with
    | .sketch wide satf coh =>
      let l := localLeft r
      match l[s.inp.a.getD 1 0 % max 1 l.length]? with
      | none => .next s
      | some a =>
        let (s, owed) := sketchStep s (askerOf s (kernelOf s r.agent) r.core) wide satf coh a
        let (r, s) := if owed then oweSatf s r satf else (r, s)
        .next (progress s { r with got := r.got ++ [(a.lane, 0, none)] })
    | _ => .next s

/-! ### SKQRY (R244) -/

/-- The key of a lane's counter in a query: lane and row. -/
def qKey (lane row : Nat) : Nat := lane * 8 + row

/-- SKQRY (R241, R244). -/
def execSkqry (d b a h : Nat) (s : State) : Out :=
  let et := etOf s
  run (.skqry d b a h) { vr := [b, b + 1], vw := regs (is64 et) d, sr := [a], cls := some .ld }
    (fun s =>
      if skType et = false ∨ b % 2 = 1 ∨ (is64 et = true ∧ d % 2 = 1) then illegal s (.skqry d b a h)
      else skDesc s (getS s a) false (fun k t =>
        let act := activeLanes t
        let cells := act.flatMap (fun l => cellsOf k l (getV2 t b l))
        if act = [] then .done (advance t)
        else access t .rd k.size k.size true (cells.map (fun c => (c.lane, c.va, 0, 0))) (fun accs u =>
          afterLost u true accs (fun l =>
            let u := drainOverlap u l
            let (n, u) := freshId u
            let dest : Dest := .vreg d (if is64 et then 8 else 4) false
            let reads := (cells.zip l).map (fun x => { x.2 with lane := qKey x.1.lane x.1.row, data := if x.1.neg then 1 else 0 })
            let r := newReq u n (.query k.depth k.scale et (rmOf u) u.cur.srkey u.cur.srseq) dest reads true true []
            let u := pend (countUp u .ld) dest
            .done (advance (launchReq u r))))
          (fun x => skHome x.loc x.coh))) s

/-- A counter read for a query, never from an L1 (R244), of which no older copy is left in the core's L1 (R273). -/
def queryRead (s : State) (core : Nat) (a : Acc) : (Nat × Word × Option (BitVec 12)) × State :=
  let s := l1Drop (pinFill (eccRead s a.coh a.loc a.size) a.coh (a.loc / 32)) core (a.loc / 32)
  ((a.lane, wd (leNat (rdBytes s a.coh a.loc a.size)), if a.pr then some 0xD80 else rdTags s a.coh a.loc a.size), s)

/-- Counters read one after another. -/
def queryReads (s : State) (core : Nat) : List Acc → List (Nat × Word × Option (BitVec 12)) × State
  | [] => ([], s)
  | a :: r =>
    let (x, s) := queryRead s core a
    let (l, s) := queryReads s core r
    (x :: l, s)

/-- The median of a lane's estimates (R244). -/
def median (l : List Int) : Int := (l.foldl (fun s a => insAsc a s) []).getD ((l.length + 1) / 2 - 1) 0

/-- The estimate of a lane converted to the type (R244).
Log 119: DEDUCED. -/
def queryLane (r : Req) (vd depth : Nat) (scale : Int) (et rm : Nat) (key seq : Word) (lane : Nat) : LRes :=
  let est := (List.range depth).map (fun row =>
    match r.accs.find? (fun a => a.lane == qKey lane row), gotLane r (qKey lane row) with
    | some a, some (v, _) => let c := sx (8 * a.size) v.toNat; if a.data = 0 then c else -c
    | _, _ => 0)
  let v := fscale (signedV false (median est) 1) scale
  let rnd : Rnd := ⟨rm, draw key seq (wd vd) lane 0⟩
  match fmtOf et with
  | some f => floatRes (fpack f rnd v)
  | none =>
    match v with
    | .fin neg n q =>
      let x := snum neg (roundNat rnd neg n q).1
      let y := max (etMin et) (min (etMax et) x)
      { val := formInt et y, ev := if x = y then {} else { satcv := 1 } }
    | _ => { val := 0 }

/-- The lanes of a query. -/
def queryLanes (r : Req) : List Nat := (r.accs.filter (fun a => a.lane % 8 = 0)).map (fun a => a.lane / 8)

/-- A query whose counters have all been read ends (R244, R111); with a poisoned one it stays in its count until its trap
(R126). -/
def finishQuery (s : State) (r : Req) (vd depth : Nat) (scale : Int) (et rm : Nat) (key seq : Word) : State :=
  let s := unpend (dropReq s r.id) r.agent r.dest
  let bad := r.accs.filterMap (fun a => ((gotLane r a.lane).bind (·.2)).map (fun t => (a, t)))
  match bad with
  | [] =>
    let s := countDown s r.agent .ld
    let l := (queryLanes r).map (fun i => (i, queryLane r vd depth scale et rm key seq i))
    let s := updAgent s r.agent (fun a => { writeLanes a et vd l with sstat := a.sstat ||| allFlags l })
    countCv s (coreOf s r.agent) (allEv l)
  | (x, t) :: more =>
    let low := more.foldl (fun m y => min m (y.1.lane / 8)) (x.lane / 8)
    let mine := bad.filter (fun y => y.1.lane / 8 == low)
    let addr := mine.foldl (fun (m : Word) y => if y.1.va.toNat < m.toNat then y.1.va else m) ((mine.head?.map (·.1.va)).getD 0)
    let tag := more.foldl (fun (m : BitVec 12) y => if y.2.toNat < m.toNat then y.2 else m) t
    updAgent s r.agent (fun a => putSlot a r.secondary { getSlot a r.secondary with
      poison := (getSlot a r.secondary).poison ++ [⟨(destRegs r.dest).1, [], addr, maskList (bad.map (fun y => y.1.lane / 8)), tag⟩] })

/-- SKQRY_RESPONSE (R244): counters are read, and when all are in, the medians are written. Event data: id, and how many
are read now (0: all that are left).
Log 118: DESIGN CHOICE. -/
def execSkqryResponse (s : State) : Out :=
  match s.reqs.find? (fun r => r.id == s.inp.a.headD 0) with
  | none => .next s
  | some r =>
    match r.op, r.dest with
    | .query depth scale et rm key seq, .vreg vd _ _ =>
      let n := s.inp.a.getD 1 0
      let l := localLeft r
      let (got, s) := queryReads s r.core (if n = 0 then l else l.take n)
      let r := { r with got := r.got ++ got }
      .next (if r.accs.all (fun a => (gotLane r a.lane).isSome) then finishQuery s r vd depth scale et rm key seq
        else { s with reqs := s.reqs.map (fun q => if q.id = r.id then r else q) })
    | _, _ => .next s

/-! ### Whole-sketch operations (R245, R246) -/

/-- The lowest address of a sketch's table, page by page, that lies in an allocation declared lost (R245 step 4).
Log 33: DEDUCED. -/
def sketchLost (s : State) (d : Sketch) : Option Word :=
  let bytes := d.count * d.size
  let first := 65536 - d.base.toNat % 65536
  let starts := d.base :: (List.range ((bytes + 65535 - min first bytes) / 65536 + 1)).map (fun j => d.base + wd (first + 65536 * j))
  (starts.filter (fun va => decide ((va - d.base).toNat < bytes))).find? (fun va =>
    match translate s (whoOf s.cur) va with
    | .ok pg pa _ => lostLoc s (pageLoc s pg pa)
    | .bad _ _ _ => false)

/-- The two sketches of a SKADD do not match (R245). -/
def geomDiffers (a b : Sketch) : Bool :=
  a.lw ≠ b.lw || a.depth ≠ b.depth || a.seed ≠ b.seed || a.scale ≠ b.scale || a.narrow ≠ b.narrow

/-- SKOP once its descriptors are good (R245 step 4). -/
def skopIssue (s0 s : State) (f pb k : Nat) (dst : Sketch) (src : Option Sketch) : Issue :=
  match (match sketchLost s dst with
    | some va => some va
    | none => src.bind (sketchLost s)) with
  | some va => keepWalk s0 s (trapAt s XLOST va 0 0)
  | none =>
    let s := forkEdge s
    let (n, s) := freshId s
    .done (advance { countUp s .cp with skops := s.skops ++ [⟨n, partyOf s, f, dst, src, k, pb, 0, false, 0, none⟩] })

/-- SKADD (R245). -/
def execSkadd (n a b : Nat) (s : State) : Out :=
  run (.skadd n a b) { sr := [a, b], cls := some .cp }
    (fun s =>
      if s.cur.k.nBar ≤ n then illegal s (.skadd n a b)
      else match readDesc s (getS s a) 32 true with
        | .stop r => r
        | .ok x lx cx _ t =>
          match readDesc t (getS s b) 32 false with
          | .stop r => keepFirst s (slotAsk s (getS s a) 32) r
          | .ok y ly cy _ u =>
            let d := sketchOf (getS s a) lx cx x
            let e := sketchOf (getS s b) ly cy y
            if sketchBad x ≠ 0 then keepWalk s u (trapAt s SKGEOM d.va (wd (sketchBad x)) 0)
            else if sketchBad y ≠ 0 then keepWalk s u (trapAt s SKGEOM e.va (wd (sketchBad y)) 0)
            else if geomDiffers d e = true then keepWalk s u (trapAt s SKGEOM e.va 5 0)
            else skopIssue s u 0 (pbOf u.cur.k n) 0 d (some e)) s

/-- SKCLR (R245). -/
def execSkclr (n a : Nat) (s : State) : Out :=
  run (.skclr n a) { sr := [a], cls := some .cp }
    (fun s =>
      if s.cur.k.nBar ≤ n then illegal s (.skclr n a)
      else skDesc s (getS s a) true (fun d t => skopIssue s t 1 (pbOf t.cur.k n) 0 d none)) s

/-- SKDEC (R245). -/
def execSkdec (n a b : Nat) (s : State) : Out :=
  run (.skdec n a b) { sr := [a, b], cls := some .cp }
    (fun s =>
      if s.cur.k.nBar ≤ n then illegal s (.skdec n a b)
      else skDesc s (getS s a) true (fun d t => skopIssue s t 2 (pbOf t.cur.k n) (bits (getS t b) 5 0) d none)) s

/-- A SKOP leaves the copies class. -/
def skopEnd (s : State) (o : SkOp) : State :=
  countDown (dropAsks { s with skops := s.skops.filter (fun x => x.id ≠ o.id) } (Ask.ofOp o.id)) o.party.agent .cp

/-- A SKOP ends in error (R246): the bytes left are credited at once with the error bit. -/
def skopFail (s : State) (o : SkOp) : State :=
  skopEnd (creditBar s o.party.core o.pb ((o.dst.count - o.done) * o.dst.size) true) o

/-- Replace a SKOP. -/
def putSkop (s : State) (o : SkOp) : State := { s with skops := s.skops.map (fun x => if x.id = o.id then o else x) }

/-- A counter's new value under a SKOP, and whether it saturated (R245). -/
def skopValue (f k : Nat) (lim c src : Int) : Int × Bool :=
  match f with
  | 0 => (skSat lim (c + src), skSat lim (c + src) ≠ c + src)
  | 1 => (0, false)
  | _ => (c - c / 2 ^ k, false)

/-- A SKOP goes on with what a part of it answers, parks at a fault, waits or ends in error (R104, R246). -/
def skopTake {α : Type} (s : State) (o : SkOp) (acc : Nat) (x : ERes α) (f : α → State → State) : State :=
  match x with
  | .ok a s => f a s
  | .wait s => putSkop s o
  | .err e s => skopFail (errMark s e) o
  | .fault v k l e =>
    let (n, s) := parkEng s o.party o.id 4 acc v k l e
    putSkop s { o with park := some n }

/-- Every counter has been stepped (R245): what saturation owes to a descriptor at another node is done, SKADD ORs in the source's
SATF, SKCLR clears SATF, and the SKOP ends. -/
def skopLast (s : State) (o : SkOp) : State :=
  let put : List Nat → Bool → State → (Unit → State → State) → State := fun key on s f =>
    skopTake s o 4 (writeSatf s o.party o.id key o.dst.loc o.dst.coh on) f
  let own : State → State := fun s =>
    if (askOf s (.op o.id [4])).isSome then put [4] (o.f = 0) s (fun _ s => skopEnd s o)
    else match o.f, o.src with
      | 0, some e => skopTake s o 1 (readSatf s o.party o.id [3] e.loc e.coh)
          (fun b s => if b then put [4] true s (fun _ s => skopEnd s o) else skopEnd s o)
      | 1, _ => put [4] false s (fun _ s => skopEnd s o)
      | _, _ => skopEnd s o
  if (askOf s (.op o.id [2])).isSome then put [2] true s (fun _ s => own s) else own s

/-- The source counter of a step: its bytes.
Log 32: DEDUCED. -/
def skopSource (s : State) (o : SkOp) : ERes (List PByte) :=
  match o.src with
  | none => .ok [] s
  | some e => engRead s o.party o.id [1] .rd (e.base + wd (o.done * e.size)) e.size

/-- A step is performed at its counter's far place (R240, R245). -/
def skopAt (s : State) (o : SkOp) (p : Piece) (src : List PByte) : State :=
  let s := pinFill (eccRead s p.coh p.loc o.dst.size) p.coh (p.loc / 32)
  let (v, sat) := skopValue o.f o.k o.dst.lim (counterAt s p.coh p.loc o.dst.size) (sx (8 * o.dst.size) (pNat src))
  if (if p.pr then some 0xD80 else rdTag s p.coh p.loc).isSome then s
  else
    let s := putCounter s o.party.core p.coh p.loc o.dst.size v (pTag src)
    if sat = false then s
    else if satfHere p.loc o.dst.loc then putSatf s (askerOf s o.party.k o.party.core) o.dst.loc o.dst.coh true
    else if (askOf s (.op o.id [2])).isSome then s
    else
      let (n, s) := newAsk s (.op o.id [2]) o.party.stamp [satfPiece o.dst.loc o.dst.coh] []
      postSatf s o.party.k.badge n o.dst.loc true

/-- A step is complete and credits its bytes (R245, R328). -/
def skopCredit (s : State) (o : SkOp) : State :=
  let s := creditBar s o.party.core o.pb o.dst.size false
  let o := { o with done := o.done + 1, flight := false }
  if o.done = o.dst.count then skopLast (putSkop s o) o else putSkop s o

/-- A step goes to its counter's switch (R294): its packet names the place of the descriptor's flags, and brings the source
counter. -/
def askStep (s : State) (o : SkOp) (p : Piece) (src : List PByte) : State :=
  let (n, s) := newAsk s (.op o.id [0]) o.party.stamp [p] src
  post s o.party.k.badge 3 (nodeOf p.loc) (p.loc % 2 ^ 44) 8 (some n)
    [p.loc % 2 ^ 44, o.dst.size, o.dst.loc % 2 ^ 44, o.f, o.k, pNat src, tagOut (pTag src)]

/-- A step at a switch (R328): the switch performs it when it arrives, and it completes with the response. -/
def skopSwitch (s : State) (o : SkOp) (a : Ask) : State :=
  if o.flight then
    if a.dead then skopFail s o else skopCredit (dropAsk s a.id) o
  else match await s o.party.k.badge a with
    | .wait s => putSkop s o
    | .dead s => skopFail s o
    | .gone a s =>
      match a.pieces with
      | [] => putSkop s o
      | p :: _ => putSkop { skopAt s o p a.bytes with asks := (skopAt s o p a.bytes).asks ++ [a] } { o with flight := true, at_ := p.loc }

/-- The next step of a SKOP: at home it completes; at a switch it is performed there first, and completes with the response
(R328). -/
def skopStep (s : State) (o : SkOp) : State :=
  skopTake s o 4 (engPiece s o.party .at (o.dst.base + wd (o.done * o.dst.size)) o.dst.size) (fun p s =>
    if skHome p.loc p.coh = false then skopFail s o
    else if s.remap.isSome ∧ planeSpace p.loc = true then putSkop s o
    else skopTake s o 1 (skopSource s o) (fun src s =>
      if farLoc p.loc then putSkop (askStep s o p src) o else skopCredit (skopAt s o p src) o))

/-- SKOP_COUNTER_STEP (R245, R246, R328): the next destination counter is stepped at its far place and credits the barrier, for
a counter at a switch in three events: it is asked, the step, and its response; or what is left after the last counter goes on.
Event data: id.
Log 28: DESIGN CHOICE. -/
def execSkopCounterStep (s : State) : Out :=
  match s.skops.find? (fun o => o.id == s.inp.a.headD 0) with
  | none => .next s
  | some o =>
    if edgeDone s o.party = false then .next s
    else match unpark s o.park with
      | .wait => .next s
      | .fatal s => .next (skopFail s o)
      | .go s =>
        let o := { o with park := none }
        .next (if o.done = o.dst.count then skopLast s o
          else match askOf s (.op o.id [0]) with
            | some a => skopSwitch s o a
            | none => skopStep s o)

end Sys2Proof.Machine
end

