-- ==== Sys2Proof/Machine/Sync.lean ====
section
/-!
DEFINITION. Barriers, queues and the engine sequencers (14 R249 to R268).
-/
namespace Sys2Proof.Machine

open Sys2Proof

/-! ### Barriers (R249 to R254) -/

/-- The operand v of a Form Q instruction (R252, R257). -/
def formQ (s : State) (a i : Nat) : Word := getS s a + wd i

/-- A barrier instruction on a barrier of the stook, given its physical number. -/
def onBar (i : Instr) (n : Nat) (s : State) (f : Nat → Issue) : Issue :=
  if s.cur.k.nBar ≤ n then illegal s i else f (pbOf s.cur.k n)

/-- An arrival or a push is a release at STOOK scope (R254, R260, R279): the agent's earlier accesses, of every page kind, are
performed at it first. -/
def releasing (s : State) (f : State → Issue) : Issue :=
  if canOrder s 1 true true then f (order s 1 true true) else .stall

/-- BARI (R252). -/
def execBari (n a i : Nat) (s : State) : Out :=
  run (.bari n a i) { sr := [a], eng := true }
    (fun s => onBar (.bari n a i) n s (fun pb =>
      let v := formQ s a i
      if v.toNat = 0 ∨ 65535 < v.toNat then illegal s (.bari n a i)
      else .done (advance (barStep s s.cur.core pb (fun b =>
        { b with exp := v.setWidth 16, arr := 0, pend := 0, err := false }))))) s

/-- BARA (R252, R254). -/
def execBara (n a i : Nat) (s : State) : Out :=
  run (.bara n a i) { sr := [a], eng := true }
    (fun s => onBar (.bara n a i) n s (fun pb => releasing s (fun s =>
      .done (advance (barStep s s.cur.core pb (barArrive (formQ s a i).toNat)))))) s

/-- BARW (R252): the slot waits while the phase bit equals the operand's bit 0. -/
def execBarw (n a i : Nat) (s : State) : Out :=
  run (.barw n a i) { sr := [a], eng := true }
    (fun s => onBar (.barw n a i) n s (fun pb =>
      let b := (formQ s a i).getLsbD 0
      if (barGet s s.cur.core pb).phcnt.getLsbD 0 = b then .done (setSlot s { slotOf s with wait := .parity pb b })
      else .done (advance s))) s

/-- BARS (R252): arrive, and wait for the phase unless the arrival completed it. -/
def execBars (n a i : Nat) (s : State) : Out :=
  run (.bars n a i) { sr := [a], eng := true }
    (fun s => onBar (.bars n a i) n s (fun pb => releasing s (fun s =>
      let ph := (barGet s s.cur.core pb).phcnt
      let s := barStep s s.cur.core pb (barArrive (formQ s a i).toNat)
      if (barGet s s.cur.core pb).phcnt = ph then .done (setSlot s { slotOf s with wait := .phase pb ph })
      else .done (advance s)))) s

/-- BARX (R252). -/
def execBarx (n a i : Nat) (s : State) : Out :=
  run (.barx n a i) { sr := [a], eng := true }
    (fun s => onBar (.barx n a i) n s (fun pb =>
      .done (advance (barStep s s.cur.core pb (barExpect (formQ s a i).toNat))))) s

/-- BARQ (R252): one half of the barrier word. -/
def execBarq (n d i : Nat) (s : State) : Out :=
  run (.barq n d i) { sw := [d], eng := true }
    (fun s => onBar (.barq n d i) n s (fun pb =>
      .done (advance (setS s d (wd (barWord s s.cur.core pb / 2 ^ (64 * (i % 2)))))))) s

/-! ### Queues (R256 to R260) -/

/-- An initialised queue of a stook. -/
def queueOf (s : State) (stook n : Nat) : Option Queue := s.queues.find? (fun q => q.stook == stook && q.n == n)

/-- Replace a queue. -/
def putQueue (s : State) (q : Queue) : State :=
  { s with queues := q :: s.queues.filter (fun p => p.stook ≠ q.stook || p.n ≠ q.n) }

/-- A slot's stalled queue instruction retires. -/
def retireSlot (s : State) (agent : Nat) (sec : Bool) : State :=
  updAgent s agent (fun a => putSlot a sec { getSlot a sec with wait := .ready, pc := (getSlot a sec).pc + 4 })

/-- Push a handle (R257).
Log 121: DEDUCED. -/
def pushOne (s : State) (q : Queue) (v : Word) : Queue × State :=
  ({ q with alw := q.alw - 1, count := q.count + 1 },
   wrBytes s false (q.loc + 8 * ((q.head + q.count) % 2 ^ q.cap)) (leBytes 8 v.toNat) none)

/-- Pop a handle (R257). -/
def popOne (s : State) (q : Queue) : Word × Queue :=
  (wd (leNat (rdBytes s false (q.loc + 8 * q.head) 8)), { q with head := (q.head + 1) % 2 ^ q.cap, count := q.count - 1 })

/-- Stalled pushes and pops that can complete do so, in the order they issued (R260); the first argument bounds
them. -/
def serveQueue : Nat → State → Queue → State
  | 0, s, q => putQueue s q
  | n + 1, s, q =>
    match q.push, q.pop with
    | (a, sec, v) :: r, _ =>
      if 0 < q.alw then
        let (q, s) := pushOne s { q with push := r } v
        serveQueue n (retireSlot s a sec) q
      else match q.pop with
        | (b, bs, d) :: r' =>
          if 0 < q.count then
            let (x, q) := popOne s { q with pop := r' }
            serveQueue n (retireSlot (updAgent s b (fun g => putSA g d x)) b bs) q
          else putQueue s q
        | [] => putQueue s q
    | [], (b, bs, d) :: r' =>
      if 0 < q.count then
        let (x, q) := popOne s { q with pop := r' }
        serveQueue n (retireSlot (updAgent s b (fun g => putSA g d x)) b bs) q
      else putQueue s q
    | [], [] => putQueue s q

/-- Put a queue back and serve what is stalled on it. -/
def serve (s : State) (q : Queue) : State := serveQueue (q.push.length + q.pop.length + 1) s q

/-- QERR with its cause (R259). -/
def qerr (s : State) (cause : Nat) : Issue := trapAt s QERR 0 (wd cause) 0

/-- A queue number of the stook, which must be initialised (R256, R259). -/
def onQueue (i : Instr) (n : Nat) (s : State) (f : Queue → Issue) : Issue :=
  if s.cur.k.nQ ≤ n then illegal s i
  else match queueOf s s.cur.stook n with
    | none => qerr s 1
    | some q => f q

/-- QINIT (R257 to R259).
Log 34: DEDUCED.
Log 120: DEDUCED.
Log 122: DEDUCED. -/
def execQinit (n a i : Nat) (s : State) : Out :=
  run (.qinit n a i) { sr := [a] }
    (fun s =>
      let va := getS s a
      if s.cur.k.nQ ≤ n then illegal s (.qinit n a i)
      else if i = 0 ∨ 12 < i then qerr s 2
      else if va.toNat % (8 * 2 ^ i) ≠ 0 ∨ canonical va = false then qerr s 3
      else match translate s (whoOf s.cur) va with
        | .bad kd l e => .done (parkSlot s 3 va kd l e 0)
        | .ok pg pa new =>
          match pinTake s.pins s.cur.k.ctx va pg with
          | none => .done (parkSlot s 3 va 3 3 pg.entry 0)
          | some pins =>
            let t := tlbLearn { walkRead s (whoOf s.cur) va with pins := pins } new
            if (pg.home = 2 && pg.hidx = s.cur.core && !pg.p && pg.r && pg.w && (s.cur.priv || pg.u)) = false then keepWalk s t (qerr t 3)
            else
              let busy := match queueOf s s.cur.stook n with
                | some q => 0 < q.count || !q.push.isEmpty || !q.pop.isEmpty
                | none => false
              if busy then keepWalk s t (qerr t 4)
              else .done (advance (putQueue t ⟨s.cur.stook, n, va, pageLoc s pg pa, i, 0, 0, 0, [], []⟩))) s

/-- QPUSH (R257, R260). -/
def execQpush (n a i : Nat) (s : State) : Out :=
  run (.qpush n a i) { sr := [a], eng := true }
    (fun s => onQueue (.qpush n a i) n s (fun q =>
      let v := formQ s a i
      if v = BitVec.allOnes 64 then qerr s 6
      else releasing s (fun s =>
        .done (serve (setSlot s { slotOf s with wait := .queue n }) { q with push := q.push ++ [(s.cur.id, s.slot, v)] })))) s

/-- QPOP (R257, R260). -/
def execQpop (n d i : Nat) (s : State) : Out :=
  run (.qpop n d i) { sw := [d], eng := true }
    (fun s => onQueue (.qpop n d i) n s (fun q =>
      .done (serve (setSlot s { slotOf s with wait := .queue n }) { q with pop := q.pop ++ [(s.cur.id, s.slot, d)] }))) s

/-- QTRY (R257). -/
def execQtry (n d i : Nat) (s : State) : Out :=
  run (.qtry n d i) { sw := [d] }
    (fun s => onQueue (.qtry n d i) n s (fun q =>
      if q.count = 0 then .done (advance (setS s d (BitVec.allOnes 64)))
      else
        let (x, q) := popOne s q
        .done (advance (serve (setS s d x) q)))) s

/-- QGRANT (R257, R259). -/
def execQgrant (n a i : Nat) (s : State) : Out :=
  run (.qgrant n a i) { sr := [a] }
    (fun s => onQueue (.qgrant n a i) n s (fun q =>
      let v := (formQ s a i).toNat
      if 2 ^ q.cap < q.alw + q.count + v then qerr s 5
      else .done (serve (advance s) { q with alw := q.alw + v }))) s

/-- The queue state word (R259). -/
def queueWord (q : Option Queue) : Word :=
  match q with
  | none => 0
  | some q => wd (2 ^ 36 + q.cap * 2 ^ 32 + q.alw * 2 ^ 16 + q.count)

/-- QSTAT (R257, R259). -/
def execQstat (n d i : Nat) (s : State) : Out :=
  run (.qstat n d i) { sw := [d] }
    (fun s =>
      if s.cur.k.nQ ≤ n then illegal s (.qstat n d i)
      else .done (advance (setS s d (queueWord (queueOf s s.cur.stook n))))) s

/-! ### Engine sequencers (R262 to R267) -/

/-- The programs waiting in a core's fork queue. -/
def forkLen (s : State) (core : Nat) (mat : Bool) : Nat := (s.forkQ.filter (fun f => f.core == core && f.mat == mat)).length

/-- The place of a named program's entry VA (R263). -/
def engVa (s : State) (k : Nat) : Word := s.cur.k.engTab + wd (8 * (k - 1))

/-- The entry VA of a named program from ENGTAB (R263), 0 where none is named; how the instruction ends otherwise. -/
def engEntry (s : State) (k : Nat) : Except Issue (Word × State) :=
  if k = 0 then .ok (0, s)
  else match readDesc s (engVa s k) 8 false with
    | .stop r => .error r
    | .ok x _ _ _ t => .ok (wd x, t)

/-- The entry VAs of both programs that a FORK names. -/
def engEntries (s : State) (km kc : Nat) : Except Issue (Word × Word × State) :=
  match engEntry s km with
  | .error r => .error r
  | .ok (em, t) =>
    match engEntry t kc with
    | .error r => .error (keepFirst s (slotAsk s (engVa s km) 8) r)
    | .ok (ec, t) => .ok (em, ec, t)

/-- Under what a FORK that stalls for a full queue keeps the entry VAs it has read (R263). -/
def forkKept (s : State) (km kc : Nat) : Asked := .slot s.cur.id s.slot [(pcOf s).toNat, km, kc, 0]

/-- A named program enters its fork queue with the snapshot (R263).
Log 35: DEDUCED. -/
def forkOne (s : State) (mat : Bool) (k : Nat) (entry : Word) : State :=
  if k = 0 then s
  else
    let a := s.cur
    { s with forkQ := s.forkQ ++ [⟨a.core, mat, a.stook, a.id, entry, a.s.filter (fun p => decide (p.1 < 16)), a.md, a.srkey,
                                   a.srseq, a.priv, (partyOf s).after⟩] }

/-- A fork queue that the programs named need is full. -/
def forkFull (s : State) (km kc : Nat) : Bool :=
  (km ≠ 0 && decide (4 ≤ forkLen s s.cur.core true)) || (kc ≠ 0 && decide (4 ≤ forkLen s s.cur.core false))

/-- FORK with the entry VAs read: both programs enter their queues; what it kept is forgotten. -/
def forkBoth (s : State) (km kc : Nat) (em ec : Word) : State :=
  let w := forkKept s km kc
  let s := forkEdge { s with asks := s.asks.filter (fun a => a.by_ ≠ w) }
  advance (forkOne (forkOne s true km em) false kc ec)

/-- FORK (R263): the entry VAs are read at issue, and kept while it stalls for a full queue. -/
def execFork (a b : Nat) (s : State) : Out :=
  run (.fork a b) { sr := [a, b] }
    (fun s =>
      let km := (getS s a).toNat
      let kc := (getS s b).toNat
      if s.cur.k.nEng < km ∨ s.cur.k.nEng < kc then illegal s (.fork a b)
      else match (askOf s (forkKept s km kc)).bind (·.val) with
        | some v => if forkFull s km kc then .stall else .done (forkBoth s km kc (wd (v / 2 ^ 64)) (wd v))
        | none =>
          match engEntries s km kc with
          | .error r => r
          | .ok (em, ec, t) =>
            if forkFull t km kc then
              let (n, t) := freshId t
              .done { t with asks := t.asks ++ [⟨n, forkKept t km kc, [], [], t.time, t.epoch, false, some (em.toNat * 2 ^ 64 + ec.toNat)⟩] }
            else .done (forkBoth t km kc em ec)) s

/-- Engine operations of a program have not ended. -/
def workOf (s : State) (id : Nat) : Bool :=
  s.copies.any (fun c => c.slices.any (fun x => x.party.agent == id)) || s.cpls.any (fun c => c.party.agent == id) ||
  s.skops.any (fun o => o.party.agent == id) || s.tileOps.any (fun o => o.party.agent == id) || s.reqs.any (fun r => r.agent == id)

/-- A program that the sheaf forked has not ended, or engine operations of one that has stopped still run (R267). -/
def forkedLive (s : State) (id : Nat) : Bool :=
  s.forkQ.any (fun f => f.by_ == id) ||
  (allAgents s).any (fun a => a.kind ≠ .none && a.kind ≠ .sheaf && a.forker == id && (!a.ended || workOf s a.id))

/-- RDV (R267). -/
def execRdv (s : State) : Out := run .rdv {} (fun s => if forkedLive s s.cur.id then .stall else .done (advance s)) s

/-- EEND (R266). -/
def execEend (s : State) : Out :=
  run .eend { eng := true }
    (fun s =>
      let a := s.cur
      if a.kind = .sheaf then illegal s .eend
      else if a.cntLd = 0 ∧ a.cntSt = 0 ∧ a.cntCp = 0 ∧ a.cntTl = 0 then
        .done (onCur s (fun a => { a with ended := true, pri := Slot.free }))
      else .stall) s

/-- The sequencer of a core runs a program. -/
def seqBusy (s : State) (core : Nat) (mat : Bool) : Bool :=
  (allAgents s).any (fun a => a.core = core && a.kind = (if mat then .matSeq else .copySeq) && !a.ended)

/-- A forked program as it starts (R264). -/
def forkAgent (s : State) (n : Nat) (f : ForkEnt) (k : Kernel) (slotNo : Nat) : Agent :=
  { Agent.none with
    kind := if f.mat then .matSeq else .copySeq, id := n, stook := f.stook, core := f.core, slotNo := slotNo, k := k,
    s := f.s, md := f.md, srkey := f.srkey, srseq := f.srseq, priv := f.priv,
    pri := { Slot.free with live := true, pc := f.entry, mask := allLanes k.w }, forker := f.by_, ended := false,
    active := true, since := s.time }

/-- SEQUENCER_START (R263): the next program of a fork queue starts, first in first out; a program of a stook that
has aborted or is stopped for pre-emption does not. Event data: core, sequencer (0 matrix, 1 copy). -/
def execSequencerStart (s : State) : Out :=
  let core := s.inp.a.headD 0
  let mat := s.inp.a.getD 1 0 = 0
  if seqBusy s core mat then .next s
  else match s.forkQ.find? (fun f => f.core == core && f.mat == mat) with
    | none => .next s
    | some f =>
      match findStook s f.stook with
      | none => .next { s with forkQ := s.forkQ.erase f }
      | some t =>
        if t.abort.isSome then .next { s with forkQ := s.forkQ.erase f }
        else if s.halted ∨ t.pre.stage = 3 ∨ s.reqs.any (fun r => f.after.contains r.id) = true then .next s
        else
          let (n, s) := freshId { s with forkQ := s.forkQ.erase f }
          let slotNo := ((findAgent s f.by_).map (·.slotNo)).getD 0
          .next { s with agents := s.agents ++ [forkAgent s n f t.k slotNo] }

end Sys2Proof.Machine
end

