-- ==== Sys2Proof/Machine/Launch.lean ====
section
/-!
DEFINITION. Launches (23 R348 to R364): queues, the checks of a taken record, expansion, SPAWN and CONT, completion,
and the decrement steps of continuation records.
-/
namespace Sys2Proof.Machine

open Sys2Proof

/-! ### The pool (R358) -/

/-- A pool record by its ID. -/
def poolGet (s : State) (id : Nat) : PoolRec := smGet PoolRec.free s.pool id

/-- Replace a pool record. -/
def poolPut (s : State) (id : Nat) (p : PoolRec) : State := { s with pool := smPut PoolRec.free s.pool id p }

/-- The lowest free ID from n on, in a table of rising IDs. -/
def firstFree : Nat → List (Nat × PoolRec) → Nat
  | n, [] => n
  | n, (k, _) :: r => if k = n then firstFree (n + 1) r else n

/-- A free pool record, if there is one (R358). -/
def poolFree (s : State) : Option Nat :=
  let n := firstFree 1 s.pool
  if n ≤ 16384 then some n else none

/-- The launch with a pool ID. -/
def launchOf (s : State) (id : Nat) : Option Launch := s.launches.find? (fun l => l.pool == id)

/-- Replace a launch. -/
def putLaunch (s : State) (l : Launch) : State :=
  { s with launches := s.launches.map (fun m => if m.pool = l.pool then l else m) }

/-- The part's accesses for a launch. -/
def launchWho (s : State) (l : Launch) : PartWho :=
  let p := poolGet s l.pool
  ⟨l.ctx, l.core, p.jobkey, p.grp, [0, l.pool]⟩

/-! ### Kernel headers and level tables (R340, R355, R356) -/

/-- A header of 64 bytes (R355), its bound entries still to be read. -/
def headerOf (x : Nat) : Header :=
  { w := 16 * 2 ^ fld x 55 54, vregs := 8 * fld x 61 56, tiles := fld x 53 50, queues := fld x 49 43,
    barriers := fld x 42 32, scratch := fld x 31 0, planes := fld x 219 213, sps := fld x 212 209,
    nSafe := fld x 208 200, nEng := fld x 199 192, engTab := wd (fld x 191 128), entry := wd (fld x 127 64),
    safeTab := wd (fld x 319 256), bndMask := wd (fld x 447 384), bounds := [] }

/-- A header field lies outside its range, or a reserved bit is set (R356 HEADER). -/
def headerBad (x : Nat) : Bool :=
  fld x 255 220 ≠ 0 || fld x 63 62 ≠ 0 || fld x 55 54 = 3 || fld x 61 56 = 0 || 32 < fld x 61 56 ||
  8 < fld x 53 50 || 64 < fld x 49 43 || 1024 < fld x 42 32 || 64 < fld x 219 213 || 256 < fld x 208 200 ||
  fld x 384 384 ≠ 0 || fld x 127 64 % 4 ≠ 0

/-- The entries of a level table up to the first unused one: (domain, extent) (R340). -/
def levelsOf (x : Nat) : List (Nat × Nat) :=
  ((List.range 8).map (fun n => (fld x (64 * n + 2) (64 * n), fld x (64 * n + 63) (64 * n + 32)))).takeWhile (fun p => p.1 ≠ 7)

/-- Domains from H2 upward do not decrease (R340, R50). -/
def risingDomains : List Nat → Bool
  | a :: b :: r => decide (a ≤ b) && risingDomains (b :: r)
  | _ => true

/-- A level table fails R340, or its H0 is not the kernel's width (R356 LEVELS). -/
def levelsBad (x w : Nat) : Bool :=
  let l := levelsOf x
  (List.range 8).any (fun n => fld x (64 * n + 31) (64 * n + 3) ≠ 0) ||
  (List.range 8).any (fun n => decide (l.length ≤ n) && fld x (64 * n + 2) (64 * n) ≠ 7) ||
  l.any (fun p => p.1 = 6 || p.2 = 0) || l.length < 3 || l.getD 0 (0, 0) ≠ (0, w) ||
  (l.getD 1 (0, 0)).1 ≠ 1 || 16 < (l.getD 1 (0, 0)).2 || (l.getD 2 (0, 0)).1 ≠ 2 || !risingDomains ((l.drop 2).map (·.1))

/-- A product. -/
def prod (l : List Nat) : Nat := l.foldl (· * ·) 1

/-- The extents from H2 up to the highest level below GROUP. -/
def deviceExtents (l : List (Nat × Nat)) : List Nat := ((l.drop 2).filter (fun p => p.1 ≠ 5)).map (·.2)

/-- The extents of the GROUP levels. -/
def groupExtents (l : List (Nat × Nat)) : List Nat := (l.filter (fun p => p.1 = 5)).map (·.2)

/-- S, the stooks of the launch on this device (R341). -/
def stooksOf (l : List (Nat × Nat)) : Nat := prod (deviceExtents l)

/-- N_n of the highest level, at H3 or above, of a domain; 1 where there is none (R341, R342). -/
def unitOf (l : List (Nat × Nat)) (dom : Nat) : Nat :=
  match ((List.range l.length).filter (fun n => decide (3 ≤ n) && (l.getD n (0, 0)).1 = dom)).reverse with
  | n :: _ => prod (((l.take n).drop 2).map (·.2))
  | [] => 1

/-- The stooks admitted together onto one core (R342). -/
def coreUnit (l : List (Nat × Nat)) : Nat := unitOf l 2

/-- The stooks of one gang unit (R342). -/
def gangUnit (l : List (Nat × Nat)) : Nat := max (unitOf l 3) (coreUnit l)

/-- A number in mixed radix, least significant first. -/
def mixed : Nat → List Nat → List Nat
  | _, [] => []
  | i, e :: r => i % e :: mixed (i / e) r

/-- HX.0 to HX.7 of stook i, but for HX.1 (R341). -/
def coords (l : List (Nat × Nat)) (i rank : Nat) : List Nat :=
  let h := 0 :: 0 :: mixed i (deviceExtents l) ++ mixed rank (groupExtents l)
  h ++ List.replicate (8 - h.length) 0

/-- HN.0 to HN.7 (R341). -/
def extents (l : List (Nat × Nat)) : List Nat := l.map (·.2) ++ List.replicate (8 - l.length) 1

/-! ### Placement (R336, R338, R345, R412) -/

/-- The sheaf slots a core can hold (R336). -/
def coreSlots (c : Nat) : Nat := if c % 8 = 0 then 63 else 64

/-- The lowest start of a run of n free places among `total`, given the runs taken. -/
def findRun (total n : Nat) (used : List (Nat × Nat)) : Option Nat :=
  let free : Nat → Bool := fun b => decide (b + n ≤ total) && used.all (fun u => decide (b + n ≤ u.1) || decide (u.1 + u.2 ≤ b) || u.2 = 0)
  ((0 :: used.map (fun u => u.1 + u.2)).filter free).foldl (fun (m : Option Nat) b => match m with
    | none => some b
    | some x => some (min x b)) none

/-- The lowest n free places. -/
def lowest (total n : Nat) (used : List Nat) : Option (List Nat) :=
  let l := ((List.range total).filter (fun i => !used.contains i)).take n
  if l.length = n then some l else none

/-- A kernel's place on a core that holds others, all resources of R338 but the bound entries. -/
def placeKernel (ks : List Kernel) (c : Nat) (hdr : Header) (k : Kernel) : Option Kernel :=
  let slots := (ks.map (·.nSheaf)).sum
  let regs := (ks.map (fun q => q.nSheaf * q.w * q.vregs)).sum
  let qs := (ks.map (·.nQ)).sum
  if coreSlots c < slots + k.nSheaf ∨ 65536 < regs + k.nSheaf * k.w * k.vregs ∨ 64 < qs + k.nQ then none
  else
    match lowest 7 ((hdr.scratch + 65535) / 65536) (ks.flatMap (·.granules)), lowest 8 hdr.tiles (ks.flatMap (·.tiles)),
      findRun 1024 k.nBar (ks.map (fun q => (q.barBase, q.nBar))), findRun 64 k.planeN (ks.map (fun q => (q.planeT0, q.planeN))) with
    | some g, some t, some b, some p => some { k with granules := g, tiles := t, barBase := b, planeT0 := p }
    | _, _, _, _ => none

/-- The kernels resident on a core. -/
def residentOn (s : State) (c : Nat) : List Kernel := (s.stooks.filter (fun t => t.core == c)).map (·.k)

/-- The declared bound entries are unused on the core, or identical (R33). -/
def boundsFit (s : State) (c : Nat) (hdr : Header) : Bool :=
  hdr.bounds.all (fun b =>
    !(s.stooks.any (fun t => t.core == c && bit t.k.bndMask b.1)) ||
    (let e := smGet Bound.zero s.bounds (c * 64 + b.1)
     e.lo == b.2.1 && e.hi == b.2.2.1 && e.act == b.2.2.2))

/-- Stooks placed in the step so far: core, record and kernel. -/
abbrev Placed := List (Nat × Rec × Kernel)

/-- What a core holds, resident and placed; on an empty device the placed ones alone. -/
def onCore (s : State) (empty : Bool) (p : Placed) (c : Nat) : List Kernel :=
  (if empty then [] else residentOn s c) ++ (p.filter (fun x => x.1 == c)).map (fun x => x.2.2)

/-- Place the stooks of a CORE unit, or one stook, on one core. -/
def fillCore (s : State) (empty : Bool) (c : Nat) (hdr : Header) : List (Rec × Kernel) → Placed → Option Placed
  | [], p => some p
  | (r, k) :: l, p =>
    match placeKernel (onCore s empty p c) c hdr k with
    | none => none
    | some k => fillCore s empty c hdr l (p ++ [(c, r, k)])

/-- The free sheaf slots of a core. -/
def freeSlots (s : State) (empty : Bool) (p : Placed) (c : Nat) : Nat := coreSlots c - ((onCore s empty p c).map (·.nSheaf)).sum

/-- The core with the most free sheaf slots on which a CORE unit fits, ties to the lower core (R345, R412). -/
def bestCore (s : State) (empty : Bool) (hdr : Header) (cores : List Nat) (l : List (Rec × Kernel)) (p : Placed) : Option Placed :=
  ((cores.filter (fun c => !s.disabled.contains c && (empty || boundsFit s c hdr))).foldl (fun (m : Option (Nat × Placed)) c =>
    match fillCore s empty c hdr l p with
    | none => m
    | some q =>
      let f := freeSlots s empty p c
      match m with
      | none => some (f, q)
      | some (g, _) => if g < f then some (f, q) else m) none).map (·.2)

/-- The units of n stooks that records belong to, by stook index (R342). -/
def unitsBy (n : Nat) : List (Rec × Kernel) → List (List (Rec × Kernel))
  | [] => []
  | x :: r =>
    match unitsBy n r with
    | (y :: u) :: m => if x.1.index / n = y.1.index / n then (x :: y :: u) :: m else [x] :: (y :: u) :: m
    | m => [x] :: m

/-- Place CORE units one after another on the cores given. -/
def placeUnits (s : State) (empty : Bool) (hdr : Header) (cores : List Nat) : List (List (Rec × Kernel)) → Placed → Option Placed
  | [], p => some p
  | u :: r, p =>
    match bestCore s empty hdr cores u p with
    | none => none
    | some q => placeUnits s empty hdr cores r q

/-- The cores of a cluster (R1). -/
def clusterCores (g : Nat) : List Nat := (List.range 8).map (fun j => 8 * g + j)

/-- The cores that a gang unit may use (R412): those of the cluster that R345 chose, but of the whole device for a COOP launch
without CLUSTER units. -/
def unitCores (coop : Bool) (levels : List (Nat × Nat)) (u : List (Rec × Kernel)) : List Nat :=
  if coop ∧ levels.any (fun p => p.1 = 3) = false then List.range 128 else clusterCores ((u.head?.map (·.1.cluster)).getD 0)

/-- Place gang units one after another. -/
def placeGangs (s : State) (empty coop : Bool) (hdr : Header) (levels : List (Nat × Nat)) : List (List (Rec × Kernel)) → Placed → Option Placed
  | [], p => some p
  | u :: r, p =>
    match placeUnits s empty hdr (unitCores coop levels u) (unitsBy (max 1 (coreUnit levels)) u) p with
    | none => none
    | some q => placeGangs s empty coop hdr levels r q

/-- Place the stooks of an admission step (R345, R412), in ascending index. -/
def placeStep (s : State) (empty coop : Bool) (hdr : Header) (levels : List (Nat × Nat)) (l : List (Rec × Kernel)) : Option Placed :=
  if 8192 < l.length then none else placeGangs s empty coop hdr levels (unitsBy (max 1 (gangUnit levels)) l) []

/-- The kernel facts of a stook before its placement. -/
def protoKernel (s : State) (l : Launch) (r : Rec) : Kernel :=
  let h := l.hdr
  let p := poolGet s l.pool
  { w := h.w, vregs := h.vregs, tiles := [], barBase := 0, nBar := h.barriers, nQ := h.queues, nEng := h.nEng,
    engTab := h.engTab, nSafe := h.nSafe, safeTab := h.safeTab, entry := h.entry, granules := [], planeT0 := 0,
    planeN := h.planes, bndMask := h.bndMask, ctx := l.ctx, grp := p.grp, jobkey := p.jobkey,
    hx := coords l.levels r.index l.rank, hn := extents l.levels, nSheaf := (l.levels.getD 1 (1, 1)).2,
    pool := l.pool, prio := r.prio, sys := r.sys }

/-- The records of a launch's stooks from index i on, n of them (R344). -/
def recsFrom (s : State) (l : Launch) (unit cluster i n : Nat) : List Rec :=
  let p := poolGet s l.pool
  (List.range n).map (fun j =>
    { pool := l.pool, kind := if l.cont then 1 else 0, index := i + j, cluster := cluster, unit := unit, link := l.parent,
      sys := p.sys, coop := l.coop, prio := l.prio,
      frame := match l.read_ with
        | some x => wd (fld x 127 64)
        | none => p.frame,
      restart := [] })

/-- The records with the kernels they will have. -/
def withKernels (s : State) (l : Launch) (rs : List Rec) : List (Rec × Kernel) := rs.map (fun r => (r, protoKernel s l r))

/-- The clusters on which a gang unit, or one stook, fits when empty (R345, R412). -/
def emptyFits (s : State) (l : Launch) : List Nat :=
  let n := gangUnit l.levels
  if 512 < n then []
  else (List.range 16).filter (fun g => (placeStep s true false l.hdr l.levels (withKernels s l (recsFrom s l 0 g 0 n))).isSome)

/-- The cluster, of those given, with the fewest queued records at a priority, ties to the lower number (R345). -/
def leastCluster (s : State) (prio : Nat) (ok : List Nat) : Nat :=
  (ok.foldl (fun (m : Option (Nat × Nat)) g =>
    let n := (s.recQ.filter (fun r => r.cluster == g && r.prio == prio)).length
    match m with
    | none => some (n, g)
    | some (k, _) => if n < k then some (n, g) else m) none).elim 0 (·.2)

/-- Push the records of the gang units, or of single stooks, from index i on, each to its cluster (R345); the units of a COOP
launch keep its number. The first argument bounds the units. -/
def pushUnits : Nat → State → Launch → List Nat → Nat → Nat → Nat → State
  | 0, s, _, _, _, _, _ => s
  | f + 1, s, l, ok, size, coop, i =>
    if stooksOf l.levels ≤ i then s
    else
      let (u, s) := if l.coop then (coop, s) else if size = 1 then (0, s) else freshId s
      let g := leastCluster s l.prio ok
      pushUnits f { s with recQ := s.recQ ++ recsFrom s l u g i size } l ok size coop (i + size)

/-- Expand a launch into its clusters' queues (R345). -/
def expand (s : State) (l : Launch) : State :=
  let (u, s) := if l.coop then freshId s else (0, s)
  pushUnits (stooksOf l.levels) s l (emptyFits s l) (gangUnit l.levels) u 0

/-- The launch fits as R356's FIT asks: every unit on some empty cluster, and a COOP launch, in the clusters that R345 gives its
units, on the empty device. -/
def launchFits (s : State) (l : Launch) : Bool :=
  !(emptyFits s l).isEmpty &&
  (!l.coop || (decide (stooksOf l.levels ≤ 8192) &&
    (placeStep s true true l.hdr l.levels (withKernels s l ((expand s l).recQ.drop s.recQ.length))).isSome))

/-! ### Parking and losing (R104, R357, R362) -/

/-- An access of the launch sequencer for a launch meets a fault: it is parked. -/
def parkLaunch (s : State) (l : Launch) (acc : Nat) (va : Word) (kind level : Nat) (entry : Word) : State :=
  let (n, s) := partPark s (launchWho s l) l.pool 5 0 acc va kind level entry
  putLaunch s { l with park := some n }

/-- The pool record is freed and the launch forgotten. -/
def freeLaunch (s : State) (id : Nat) : State :=
  { poolPut s id PoolRec.free with launches := s.launches.filter (fun l => l.pool ≠ id) }

/-- A continuation is lost (R362). -/
def loseCont (s : State) (l : Launch) : State := freeLaunch (logKind8 s 4 (poolGet s l.pool).recVa) l.pool

/-! ### Launch queues (R351 to R353, R413) -/

/-- A queue by its key, context * 16 + q. -/
def lqGet (s : State) (key : Nat) : LQueue := smGet LQueue.zero s.lqueues key

/-- Replace a queue. -/
def lqPut (s : State) (key : Nat) (q : LQueue) : State := { s with lqueues := smPut LQueue.zero s.lqueues key q }

/-- The VA of a queue's entry in QTAB (R351). -/
def qEntryVa (s : State) (key : Nat) : Word := ((smGet none s.ctxs (key / 16)).map (·.qtab)).getD 0 + wd (32 * (key % 16))

/-- The part's accesses to a queue entry (R413). -/
def queueWho (s : State) (key : Nat) : PartWho :=
  ⟨key / 16, 0, ((smGet none s.ctxs (key / 16)).map (·.jobkey)).getD 0, 0, [1, key]⟩

/-- A queue's service stops (R413). -/
def stopQueue (s : State) (key : Nat) : State :=
  logKind8 (lqPut (partDone s [1, key]) key { lqGet s key with stopped := true, park := none }) 7 (wd (key / 16 + key % 16 * 2 ^ 8))

/-- An access to a queue entry meets a fault: the queue is parked. -/
def parkQueue (s : State) (key acc : Nat) (va : Word) (kind level : Nat) (entry : Word) : State :=
  let (n, s) := partPark s (queueWho s key) 0 5 0 acc va kind level entry
  lqPut s key { lqGet s key with park := some n }

/-- Write HEAD where it is due (R352, R413); it stays due where it has moved on since what was written. -/
def writeHead (s : State) (key : Nat) : State :=
  let q := lqGet s key
  if q.due = false ∨ q.stopped = true ∨ q.park.isSome = true then s
  else match partWrite s (queueWho s key) (qEntryVa s key + 16) (leBytes 4 q.head.toNat) with
    | .ok h s => lqPut (partDone s [1, key]) key { lqGet s key with due := decide (h ≠ q.head.toNat) }
    | .bad va k l e => parkQueue s key 2 va k l e
    | .perm s => stopQueue s key
    | .wait s => s

/-- HEAD passes what has retired in order (R352); the first argument bounds it. -/
def passHead : Nat → LQueue → LQueue
  | 0, q => q
  | f + 1, q =>
    if q.retired.contains q.head then passHead f { q with retired := q.retired.erase q.head, head := q.head + 1, due := true } else q

/-- A record of a queue is through R357 step 4. -/
def retireRec (s : State) (key : Nat) (n : BitVec 32) : State :=
  let q := lqGet s key
  let q := { q with retired := n :: q.retired }
  writeHead (lqPut s key (passHead q.retired.length q)) key

/-- A queue whose HEAD is due goes on; one that was parked too, or it stops, by the fate of its record (R413). -/
def resumeQueue (s : State) (key : Nat) : State :=
  match (lqGet s key).park with
  | none => writeHead s key
  | some n =>
    match unpark s (some n) with
    | .wait => s
    | .go s => writeHead (lqPut s key { lqGet s key with park := none }) key
    | .fatal s => stopQueue s key

/-- A record is pending in the queue: TAIL lies ahead of the next record to take (R352). -/
def lqPending (q : LQueue) : Bool := q.taken ≠ q.tail && decide ((q.tail - q.taken).toNat < 2 ^ 31)

/-- The queues that may be served, by key. -/
def lqReady (s : State) : List Nat :=
  (s.lqueues.filter (fun p => lqPending p.2 && !p.2.stopped && p.2.park.isNone)).map (·.1)

/-- Read the entries of queues: those enabled, with their QPRIO, BASE and LOG2N. -/
def readEntries : List Nat → State → List (Nat × Nat × Word × Nat) × State
  | [], s => ([], s)
  | key :: r, s =>
    match partRead s (queueWho s key) (qEntryVa s key) 32 with
    | .ok x s =>
      let (l, s) := readEntries r (partDone s [1, key])
      (if fld x 70 70 = 1 then (key, fld x 69 68, wd (fld x 63 0), fld x 67 64) :: l else l, s)
    | .bad va k l e => readEntries r (parkQueue s key 1 va k l e)
    | .perm s => readEntries r (stopQueue s key)
    | .wait s => readEntries r s

/-- The entry to take: the highest QPRIO, round-robin among equals, from the queue after the one last taken from at that
QPRIO (R353). -/
def chooseQueue (l : List (Nat × Nat × Word × Nat)) (rr : List (Nat × Nat)) : Option (Nat × Nat × Word × Nat) :=
  let top := l.foldl (fun m x => max m x.2.1) 0
  let eq := l.filter (fun x => x.2.1 = top)
  match eq.find? (fun x => decide (smGet 0 rr top ≤ x.1)) with
  | some x => some x
  | none => eq.head?

/-- A launch as it is taken. -/
def Launch.fresh (pool ctx core : Nat) (hostQ : Option (Nat × BitVec 32)) (bySys : Bool) : Launch :=
  { pool := pool, cont := false, ctx := ctx, core := core, hostQ := hostQ, bySys := bySys, compl := 0, parent := 0,
    hdr := Header.zero, levels := [], rank := 0, coop := false, prio := 0, ran := 0, ecode := 0, word := 0, read_ := none,
    stage := .take, park := none }

/-! ### Decrements and continuations (R361, R362) -/

/-- A continuation record that has become runnable is to be read (R362). -/
def makeRunnable (s : State) (id ctx core : Nat) : State :=
  let p := poolGet s id
  { poolPut s id { p with state := 3 } with
    launches := s.launches ++ [{ Launch.fresh id ctx core none p.sys with cont := true }] }

/-- The armed continuation of a record (R362). -/
def armedAt (s : State) (ctx : Nat) (va : Word) : Option Nat :=
  (s.pool.find? (fun p => p.2.state = 2 && p.2.recVa == va && p.2.ctx == ctx)).map (·.1)

/-- JOIN falls by one at its place, and a record that it was armed with becomes runnable at zero (R362). -/
def decAt (s : State) (w : PartWho) (va : Word) (x : Piece) : State :=
  if farLoc x.loc ∧ nodeOf x.loc < 240 then s
  else
    let (bs, s) := readPieces s [x]
    if (pTag bs).isSome then s
    else
      let j := (pNat bs + 2 ^ 32 - 1) % 2 ^ 32
      let s := writePieces w.core [x] (pBytes 4 j none) s
      match (if j = 0 then armedAt s w.ctx va else none) with
      | some id => makeRunnable s id w.ctx ((poolGet s id).core)
      | none => s

/-- A decrement step (R362); at another node it is an atomic addition of -1 (R294). -/
def decrement (s : State) (w : PartWho) (va : Word) : PRes Unit :=
  let key := w.key .at (va + 16) 4
  match askOf s key with
  | some a =>
    (match await s w.badge a with
     | .wait s => .wait s
     | .dead s => .perm s
     | .gone a s => .ok () (a.pieces.foldl (fun s x => decAt s w va x) s))
  | none =>
    match partPiece s w .at (va + 16) 4 with
    | .bad a b c d => .bad a b c d
    | .perm s => .perm s
    | .wait s => .wait s
    | .ok x s =>
      if farLoc x.loc then
        let (n, s) := newAsk s key s.epoch [x] []
        .wait (post s w.badge 2 (nodeOf x.loc) (x.loc % 2 ^ 44) 16 (some n) [x.loc % 2 ^ 44, 4, 0, 0, 2 ^ 32 - 1, 0])
      else .ok () (decAt s w va x)

/-! ### The stages of a launch (R355 to R357, R362) -/

/-- The completion word (R357). -/
def completionWord (l : Launch) (eseq : Word) : Word :=
  wd (bits eseq 15 0 * 2 ^ 48 + min l.ran (2 ^ 32 - 1) * 2 ^ 16 + l.ecode * 2 ^ 8 + (if l.ecode = 0 then 0 else 2) + 1)

/-- COMPL can be written. -/
def complUsed (l : Launch) : Bool := l.compl ≠ 0 && l.compl.toNat % 8 = 0

/-- A launch completes, or is rejected with a code (R356, R357). -/
def completeLaunch (s : State) (l : Launch) (ecode : Nat) : State :=
  let l := { l with ecode := ecode, stage := .word, park := none }
  if complUsed l then
    let (e, s) := takeEseq s
    putLaunch s { l with word := completionWord l e }
  else putLaunch s l

/-- The first failing check of R356 after the reads, 0 where none fails. `rec_`, `lev` and `hdr` are as read. -/
def launchCode (s : State) (l : Launch) (recVa : Word) (rec_ lev hdr : Nat) : Nat :=
  let ctx := smGet none s.ctxs l.ctx
  let priv := (ctx.map (·.priv)).getD false
  let levels := levelsOf lev
  let g := (groupExtents levels)
  let p := poolGet s l.pool
  let grp := smGet none s.groups p.grp.toNat
  if fld rec_ 511 420 ≠ 0 ∨ recVa.toNat % 64 ≠ 0 ∨ fld rec_ 191 128 % 64 ≠ 0 ∨ fld rec_ 63 0 % 64 ≠ 0 ∨
      fld rec_ 255 192 % 8 ≠ 0 ∨ fld rec_ 319 256 % 32 ≠ 0 then 1
  else if fld rec_ 419 419 = 1 ∧ (if l.hostQ.isSome then priv else l.bySys) = false then 2
  else if l.hostQ.isSome = true ∧ priv = false ∧ p.jobkey ≠ ((ctx.map (·.jobkey)).getD 0) then 8
  else if headerBad hdr then 4
  else if levelsBad lev (headerOf hdr).w then 3
  else if g ≠ [] ∧ (p.grp = 0 ∨ (match grp with
      | some e => e.valid && e.size == prod g
      | none => false) = false) then 7
  else if 1048575 < stooksOf levels then 9
  else if launchFits s { l with hdr := headerOf hdr, levels := levels, coop := fld rec_ 418 418 = 1 } = false then 5
  else 0

/-- Read the bound entries that BNDMASK declares (R355). -/
def readBounds (s : State) (w : PartWho) (tab : Word) : List Nat → PRes (List (Nat × Word × Word × Nat))
  | [] => .ok [] s
  | n :: r =>
    match partRead s w (tab + wd (32 * (n - 1))) 32 with
    | .bad a b c d => .bad a b c d
    | .perm s => .perm s
    | .wait s => .wait s
    | .ok x s =>
      match readBounds s w tab r with
      | .ok l s => .ok ((n, wd (fld x 63 0), wd (fld x 127 64), fld x 129 128) :: l) s
      | q => q

/-- The entries a mask declares. -/
def declared (m : Word) : List Nat := (List.range 64).filter (fun n => decide (0 < n) && bit m n)

/-- Read a kernel header and its bound entries: the header as read, and as kept. -/
def readHeader (s : State) (w : PartWho) (va : Word) : PRes (Nat × Header) :=
  match partRead s w va 64 with
  | .bad a b c d => .bad a b c d
  | .perm s => .perm s
  | .wait s => .wait s
  | .ok x s =>
    if headerBad x then .ok (x, headerOf x) s
    else match readBounds s w (wd (fld x 383 320)) (declared (wd (fld x 447 384))) with
      | .bad a b c d => .bad a b c d
      | .perm s => .perm s
      | .wait s => .wait s
      | .ok l s => .ok (x, { headerOf x with bounds := l }) s

/-- What a host record gives its pool record (R358). -/
def hostPool (p : PoolRec) (x : Nat) : PoolRec :=
  { p with jobkey := wd (fld x 383 320), grp := BitVec.ofNat 16 (fld x 399 384), budget := fld x 415 400, frame := wd (fld x 127 64) }

/-- The checks and the expansion of a launch whose reads are done (R356, R345). -/
def acceptLaunch (s : State) (l : Launch) (recVa : Word) (x lev h : Nat) (hdr : Header) : State :=
  let p := poolGet s l.pool
  let p := { (if l.hostQ.isSome then hostPool p x else p) with sys := fld x 419 419 = 1 }
  let s := poolPut s l.pool p
  let l := { l with compl := wd (fld x 255 192), parent := wd (fld x 319 256), coop := fld x 418 418 = 1, prio := fld x 417 416,
                    hdr := hdr, levels := levelsOf lev, park := none }
  let code := launchCode s l recVa x lev h
  if code ≠ 0 then completeLaunch s l code
  else
    let l := { l with stage := .run, rank := if groupExtents l.levels = [] then 0 else ((smGet none s.groups p.grp.toNat).map (·.rank)).getD 0 }
    let n := stooksOf l.levels
    expand (putLaunch (poolPut s l.pool { p with left := n }) l) l

/-- Read and check a taken launch (R354 to R356).
Log 66: DEDUCED. -/
def takeLaunch (s : State) (l : Launch) : State :=
  let w := launchWho s l
  let va := (poolGet s l.pool).recVa
  match partRead s w va 64 with
  | .bad a k lv e => parkLaunch s l 1 a k lv e
  | .perm s => completeLaunch s l 6
  | .wait s => s
  | .ok x s =>
    let l := { l with compl := wd (fld x 255 192), parent := wd (fld x 319 256) }
    match partRead s w (wd (fld x 191 128)) 64 with
    | .bad a k lv e => parkLaunch s l 1 a k lv e
    | .perm s => completeLaunch s l 6
    | .wait s => s
    | .ok lev s =>
      match readHeader s w (wd (fld x 63 0)) with
      | .bad a k lv e => parkLaunch s l 1 a k lv e
      | .perm s => completeLaunch s l 6
      | .wait s => s
      | .ok (h, hdr) s => acceptLaunch s l va x lev h hdr

/-- A continuation whose record is read: its header is read, and it is queued (R344, R362). -/
def queueCont (s : State) (l : Launch) (x : Nat) : State :=
  let p := poolGet s l.pool
  match readHeader s (launchWho s l) (wd (fld x 63 0)) with
  | .bad a k lv e => parkLaunch s l 1 a k lv e
  | .perm s => loseCont s l
  | .wait s => s
  | .ok (h, hdr) s =>
    let l := { l with hdr := hdr, levels := [(0, hdr.w), (1, hdr.sps + 1), (2, 1)], parent := wd (fld x 255 192),
                      prio := fld x 183 182, stage := .run, park := none }
    if headerBad h then loseCont s l
    else if launchFits s l = false then loseCont s l
    else
      let s := putLaunch (poolPut s l.pool { p with sys := fld x 185 185 = 1 }) l
      { s with recQ := s.recQ ++ recsFrom s l 0 p.clu 0 1 }

/-- Read a runnable continuation's record, once, and go on (R362). -/
def takeCont (s : State) (l : Launch) : State :=
  match l.read_ with
  | some x => queueCont s l x
  | none =>
    match partRead s (launchWho s l) (poolGet s l.pool).recVa 32 with
    | .bad a k lv e => parkLaunch s l 1 a k lv e
    | .perm s => loseCont s l
    | .wait s => s
    | .ok x s => queueCont (putLaunch s { l with read_ := some x }) { l with read_ := some x } x

/-- Write the completion word (R357 step 2). -/
def wordStage (s : State) (l : Launch) : State :=
  if complUsed l = false then putLaunch s { l with stage := .dec }
  else match partWrite s (launchWho s l) l.compl (leBytes 8 l.word.toNat) with
    | .ok _ s => putLaunch s { l with stage := .dec, park := none }
    | .bad a k lv e => parkLaunch s l 2 a k lv e
    | .perm s => putLaunch (logKind8 s 5 l.compl) { l with stage := .dec, park := none }
    | .wait s => putLaunch s l

/-- Make the decrement of PARENT or LINK (R346, R357 step 3). -/
def decStage (s : State) (l : Launch) : State :=
  if l.parent = 0 ∨ (l.cont = false ∧ l.parent.toNat % 32 ≠ 0) then putLaunch s { l with stage := .free }
  else match decrement s (launchWho s l) l.parent with
    | .ok _ s => putLaunch s { l with stage := .free, park := none }
    | .bad a k lv e => parkLaunch s l 4 a k lv e
    | .perm s => putLaunch (logKind8 s 3 l.parent) { l with stage := .free, park := none }
    | .wait s => putLaunch s l

/-- Free the pool record; HEAD may pass the record (R352, R357 step 4). -/
def freeStage (s : State) (l : Launch) : State :=
  let s := freeLaunch s l.pool
  match l.hostQ with
  | some (key, n) => retireRec s key n
  | none => s

/-- A fatal record ends the access a launch was parked at (R356, R357, R362). -/
def fatalStage (s : State) (l : Launch) : State :=
  let l := { l with park := none }
  match l.stage with
  | .take => if l.cont then loseCont s l else completeLaunch s l 6
  | .run => putLaunch s l
  | .word => putLaunch (logKind8 s 5 l.compl) { l with stage := .dec }
  | .dec => putLaunch (logKind8 s 3 l.parent) { l with stage := .free }
  | .free => putLaunch s l

/-- One stage of a launch. -/
def launchStage (s : State) (l : Launch) : State :=
  match l.stage with
  | .take => if l.cont then takeCont s l else takeLaunch s l
  | .run => s
  | .word => wordStage s l
  | .dec => decStage s l
  | .free => freeStage s l

/-- A stage that a launch has left keeps nothing of what other nodes answered it. -/
def stageDone (l : Launch) (s : State) : State :=
  if (launchOf s l.pool).any (fun m => m.stage = l.stage) then s else partDone s [0, l.pool]

/-- The sequencer goes on with a launch as far as it can; the first argument bounds the stages. -/
def launchGo : Nat → State → Nat → State
  | 0, s, _ => s
  | f + 1, s, id =>
    match launchOf s id with
    | none => s
    | some l =>
      if l.stage = .run then s
      else match unpark s l.park with
        | .wait => s
        | .go s => launchGo f (stageDone l (launchStage s { l with park := none })) id
        | .fatal s => launchGo f (stageDone l (fatalStage s l)) id

/-- Every continuation that has become runnable is read. -/
def contsGo (s : State) : State :=
  ((s.launches.filter (fun l => l.cont && l.stage = .take && l.park.isNone)).map (·.pool)).foldl (fun s id => launchGo 2 s id) s

/-- The sequencer goes on with a launch, and reads the continuations that this has made runnable. -/
def proceed (s : State) (id : Nat) : State := contsGo (launchGo 6 s id)

/-! ### Events of the launch sequencer -/

/-- TAIL_WRITE (R352, R404, R413). Event data: context, queue, value. -/
def execTailWrite (s : State) : Out :=
  let ctx := s.inp.a.headD 0
  let q := s.inp.a.getD 1 0
  if (smGet none s.ctxs ctx).isNone ∨ 16 ≤ q ∨ s.bootFail = true then .next s
  else
    let key := ctx * 16 + q
    .next (writeHead (lqPut s key { lqGet s key with tail := BitVec.ofNat 32 (s.inp.a.getD 2 0), stopped := false }) key)

/-- Take the next host record (R353). -/
def takeNext (s : State) : State :=
  let s := (s.lqueues.filter (fun p => p.2.park.isSome || p.2.due)).foldl (fun s p => resumeQueue s p.1) s
  match poolFree s with
  | none => s
  | some id =>
    let (l, s) := readEntries (lqReady s) s
    match chooseQueue l s.rr with
    | none => s
    | some (key, prio, base, log) =>
      let q := lqGet s key
      let n := q.taken
      let s := lqPut { s with rr := smPut 0 s.rr prio (key + 1) } key { q with taken := n + 1 }
      let s := poolPut s id { PoolRec.free with state := 1, recVa := base + wd (64 * (n.toNat % 2 ^ log)), ctx := key / 16 }
      proceed { s with launches := s.launches ++ [Launch.fresh id (key / 16) 0 (some (key, n)) false] } id

/-- LAUNCH_TAKE (R353 to R357, R362, R409: not while the cores are clock-gated): the sequencer takes the next host
record (datum 0), or goes on with the launch or continuation of the pool ID in datum 0. Event data: src. -/
def execLaunchTake (s : State) : Out :=
  let src := s.inp.a.headD 0
  if s.halted ∨ s.power = 2 then .next s
  else .next (if src = 0 then takeNext s else proceed s src)

/-! ### SPAWN and CONT (R359 to R361) -/

/-- Something that happens before the new stook's first instruction has still to come back (R364). -/
def edgeOpen (s : State) : Bool := s.reqs.any (fun r => seenBy (seatOf s.cur) r && !(waitingAccs r).isEmpty)

/-- SPAWN (R359, R360, R364). -/
def execSpawn (d a b : Nat) (s : State) : Out :=
  run (.spawn d a b) { sr := [a, b], sw := [d], cls := some .ld } (fun s =>
    let va := getS s a
    if va.toNat % 64 ≠ 0 then trapAt s ALIGN va 0 0
    else match readDesc s va 64 false with
      | .stop r => r
      | .ok x _ _ _ t =>
        let k := t.cur.k
        let p := poolGet t k.pool
        match poolFree t with
        | none => .done (advance (setS t d 0))
        | some id =>
          if p.budget = 0 ∨ p.depth = 24 then .done (advance (setS t d 0))
          else if edgeOpen t then .stall
          else
            let t := poolPut (forkEdge t) k.pool { p with budget := p.budget - 1 }
            let t := poolPut t id
              { left := 0, clu := 0, sys := fld x 419 419 = 1, state := 1, depth := p.depth + 1, budget := fld x 415 400,
                grp := k.grp, jobkey := k.jobkey, frame := if getS t b ≠ 0 then getS t b else wd (fld x 127 64), recVa := va,
                ctx := k.ctx, core := t.cur.core }
            let t := { t with launches := t.launches ++ [Launch.fresh id k.ctx t.cur.core none k.sys] }
            .done (advance (setS t d (wd id)))) s

/-- CONT (R359, R361, R364). -/
def execCont (d a b : Nat) (s : State) : Out :=
  run (.cont d a b) { sr := [a, b], sw := [d], cls := some .ld } (fun s =>
    let va := getS s a
    if va.toNat % 32 ≠ 0 then trapAt s ALIGN va 0 0
    else match readDesc s va 32 true with
      | .stop r => r
      | .ok x loc coh pg t =>
        if coh = false ∨ locClass loc ≠ 0 then keepWalk s t (trapAt s PERM va 0 0)
        else match poolFree t with
          | none => .done (advance (setS t d 0))
          | some id =>
            let k := t.cur.k
            let p := poolGet t k.pool
            if edgeOpen t then .stall
            else
            let join := (fld x 159 128 + (getS t b).toNat % 2 ^ 32) % 2 ^ 32
            let top := 2 ^ 62 + (if t.cur.priv then 2 ^ 57 else 0) + fld x 183 182 * 2 ^ 54 + 2 ^ 51 + join
            let t := poolPut t id
              { left := 0, clu := clusterOf t.cur.core, sys := t.cur.priv, state := 2, depth := p.depth, budget := p.budget,
                grp := k.grp, jobkey := k.jobkey, frame := 0, recVa := va, ctx := k.ctx, core := t.cur.core }
            let piece : Piece := ⟨va + 16, loc + 16, coh, pg.pr, pg.ord, pg.home, pg.hidx, 8⟩
            let t := forkEdge t
            let t := writePieces t.cur.core [piece] (pBytes 8 top none) t
            let t := if join = 0 then makeRunnable t id k.ctx t.cur.core else t
            .done (advance (setS t d (wd id)))) s

end Sys2Proof.Machine
end

