-- ==== Sys2Proof/Machine/Fabric.lean ====
section
/-!
DEFINITION. The fabric and granary memory (17 R294, R295, R301 to R306, 18 R307 to R310, 04 R100, R101): XMEM, the
switches' service of requests, remote lane accesses, incoming requests, lost switches and unanswered requests.
-/
namespace Sys2Proof.Machine

open Sys2Proof

/-! ### XMEM (R301 to R306) -/

/-- Issue an XMEM request (R302). -/
def xmem (i : Instr) (f d a b : Nat) (s : State) : Out :=
  run i { sr := if f = 0 then [a, b] else [a], sw := [d], cls := some .cp } (fun s =>
    let (n, s) := freshId s
    let k := s.cur.k
    let x : XmemOp := ⟨n, s.cur.id, f, getS s a, getS s b, d, k.jobkey, k.grp, s.epoch, s.time, none⟩
    .done (advance (post (pend (countUp { s with xmems := s.xmems ++ [x] } .cp) (.sreg d)) k.badge 12 (xmemNode x) 0 16 (some n)
      [x.f, x.a.toNat, x.b.toNat, x.jobkey.toNat, x.grp.toNat]))) s

/-- XALLOC (R303). -/
def execXalloc (d a b : Nat) (s : State) : Out := xmem (.xalloc d a b) 0 d a b s

/-- XFREE (R304). -/
def execXfree (d a b : Nat) (s : State) : Out := xmem (.xfree d a b) 1 d a b s

/-- XQUOTA (R306). -/
def execXquota (d a b : Nat) (s : State) : Out := xmem (.xquota d a b) 2 d a b s

/-- The key of a switch's quota for a job key (R301). -/
def quotaKey (sw : Nat) (jobkey : Word) : Nat := sw * 2 ^ 64 + jobkey.toNat

/-- The units a job key holds on a switch; a lost switch's are charged no more (R101). -/
def heldUnits (s : State) (sw : Nat) (jobkey : Word) : Nat :=
  ((s.allocs.filter (fun a => a.sw == sw && a.jobkey == jobkey)).map (·.n)).sum

/-- The units of a switch that a request which has arrived, and has had no response yet, keeps from reuse (R304): a SKOP's step, or
a reply to another device still on its way. -/
def busyUnits (s : State) (sw : Nat) : List (Nat × Nat) :=
  (((s.skops.filter (·.flight)).map (·.at_) ++ (s.sent.filter (fun q => q.port = 33)).map (fun q => q.words.getD 1 0)).filter
    (fun loc => farLoc loc && nodeOf loc = 240 + sw)).map (fun loc => (loc % 2 ^ 44 / 2 ^ 21, 1))

/-- XALLOC at its switch (R303), in units that nothing keeps from reuse (R304). -/
def allocServe (s : State) (sw n : Nat) (jobkey : Word) (grp : BitVec 16) : Word × State :=
  if smGet 0 s.quota (quotaKey sw jobkey) < heldUnits s sw jobkey + n then (xmemErr 1, s)
  else match findRun 524288 n ((s.allocs.filter (fun a => a.sw == sw)).map (fun a => (a.base, a.n)) ++ busyUnits s sw) with
    | none => (xmemErr 2, s)
    | some b =>
      let pa := 2 * 2 ^ 52 + (240 + sw) * 2 ^ 44 + b * 2 ^ 21
      (wd pa, zeroRange { s with allocs := s.allocs ++ [⟨sw, b, n, jobkey, grp⟩] } pa (n * 2 ^ 21))

/-- XFREE at its switch (R304); a lost allocation is released with value 0 (R101). -/
def freeServe (s : State) (sw off : Nat) (jobkey : Word) : Word × State :=
  match s.allocs.find? (fun a => a.sw == sw && a.base * 2 ^ 21 == off) with
  | none => (xmemErr 6, s)
  | some a =>
    if a.jobkey ≠ jobkey then (xmemErr 5, s)
    else (wd (if s.lost.contains sw then 0 else a.n), { s with allocs := s.allocs.filter (fun b => b.sw ≠ sw || b.base ≠ a.base) })

/-- A switch logs a refused request of a node, with the port by which it came (R295, R390); another device's came by the partner port
where datum 2 of the event says so. -/
def logFrom (s : State) (sw node off : Nat) : State :=
  let port := if node = s.node then portFor s (240 + sw) off
    else let p := 2 * sw + fld off 7 7; if s.inp.a.getD 2 0 = 1 then p.xor 1 else p
  logOpen s (112 + sw) 7 2 (Config.fabricAddr port node)

/-- What an XMEM request gets (R302 to R306): the result word.
Log 91: DEDUCED. -/
def xmemServe (s : State) (f : Nat) (a b jobkey : Word) (grp : BitVec 16) (node : Nat) : Word × State :=
  let sw := if f = 1 then bits a 51 44 - 240 else a.toNat
  let bad := if f = 1 then bits a 63 52 ≠ 2 || bits a 51 44 < 240 || 247 < bits a 51 44
    else decide (7 < a.toNat) || (f = 0 && (b.toNat = 0 || decide (524288 < b.toNat)))
  if grp = 0 then (xmemErr 7, s)
  else if bad then (xmemErr 3, s)
  else if s.lost.contains sw ∧ f ≠ 1 then (xmemErr 4, s)
  else if s.lost.contains sw = false ∧ swAccept s sw node jobkey grp = false then (xmemErr 7, logFrom s sw node 0)
  else match f with
    | 0 => allocServe s sw b.toNat jobkey grp
    | 1 => freeServe s sw (bits a 43 0) jobkey
    | _ =>
      let h := heldUnits s sw jobkey
      (wd (h * 2 ^ 24 + (smGet 0 s.quota (quotaKey sw jobkey) - h)), s)

/-- XMEM_RESULT (R302): the result word is written and Sd released. Event data: id. -/
def execXmemResult (s : State) : Out :=
  match s.xmems.find? (fun x => x.id == s.inp.a.headD 0) with
  | none => .next s
  | some x =>
    match x.result with
    | none => .next s
    | some v => .next (countDown (writeStatus { s with xmems := s.xmems.filter (fun y => y.id ≠ x.id) } x.agent x.sd v) x.agent .cp)

/-! ### A granary switch serves a sheaf's requests (R301, R305) -/

/-- What one sent access of a request gets from the switch: the value and poison, the state, and whether a counter that saturated
leaves SATF to be set at another node (R242). -/
def serveAcc (s : State) (r : Req) (k : Kernel) (a : Acc) : (Word × Option (BitVec 12)) × State × Bool :=
  match r.op with
  | .load => ((wd (leNat (rdBytes s false a.loc a.size)), rdTags s false a.loc a.size), s, false)
  | .store => ((0, none), wrSector s false a.loc (leBytes a.size a.data.toNat) none, false)
  | .atomic o e => let (x, s) := atPerform s r.core (atOp o) e a; ((x.2.1, x.2.2), s, false)
  | .reduce e => let (_, s) := atPerform s r.core .add e a; ((0, none), s, false)
  | .sketch wide satf coh =>
    if a.lane = satfLane then ((0, none), putSatf s (askerOf s k r.core) (a.loc - 8) false true, false)
    else let (s, owed) := sketchStep s (askerOf s k r.core) wide satf coh a; ((0, none), s, owed)
  | .query _ _ _ _ _ _ => let (x, s) := queryRead s r.core a; ((x.2.1, x.2.2), s, false)

/-- What a switch has done of a request: what each access gets, the state, a place that it refused, and whether SATF is owed. -/
structure Served where
  got : List (Acc × Word × Option (BitVec 12))
  s : State
  refused : Option Nat
  owed : Bool
deriving DecidableEq, Repr

/-- Serve sent accesses of a request in order: those refused get poison of the unit's tag, or are discarded (R101, R305). -/
def serveAccs (s : State) (r : Req) (k : Kernel) : List Acc → Served
  | [] => ⟨[], s, none, false⟩
  | a :: l =>
    if granaryOk s a.loc s.node k.jobkey k.grp then
      let ((v, t), s, o) := serveAcc s r k a
      let m := serveAccs s r k l
      { m with got := (a, v, t) :: m.got, owed := m.owed || o }
    else
      let m := serveAccs s r k l
      { m with got := (a, 0, some (fabricTag s (nodeOf a.loc - 240))) :: m.got, refused := some a.loc }

/-- Two accesses of a request travel in one packet (R294, R295): those of a gathered read or write. -/
def oneRequest (r : Req) (a b : Acc) : Bool :=
  let l := match r.op with
    | .load => gatherReads (wired r)
    | .store => gatherWrites (wired r)
    | _ => []
  a.lane == b.lane || l.any (fun p => decide (p.1 ≤ a.loc) && decide (a.loc < p.1 + p.2) && decide (p.1 ≤ b.loc) && decide (b.loc < p.1 + p.2))

/-- The accesses of a request that a switch serves now: those in the packets of the lanes named, or all, and lower lanes at the same
address before them (R120); packets still in a port's queue have not arrived (R332). -/
def arrived (s : State) (r : Req) (sw : Nat) (lanes : List Nat) : List Acc :=
  if away s r.id (240 + sw) = false then []
  else
    let w := waitingWire r (fun n => n == 240 + sw)
    if lanes.isEmpty then w else withLower (fun a => w.any (fun b => lanes.contains b.lane && oneRequest r a b)) w

/-- The sectors that the writes of one request cover whole are written whole (R295, R394). -/
def wholeFirst (s : State) (r : Req) (k : Kernel) (w : List Acc) : State :=
  match r.op with
  | .store => (wholeSectors (w.filter (fun a => granaryOk s a.loc s.node k.jobkey k.grp))).foldl (fun s p => cleanSector s r.core p.1 p.2) s
  | _ => s

/-- A switch serves a request of this device, and refuses what it will not let through to a peer (R305, R307). -/
def serveOwn (s : State) (sw : Nat) (r : Req) (lanes : List Nat) : State :=
  if s.lost.contains sw then s
  else
    let k := kernelOf s r.agent
    let barred : Acc → Bool := fun a => isPeer (nodeOf a.loc) && pairFor s a.loc = sw && !passes s r a
    match arrived s r sw lanes with
    | [] =>
      (match (waitingWire r (fun _ => true)).find? barred with
       | some a => giveUp (logRefused s sw a.loc) r barred (fun q => isPeer q.dst && q.port / 2 = sw)
       | none => s)
    | w =>
      let m := serveAccs (wholeFirst s r k w) r k w
      let s := match m.refused with
        | some loc => logRefused m.s sw loc
        | none => m.s
      let (r, s) := match m.owed, r.op with
        | true, .sketch _ satf _ => oweSatf s r satf
        | _, _ => (r, s)
      takeBack s (respond r m.got)

/-! ### A granary switch serves another device's requests -/

/-- Bytes of a list of numbers. -/
def asBytes (l : List Nat) : List Byte := l.map (BitVec.ofNat 8)

/-- The reply that goes back to an asker by a port (R294): status, the place asked for, then data of so many bytes. Port 32 is the
host's link, and 33 a granary switch's own to another device. -/
def reply (s : State) (w : Asker) (port loc status len : Nat) (words : List Nat) : State :=
  postAt s (w.jobkey, w.grp) 5 w.node port len none (status :: loc :: words)

/-- Write the bytes that a mask names, a whole sector as one (R394). -/
def writeMasked (s : State) (coh : Bool) (loc : Nat) (bs : List Byte) (mask : Nat) (tag : Option (BitVec 12)) : State :=
  (List.range ((bs.length + 31) / 32)).foldl (fun s j =>
    let piece := (bs.drop (32 * j)).take 32
    if mask / 2 ^ (32 * j) % 2 ^ 32 = 2 ^ 32 - 1 then wrSector s coh (loc + 32 * j) piece tag
    else (List.range 32).foldl (fun s i =>
      if mask.testBit (32 * j + i) then wrSector (eccRead s coh (loc + 32 * j + i) 1) coh (loc + 32 * j + i) [piece.getD i 0] tag else s) s) s

/-- A transaction of the subset: reads and writes of 64, 128 and 256 bytes, naturally aligned, and atomics of 4 and 8 (R294); and a
counter step of R240. -/
def supported (kind size off op et : Nat) : Bool :=
  match kind with
  | 0 => (size = 64 || size = 128 || size = 256) && off % size = 0
  | 1 => (size = 64 || size = 128 || size = 256) && off % size = 0
  | 2 => (et ≤ 3 || (et = 8 && op = 0)) && op ≤ 7 && off % atSize et = 0
  | 3 => (size = 2 || size = 4) && off % size = 0
  | _ => false

/-- A memory request of another node at a location, answered by a port: read, write, atomic or counter step (kinds 0 to 3). `h` holds
bytes and mask, or operation and type, or bytes and the place of SATF's descriptor. -/
def foreignOp (s : State) (w : Asker) (port kind loc : Nat) (coh : Bool) (h data : List Nat) : State :=
  let g := fun n => h.getD n 0
  let acc : Acc := { lane := 0, va := 0, loc := loc, coh := coh, l1 := false, ord := 1, size := if kind = 2 then atSize (g 1) else g 0,
                     data := wd (data.getD 0 0), cmp := wd (data.getD 1 0), pr := false }
  match kind with
  | 0 =>
    let s := eccRead s coh loc (g 0)
    reply s w port loc 0 (g 0) (tagOut (rdTags s coh loc (g 0)) :: (rdBytes s coh loc (g 0)).map (·.toNat))
  | 1 =>
    let mask := if g 0 = 64 then g 1 else 2 ^ (g 0) - 1
    reply (writeMasked s coh loc (asBytes (data.take (g 0))) mask (tagIn (data.getD (g 0) 0))) w port loc 0 0 []
  | 2 => let (x, s) := atPerform s w.core (atOp (g 0)) (g 1) acc; reply s w port loc 0 acc.size [tagOut x.2.2, x.2.1.toNat]
  | _ =>
    let (s, owed) := sketchStep s w (g 0 = 4) (loc / 2 ^ 44 * 2 ^ 44 + g 1) false acc
    reply s w port loc 0 0 [if owed then 1 else 0]

/-- GRANARY_REQUEST (R294, R301, R302, R305): a switch serves the next request to reach it. Event data: switch, source node, and 1
where another device's came by the partner port; lists: of this device the request's number and the lanes in the packets that
arrive (none: all); of another device the kind (0 read, 1 write, 2 atomic, 3 counter step, 4 XMEM), the job key, the group, the offset (XMEM: the function), then read: bytes; write:
bytes, mask; atomic: operation and type; counter step: bytes, the offset of SATF's descriptor; XMEM: both operands; and the data. -/
def execGranaryRequest (s : State) : Out :=
  let sw := s.inp.a.headD 0
  let src := s.inp.a.getD 1 0
  let h := s.inp.data
  let g := fun n => h.getD n 0
  if 7 < sw then .next s
  else if src = s.node then
    match s.reqs.find? (fun r => r.id == g 0), s.xmems.find? (fun x => x.id == g 0 && x.result.isNone) with
    | some r, _ => .next (serveOwn s sw r (h.drop 1))
    | none, some x =>
      if s.sent.any (fun p => p.req == some x.id) then .next s
      else
        let (v, s) := xmemServe s x.f x.a x.b x.jobkey x.grp s.node
        .next (xmemDone s x v)
    | none, none => .next s
  else if s.lost.contains sw then .next s
  else
    let jobkey := wd (g 1)
    let grp := BitVec.ofNat 16 (g 2)
    let w : Asker := ⟨src, jobkey, grp, 128⟩
    let loc := 2 * 2 ^ 52 + (240 + sw) * 2 ^ 44 + g 3 % 2 ^ 44
    let refuse : Nat → State := fun status => reply (logFrom s sw src (g 3)) w 33 loc status 0 []
    if g 0 = 4 then
      let (v, s) := xmemServe s (g 3) (wd (g 4)) (wd (g 5)) jobkey grp src
      .next (reply s w 33 0 0 8 [v.toNat])
    else if supported (g 0) (g 4) (g 3) (g 4) (g 5) = false then .next (refuse 1)
    else if granaryOk s loc src jobkey grp then .next (foreignOp s w 33 (g 0) loc false (h.drop 4) s.inp.tags)
    else .next (refuse 2)

/-! ### Lost switches and unanswered requests (R101, R305, R310) -/

/-- Ten milliseconds, in ns (R305). -/
def responseNs : Nat := 10000000

/-- Ten milliseconds have passed. -/
def overdue (s : State) (since : Nat) : Bool := decide (since + responseNs ≤ s.time)

/-- An atomic that no response comes for may have been performed at its switch (R101). -/
def maybePerformed (s : State) (r : Req) : State :=
  let k := kernelOf s r.agent
  match r.op with
  | .atomic _ _ => (waitingWire r (fun n => decide (240 ≤ n))).foldl (fun s a =>
      if granaryOk s a.loc s.node k.jobkey k.grp then (serveAcc s r k a).2.1 else s) s
  | _ => s

/-- An atomic that an engine operation or the launch sequencer has sent may have been performed at its switch although no response
came (R101): a SKOP's step, its SATF, or a decrement. -/
def maybeAsked (s : State) (a : Ask) : State :=
  let l := a.pieces.filter (fun p => farLoc p.loc && decide (240 ≤ nodeOf p.loc) && !deadSwitch s p.loc)
  match a.by_ with
  | .op id key =>
    (match s.skops.find? (fun o => o.id == id && !o.flight) with
     | none => s
     | some o =>
       if key = [0] then (l.filter (fun p => !refusedAt s o.party.k.badge p.loc)).foldl (fun s p => skopAt s o p a.bytes) s
       else if key = [2] ∨ key = [4] then l.foldl (fun s p => putSatf s (askerOf s o.party.k o.party.core) (p.loc - 8) false (key = [2] || o.f = 0)) s
       else s)
  | .part [0, pool, va, 4, 2] =>
    (match launchOf s pool with
     | some m => (l.filter (fun p => !refusedAt s (launchWho s m).badge p.loc)).foldl (fun s p => decAt s (launchWho s m) (wd va - 16) p) s
     | none => s)
  | _ => s

/-- What an engine, a descriptor's read or the part's own access asked has had no response for 10 ms (R101, R246, R305): none comes
any more. -/
def askTimeout (s : State) (id : Nat) : State :=
  match s.asks.find? (fun a => a.id == id) with
  | some a =>
    if overdue s a.since && !a.dead && a.val.isNone then
      killAsks (if s.inp.a.getD 1 0 = 1 then maybeAsked s a else s) (fun b => b.id == id)
    else s
  | none => s

/-- RESPONSE_TIMEOUT (R246, R305, R310, R314, R326): 10 ms have passed without a response; a call that is not paused fails.
Whether an atomic was performed at a switch first is datum 1; it cannot be told (R101). Event data: id, performed.
Log 22: DEDUCED. -/
def execResponseTimeout (s : State) : Out :=
  let id := s.inp.a.headD 0
  match s.reqs.find? (fun r => r.id == id), s.xmems.find? (fun x => x.id == id && x.result.isNone), s.calls.find? (fun c => c.id == id) with
  | some r, _, _ =>
    if overdue s r.since = false then .next s
    else .next (giveUp (if s.inp.a.getD 1 0 = 1 then maybePerformed s r else s) r (fun _ => true) (fun _ => true))
  | none, some x, _ => .next (if overdue s x.since then xmemDone s x (xmemErr 4) else s)
  | none, none, some c =>
    .next (if c.started = true ∧ c.paused = none ∧ c.err = 0 ∧ overdue s c.since = true then putCall s { c with err := 9, park := none } else s)
  | none, none, none => .next (askTimeout s id)

/-- GRANARY_LOST (R101): the switch's allocations are lost from now on; a record is logged, and what waits for the switch has its
outcome. Event data: switch. -/
def execGranaryLost (s : State) : Out :=
  let sw := s.inp.a.headD 0
  if 7 < sw ∨ s.lost.contains sw = true then .next s
  else
    let s := logOpen { s with lost := sw :: s.lost } (112 + sw) 6 3 (Config.fabricAddr (2 * sw) s.node)
    let s := s.reqs.foldl (fun s r => giveUp s r (fun a => nodeOf a.loc == 240 + sw) (fun q => q.dst == 240 + sw)) s
    .next (killAsks s (fun a => a.val.isNone && a.pieces.any (fun x => farLoc x.loc && nodeOf x.loc == 240 + sw)))

/-! ### NWR, NRD and NRED (R309, R310) -/

/-- The size of an element in memory (R52). -/
def memSize (et : Nat) : Nat :=
  if is64 et then 8 else if et = 4 ∨ et = 5 ∨ et = 9 ∨ et = 10 then 2 else if et = 6 ∨ et = 7 ∨ et = 11 ∨ et = 12 then 1 else 4

/-- The access of a lane to a peer's window, or to this device's own (R309). -/
def windowAcc (s : State) (g : Group) (lane size rank : Nat) (off data : Word) : Acc :=
  let node := g.nodes.getD rank 0
  let own := node = s.node
  { lane := lane, va := off, loc := if own then g.winBase + off.toNat else 6 * 2 ^ 52 + node * 2 ^ 44 + off.toNat,
    coh := own, l1 := false, ord := 0, size := size, data := data, cmp := 0, pr := false }

/-- The port pair of a remote access's lane to this device itself (R295). -/
def ownPair (s : State) (a : Acc) : Nat := portFor s s.node a.va.toNat / 2

/-- Perform the lanes of a remote access that reach this device itself, which checks them as it checks any (R307, R309): what came
back. Lanes of one NRED at one element are combined first (R310). -/
def ownLanes (s : State) (op : ReqOp) (l : List Acc) : List (Nat × Word × Option (BitVec 12)) × State :=
  match l with
  | [] => ([], s)
  | a :: _ =>
    if devAccept s s.node s.cur.k.jobkey s.cur.k.grp = false then
      (l.map (fun a => (a.lane, 0, some (fabricTag s (ownPair s a)))),
       logOpen s (112 + ownPair s a) 7 2 (Config.fabricAddr (portFor s s.node a.va.toNat) s.node))
    else match op with
      | .load => let (v, s) := loadAll s s.cur.core l; (v.map (fun p => (p.1, p.2.2)), s)
      | .reduce e =>
        let (_, s) := atPerformAll s s.cur.core .add e (wireAccs op l)
        (l.map (fun a => (a.lane, 0, none)), s)
      | _ => (l.map (fun a => (a.lane, 0, none)), storeAll s s.cur.core l)

/-- Send a remote access, or perform it where every lane is this device's own. -/
def sendRemote (s : State) (op : ReqOp) (d : Dest) (l : List Acc) : State :=
  let s := drainOverlap s l
  let (got, s) := ownLanes s op (l.filter (fun a => !isRemote a))
  let (n, s) := freshId s
  let r := newReq s n op d l true true got
  let s := pend (countUp s (if isStoreOp op then .st else .ld)) d
  progress (launchReq s r) r

/-- NWR, NRD and NRED (R309). -/
def remote (i : Instr) (types : Nat → Bool) (op : Nat → ReqOp) (d a b : Nat) (read : Bool) (s : State) : Out :=
  let et := etOf s
  let wide := is64 et
  run i { vr := a :: b :: (b + 1) :: (if read then [] else regs wide d), vw := if read then regs wide d else [],
          cls := some (if read then .ld else .st) } (fun s =>
    if types et = false ∨ b % 2 = 1 ∨ (wide = true ∧ d % 2 = 1) then illegal s i
    else
      let size := memSize et
      let l := (activeLanes s).map (fun n => (n, getV2 s b n))
      match failing l (fun o => o.toNat % size ≠ 0) with
      | some (o, m) => trapAt s ALIGN o 0 m
      | none =>
        match groupFor s s.cur.k.grp with
        | none =>
          match failing l (fun _ => true) with
          | some (o, m) => trapAt s PERM o 0 m
          | none => .done (advance s)
        | some g =>
          let bad := l.filter (fun p => decide (g.size ≤ (getV s a p.1).toNat) || decide (g.winLen < p.2.toNat + size))
          match bad with
          | p :: r => trapAt s PERM p.2 0 (maskList ((p :: r).map (·.1)))
          | [] =>
            if l.isEmpty then .done (advance s)
            else
              let accs := l.map (fun p => windowAcc s g p.1 size (getV s a p.1).toNat p.2
                (rawV s et d p.1 &&& wd (2 ^ (8 * size) - 1)))
              if mustWait s accs then .stall
              else .done (advance (sendRemote s (op et) (if read then .vreg d size (signExt et) else .none) accs))) s

/-- NWR (R309). -/
def execNwr (d a b : Nat) (s : State) : Out := remote (.nwr d a b) (fun et => decide (et ≤ 12)) (fun _ => .store) d a b false s

/-- NRD (R309). -/
def execNrd (d a b : Nat) (s : State) : Out := remote (.nrd d a b) (fun et => decide (et ≤ 12)) (fun _ => .load) d a b true s

/-- NRED (R309, R310). -/
def execNred (d a b : Nat) (s : State) : Out :=
  remote (.nred d a b) (fun et => decide (et ≤ 3) || et = 8) (fun et => .reduce et) d a b false s

/-! ### Incoming requests (R294, R307, R309) -/

/-- FABRIC_REQUEST (R82, R294, R307, R309): another device's request to this one, at its window (kinds 0 read, 1 write, 2
atomic) or at a PA (the same kinds + 4). Event data: source node; lists: kind, job key, group, offset, then bytes, and for
a write the byte mask of 64 bytes; or for an atomic its operation and type; and the data.
Log 67: DEDUCED. -/
def execFabricRequest (s : State) : Out :=
  let src := s.inp.a.headD 0
  let h := s.inp.data
  let g := fun n => h.getD n 0
  let off := g 3
  let port := portFor s s.node off
  let win := g 0 < 4
  let kind := g 0 % 4
  let size := if kind = 2 then atSize (g 5) else g 4
  let w : Asker := ⟨src, wd (g 1), BitVec.ofNat 16 (g 2), 128⟩
  let back := portFor s src off
  let refuse : Nat → State := fun status => reply (logOpen s (112 + port / 2) 7 2 (Config.fabricAddr port src)) w back off status 0 []
  if 7 < g 0 ∨ kind = 3 ∨ supported kind (g 4) off (g 4) (g 5) = false then .next (refuse 1)
  else if win = true ∧ packetOk s port src w.jobkey w.grp = false then .next (refuse 2)
  else
    let e := (groupFor s (BitVec.ofNat 16 (g 2))).getD ⟨0, 0, false, 0, 0, 0, 0, 0, []⟩
    if (if win then e.winLen else hbmEnd) < off + size then .next (refuse 2)
    else .next (foreignOp s w back kind (if win then e.winBase + off else off) true (h.drop 4) s.inp.tags)

end Sys2Proof.Machine
end

