-- ==== Sys2Proof/Machine/Collective.lean ====
section
/-!
DEFINITION. Collective calls (18 R311 to R319, R326, R327; 20 R329 to R331): issue and checks, matching, the members' data
on the wire, the fold, and completion.
-/
namespace Sys2Proof.Machine

open Sys2Proof

/-! ### The descriptor (R312) -/

/-- Bits of a call's descriptor. -/
def Call.f (c : Call) (hi lo : Nat) : Nat := fld c.desc.toNat hi lo

/-- OP. -/
def Call.op (c : Call) : Nat := c.f 283 280
/-- WFMT. -/
def Call.wfmt (c : Call) : Nat := c.f 286 284
/-- ROP. -/
def Call.rop (c : Call) : Nat := c.f 289 287
/-- ET. -/
def Call.et (c : Call) : Nat := c.f 294 290
/-- DRM, with MD.RM for code 7. -/
def Call.rm (c : Call) : Nat := if c.f 297 295 = 7 then c.party.rm else c.f 297 295
/-- OB. -/
def Call.ob (c : Call) : Nat := c.f 299 298
/-- SCHED: the call is time-triggered. -/
def Call.timed (c : Call) : Bool := c.f 300 300 = 1
/-- ROOT. -/
def Call.root (c : Call) : Nat := c.f 278 272
/-- COUNT. -/
def Call.count (c : Call) : Nat := c.f 159 128
/-- SRC. -/
def Call.src (c : Call) : Word := wd (c.f 63 0)
/-- DST. -/
def Call.dst (c : Call) : Word := wd (c.f 127 64)

/-- The group's size, and this device's rank in it. -/
def Call.group (s : State) (c : Call) : Group := (groupFor s c.handle).getD ⟨0, 0, false, 0, 0, 0, 0, 0, []⟩

/-- A reserved field or code is nonzero (R312, R314). -/
def callDescBad (x : Nat) : Bool :=
  fld x 511 301 ≠ 0 || fld x 279 279 ≠ 0 || fld x 271 262 ≠ 0 || fld x 191 160 ≠ 0 ||
  fld x 299 298 = 3 || fld x 297 295 = 6 || decide (12 < fld x 294 290) || decide (2 < fld x 289 287) ||
  decide (4 < fld x 286 284) || decide (5 < fld x 283 280)

/-- SHAPE (R314). -/
def callShapeBad (n x : Nat) : Bool :=
  let op := fld x 283 280
  let w := fld x 286 284
  let et := fld x 294 290
  let c := fld x 159 128
  let size := memSize et
  (decide (op ≤ 1) && (!(et = 8 || et = 9 || et = 0) || ((w = 3) != (et = 0)) || w = 4)) ||
  (decide (2 ≤ op) && decide (op ≤ 4) && (w ≠ 0 || fld x 289 287 ≠ 0)) ||
  (op = 5 && (w ≠ 4 || fld x 289 287 ≠ 0)) ||
  ((op = 1 || op = 3) && c % n ≠ 0) ||
  (decide (w ≤ 1) && ((op = 0 && c % 8 ≠ 0) || (op = 1 && c / n % 8 ≠ 0))) ||
  decide (n ≤ fld x 278 272) ||
  (decide (op ≤ 4) && (fld x 63 0 % size ≠ 0 || fld x 127 64 % size ≠ 0))

/-- The error of the checks made at issue (R314): GEOM is judged once the sketches are read. -/
def callErr (s : State) (g : Option Group) (x : Nat) : Nat :=
  match g with
  | none => 3
  | some g =>
    if callDescBad x then 1
    else if callShapeBad g.size x then 2
    else if fld x 300 300 = 1 ∧ rotorUp s = false then 11
    else 0

/-! ### Matching (R316) -/

/-- What a first packet carries after the handle and number; the sketch geometry stands for its digest.
Log 71: DESIGN CHOICE. -/
def firstFields (c : Call) : List Nat :=
  [c.op, c.wfmt, c.et, c.rop, c.count, c.root] ++
  (match c.geom with
   | some (d, _) => [d.lw, d.depth, d.seed, (d.scale % 256).toNat, if d.narrow then 1 else 0]
   | none => [])

/-- A member's first packet meets the call (R316): it agrees, or the call ends on every member. -/
def takeFirst (s : State) (c : Call) (rank : Nat) (fields : List Nat) : State :=
  if c.err ≠ 0 ∨ c.firsts.contains rank = true then s
  else if fields = firstFields c then putCall s { c with firsts := rank :: c.firsts, since := s.time }
  else putCall (tellPeers s c 8 [1]) { c with err := 4 }

/-- The call as it now stands. -/
def callNow (s : State) (c : Call) : Call := (s.calls.find? (fun d => d.id == c.id)).getD c

/-- A call has passed its checks, and what its issuer had in flight is performed: its first packets go out, and those that came early
meet it (R316, R319, R326). -/
def announce (s : State) (c : Call) : State :=
  let mine := s.early.filter (fun e => e.handle == c.handle && e.num == c.num)
  let s := { tellPeers s c 6 (firstFields c) with early := s.early.filter (fun e => !mine.contains e) }
  let c := { c with announced := true, since := s.time }
  let c := match mine.find? (·.pause) with
    | some e => { c with paused := some (e.fields.headD s.time), everPaused := true }
    | none => c
  (mine.filter (fun e => !e.pause)).foldl (fun s e => takeFirst s (callNow s c) e.rank e.fields) (putCall s c)

/-- The first number that no abort has consumed (R316), and the consumed ones left. -/
def skipTo (h : Nat) : Nat → BitVec 32 → List (Nat × Nat) → BitVec 32 × List (Nat × Nat)
  | 0, n, l => (n, l)
  | f + 1, n, l => if l.contains (h, n.toNat) then skipTo h f (n + 1) (l.erase (h, n.toNat)) else (n, l)

/-- The number of the next call on a handle (R311); a handle with no entry has none, so the number is open.
Log 70: DESIGN CHOICE. -/
def callNumber (s : State) (grp : BitVec 16) : BitVec 32 × State :=
  match (if grp = 0 then none else smGet none s.groups grp.toNat) with
  | none => let (v, s) := freeWord s; (v.setWidth 32, s)
  | some g =>
    let (n, l) := skipTo grp.toNat (s.skipped.length + 1) g.cseq s.skipped
    (n, { s with skipped := l, groups := smPut none s.groups grp.toNat (some { g with cseq := n + 1 }) })

/-- A number has not been issued on its handle yet. -/
def notIssued (s : State) (grp num : Nat) : Bool :=
  match smGet none s.groups grp with
  | none => false
  | some g => decide ((BitVec.ofNat 32 num - g.cseq).toNat < 2 ^ 31) && !s.skipped.contains (grp, num)

/-! ### CCALL (R311) -/

/-- CCALL once its operands are good. -/
def ccall (toReg : Bool) (tag a : Nat) (s : State) : Issue :=
  match readDesc s (getS s a) 64 false with
  | .stop r => r
  | .ok x _ _ _ s =>
    let grp := s.cur.k.grp
    if 8 ≤ (s.calls.filter (fun c => c.handle == grp)).length then .stall
    else
      let s := forkEdge s
      let e := callErr s (groupFor s grp) x
      let (num, s) := callNumber s grp
      let (id, s) := freshId s
      let c : Call :=
        { id := id, party := partyOf s, toReg := toReg, tag := tag, handle := grp, num := num, desc := BitVec.ofNat 512 x,
          geom := none, announced := false, firsts := [], own := [], satf := false, recv := [], sent := [],
          credited := 0, todo := [], since := s.time, mine := false,
          started := false, starting := none, late := false, everPaused := false, paused := none, released := false, rotEnd := 0,
          pois := false, err := e, park := none }
      let s := countUp { s with calls := s.calls ++ [c] } .cp
      let s := if toReg then pend s (.sreg tag) else s
      .done (advance (if e = 0 ∧ c.op ≠ 5 ∧ edgeDone s c.party = true then announce s c else s))

/-- CCALL to a barrier (R311). -/
def execCcall (n a : Nat) (s : State) : Out :=
  run (.ccall n a) { sr := [a], cls := some .cp }
    (fun s => if s.cur.k.nBar ≤ n then illegal s (.ccall n a) else ccall false n a s) s

/-- CCALL to a status register (R311, R315). -/
def execCcallStatus (d a : Nat) (s : State) : Out :=
  run (.ccallStatus d a) { sr := [a], sw := [d], cls := some .cp } (ccall true d a) s

/-! ### What goes to whom (R313, R317) -/

/-- Bytes of the wire form of a full block of eight elements (R317). -/
def blockBytes (w : Nat) : Nat :=
  match w with
  | 0 => 5
  | 1 => 9
  | 2 => 16
  | _ => 32

/-- Bytes of the wire form of n elements or counters. -/
def wireLen (w n : Nat) : Nat :=
  match w with
  | 0 => n / 8 * 5
  | 1 => n / 8 * 9
  | 2 => 2 * n
  | _ => 4 * n

/-- A reduction. -/
def Call.folds (c : Call) : Bool := decide (c.op ≤ 1) || c.op = 5

/-- The counters of a SKREDUCE. -/
def Call.counters (c : Call) : Nat := (c.geom.map (fun p => p.1.count)).getD 0

/-- Elements of one rank's share. -/
def Call.share (c : Call) (n : Nat) : Nat := c.count / n

/-- The part of a rank's contribution that rank d needs: its place and length on the wire; whole blocks (R317).
Log 72: DESIGN CHOICE. -/
def Call.slice (c : Call) (n d : Nat) : Nat × Nat :=
  let total := if c.op = 5 then wireLen 4 c.counters else wireLen c.wfmt c.count
  if c.op = 1 then
    let a := min total (d * c.share n / 8 * blockBytes c.wfmt)
    let b := min total (((d + 1) * c.share n + 7) / 8 * blockBytes c.wfmt)
    (a, b - a)
  else (0, total)

/-- The bytes that rank r sends to rank d: their place in r's buffer or contribution, and their number (R313). -/
def Call.part (c : Call) (n r d : Nat) : Nat × Nat :=
  let size := memSize c.et
  match c.op with
  | 2 => (0, c.count * size)
  | 3 => (d * c.share n * size, c.share n * size)
  | 4 => (0, if r = c.root then c.count * size else 0)
  | _ => c.slice n d

/-- Where the bytes of rank r begin in DST (R313). -/
def Call.place (c : Call) (n r : Nat) : Nat :=
  match c.op with
  | 2 => r * c.count * memSize c.et
  | 3 => r * c.share n * memSize c.et
  | _ => 0

/-- The bytes credited (R313). -/
def Call.planned (c : Call) (n : Nat) : Nat :=
  let size := memSize c.et
  match c.op with
  | 1 => c.share n * size
  | 2 => n * c.count * size
  | 5 => (c.geom.map (fun p => p.2.count * p.2.size)).getD 0
  | _ => c.count * size

/-- The bytes already sent to a rank. -/
def Call.sentTo (c : Call) (d : Nat) : Nat := ((c.sent.find? (·.1 == d)).map (·.2)).getD 0

/-- More bytes have been sent to a rank. -/
def Call.addSent (c : Call) (d n : Nat) : Call :=
  { c with sent := (d, c.sentTo d + n) :: c.sent.filter (fun p => p.1 ≠ d) }

/-- Everything this member sends has gone. -/
def Call.allSent (s : State) (c : Call) : Bool :=
  let g := c.group s
  (c.peers s).all (fun p => decide ((c.part g.size g.rank p.1).2 ≤ c.sentTo p.1))

/-- First packets of every peer agree (R316). -/
def Call.matched (s : State) (c : Call) : Bool := c.announced && (c.peers s).all (fun p => c.firsts.contains p.1)

/-- The device runs the calls of a handle one at a time, in number order (R311). -/
def Call.isHead (s : State) (c : Call) : Bool := !s.calls.any (fun d => d.handle == c.handle && decide (d.id < c.id))

/-! ### The contribution on the wire (R317 steps 1 and 2, R318) -/

/-- The rounding of source element e in the wire's encoding (R59). -/
def Call.wireRnd (c : Call) (e : Nat) : Rnd :=
  ⟨c.rm, draw c.party.srkey c.party.srseq (c.src + wd (memSize c.et * e)) 0 2⟩

/-- A float element's value; a zero where the type is no float. -/
def fvOf (et : Nat) (x : Nat) : FV :=
  match fmtOf et with
  | some f => fdecode f x
  | none => .fin false 0 1

/-- The wire form of one block of elements, with its events: block q, from the elements' bytes. -/
def wireBlock (c : Call) (q : Nat) (l : List (List PByte)) : List PByte × CvEv :=
  let xs := ((List.range l.length).zip l).map (fun (p : Nat × List PByte) => (fvOf c.et (pNat p.2), c.wireRnd (8 * q + p.1)))
  let tag := pTag l.flatten
  match c.wfmt with
  | 0 => let (w, sc, e) := encodeQ4X c.ob xs; (pBytes 4 w tag ++ pBytes 1 sc tag, e)
  | 1 => let (b, sc, e) := encodeFp8 fE4 kE4 xs; (b.flatMap (fun x => pBytes 1 x tag) ++ pBytes 1 sc tag, e)
  | 2 => ((xs.zip l).flatMap (fun p => pBytes 2 (fpack fBF16 p.1.2 p.1.1).code (pTag p.2)), {})
  | _ => (l.flatten, {})

/-- The wire form of a contribution from its elements. -/
def wireAll (c : Call) : List (List (List PByte)) → Nat → List PByte × CvEv
  | [], _ => ([], {})
  | b :: r, q =>
    let (x, e) := wireBlock c q b
    let (y, f) := wireAll c r (q + 1)
    (x ++ y, cvPlus e f)

/-- Cut a list into pieces of n, the last shorter; the first argument bounds them. -/
def chop {α : Type} (n : Nat) : Nat → List α → List (List α)
  | 0, _ => []
  | f + 1, l => if l.isEmpty then [] else l.take n :: chop n f (l.drop n)

/-- Sketch counters as they travel: I32 each (R318). -/
def wireCounters (d : Sketch) (bs : List PByte) : List PByte :=
  (cutBytes d.size bs).flatMap (fun b => pBytes 4 (sx (8 * d.size) (pNat b) % 2 ^ 32).toNat (pTag b))

/-! ### The fold (R317 steps 3 and 4, R318) -/

/-- A block of the wire: its values, with their poison. -/
def wireValues (w : Nat) (b : List PByte) : List (FV × Option (BitVec 12)) × CvEv :=
  let tag := pTag b
  match w with
  | 0 => let (l, e) := decodeQ4X (pNat (b.take 4)) (pNat (b.drop 4)); (l.map (fun v => (v, tag)), e)
  | 1 =>
    let sc := pNat (b.drop 8)
    ((b.take 8).map (fun x =>
      let v : FV := if sc = 0 then .fin false 0 1 else if sc = 0xFF then .nan false else
        match fdecode fE4 (pNat [x]) with
        | .fin g n d => .fin g (n * (s8Val sc).1) (d * (s8Val sc).2)
        | y => y
      (v, tag)), {})
  | _ => ((cutBytes 2 b).map (fun x => (fdecode fBF16 (pNat x), pTag x)), {})

/-- a ≤ b for finite values. -/
def fvLe : FV → FV → Bool
  | .fin x n d, .fin y m e => decide (snum x n * (e : Int) ≤ snum y m * (d : Int))
  | _, _ => false

/-- One step of the fold (R317): the sum of R77, or the exact minimum or maximum, then R76. -/
def wxCombine (rop : Nat) (a b : Option (List Int × Int)) : Option (List Int × Int) × CvEv :=
  match rop, a, b with
  | 0, _, _ => wxSum a b
  | r, some _, some _ =>
    wxEncode (((wxDecode a).zip (wxDecode b)).map (fun p => if fvLe p.1 p.2 = (r = 1) then p.1 else p.2))
  | _, _, _ => (none, {})

/-- Eight values of a block, filled with zeros. -/
def fillBlock (l : List FV) : List FV := l ++ List.replicate (8 - l.length) (.fin false 0 1)

/-- Fold one block over the ranks: the accumulator, its elements' poison, and the events. -/
def foldBlock (w rop : Nat) (l : List (List PByte)) : Option (List Int × Int) × List (Option (BitVec 12)) × CvEv :=
  let v := l.map (wireValues w)
  let x := v.map (fun p => (wxEncode (fillBlock (p.1.map (·.1))), p.1.map (·.2), p.2))
  match x with
  | [] => (none, [], {})
  | ((b, e), t, f) :: r =>
    r.foldl (fun (a : Option (List Int × Int) × List (Option (BitVec 12)) × CvEv) y =>
      let (m, g) := wxCombine rop a.1 y.1.1
      (m, (a.2.1.zip y.2.1).map (fun p => minTag p.1 p.2), cvPlus a.2.2 (cvPlus g (cvPlus y.1.2 y.2.2)))) (b, t, cvPlus e f)

/-- Exact integers: sum, minimum or maximum. -/
def intCombine (rop : Nat) (a b : Int) : Int :=
  match rop with
  | 0 => a + b
  | 1 => min a b
  | _ => max a b

/-- Integers of a wire form, with their poison. -/
def wireInts (b : List PByte) : List (Int × Option (BitVec 12)) := (cutBytes 4 b).map (fun x => (sx 32 (pNat x), pTag x))

/-- Fold integer contributions (R317, R318). -/
def foldInts (f : Int → Int → Int) (l : List (List PByte)) : List (Int × Option (BitVec 12)) :=
  match l.map wireInts with
  | [] => []
  | a :: r => r.foldl (fun a b => (a.zip b).map (fun p => (f p.1.1 p.2.1, minTag p.1.2 p.2.2))) a

/-- The elements of a float fold, rounded once to ET (R317 step 4): element numbers from e0 on of n elements, the first
block being b0. -/
def roundFold (c : Call) (blocks : List (Option (List Int × Int) × List (Option (BitVec 12)) × CvEv)) (b0 e0 n : Nat) : List PByte :=
  let f := (fmtOf c.et).getD fF32
  (List.range n).flatMap (fun i =>
    let e := e0 + i - 8 * b0
    match blocks[e / 8]? with
    | some (b, t, _) =>
      let r : Rnd := ⟨c.rm, draw c.party.srkey c.party.srseq (c.dst + wd (memSize c.et * i)) 0 0⟩
      pBytes (memSize c.et) (fpack f r ((wxDecode b).getD (e % 8) (.nan false))).code (t.getD (e % 8) none)
    | none => [])

/-- The result of the fold on this rank: the bytes of DST, the events, and whether a counter saturated. -/
def foldAll (c : Call) (n rank : Nat) (l : List (List PByte)) : List PByte × CvEv × Bool :=
  let e0 := if c.op = 1 then rank * c.share n else 0
  let m := if c.op = 1 then c.share n else c.count
  if c.op = 5 then
    let lim : Int := 2 ^ 31 - 1
    let (narrow, size) := ((c.geom.map (fun p => (p.2.narrow, p.2.size))).getD (false, 4))
    let x := foldInts (fun a b => skSat lim (a + b)) l
    let beyond := (l.map wireInts).foldl (fun (a : List Int × Bool) b =>
      if a.1.isEmpty then (b.map (·.1), false)
      else ((a.1.zip b).map (fun p => skSat lim (p.1 + p.2.1)),
            a.2 || (a.1.zip b).any (fun p => decide (skSat lim (p.1 + p.2.1) ≠ p.1 + p.2.1)))) ([], false)
    let out : Int → Int := fun v => if narrow then skSat (2 ^ 15 - 1) v else v
    (x.flatMap (fun p => pBytes size (out p.1 % 2 ^ (8 * size)).toNat p.2), {},
     beyond.2 || x.any (fun p => decide (out p.1 ≠ p.1)))
  else if c.wfmt = 3 then
    let x := (foldInts (intCombine c.rop) l).drop (e0 - e0 / 8 * 8)
    let out : Int → Int := fun v => max (-(2 ^ 31)) (min (2 ^ 31 - 1) v)
    ((x.take m).flatMap (fun p => pBytes 4 (out p.1 % 2 ^ 32).toNat p.2),
     { satcv := ((x.take m).filter (fun p => decide (out p.1 ≠ p.1))).length }, false)
  else
    let b0 := e0 / 8
    let cut := l.map (fun b => chop (blockBytes c.wfmt) (b.length + 1) b)
    let rows := (List.range ((cut.head?.map List.length).getD 0)).map (fun j =>
      foldBlock c.wfmt c.rop (cut.map (fun x => x.getD j [])))
    (roundFold c rows b0 e0 m, rows.foldl (fun e b => cvPlus e b.2.2) {}, false)

/-! ### Running a call -/

/-- The ECODE of a failed access (R314, R315). -/
def EErr.call : EErr → Nat
  | .xlate => 6
  | .perm => 7
  | .xlost => 8
  | .fabric => 9
  | .barwin _ => 12

/-- The call fails with a code; its completion follows. -/
def failCall (s : State) (c : Call) (e : Nat) : State := putCall s { c with err := e, park := none }

/-- The call parks at a translation fault (R104). -/
def parkCall (s : State) (c : Call) (acc : Nat) (va : Word) (kd lv : Nat) (e : Word) : State :=
  let (n, s) := parkEng s c.party c.id 4 acc va kd lv e
  putCall s { c with park := some n }

/-- A call goes on with what an access answers, parks at a fault, waits or fails (R104, R314). -/
def callTake {α : Type} (s : State) (c : Call) (acc : Nat) (x : ERes α) (f : α → State → State) : State :=
  match x with
  | .ok a s => f a s
  | .wait s => s
  | .fault va kd lv e => parkCall s c acc va kd lv e
  | .err e s => failCall (errMark s e) c e.call

/-- What a call has formed lands, but for the sectors that the event names, and credits its barrier as it lands (R128, R315). -/
def landCallRest (s : State) (c : Call) : State :=
  let l := landNow s c.party c.id c.todo
  let s := if c.toReg ∨ l.n = 0 then l.s else creditBar l.s c.party.core (pbOf c.party.k c.tag) l.n false
  let c := { c with credited := c.credited + l.n, todo := if l.bad then [] else l.left }
  if l.bad then failCall s c EErr.fabric.call else putCall s c

/-- Write bytes of DST (R315). The call is `done` once they have; parked at a fault, or
failed, it is what it was, and the bytes are written when it goes on (R104, R314). -/
def landCall (s : State) (c done : Call) (va : Word) (bs : List PByte) : State :=
  if bs.isEmpty then putCall s done
  else callTake s c 2 (engRange s c.party .wr va bs.length) (fun l s =>
    landCallRest s { done with
      party := stampIf (!c.started) s c.party, pois := c.pois || (pTag bs).isSome, todo := landings l bs })

/-- What other nodes have answered a call for one of its steps is kept no longer. -/
def callDone (s : State) (c : Call) : State := dropAsks s (Ask.ofOp c.id)

/-- The sketches of a SKREDUCE are read and judged (R314 GEOM, then NOTIME); its first packets follow. -/
def readGeom (s : State) (c : Call) : State :=
  let get : State → List Nat → AccKind → Word → ERes Nat := fun s key k va =>
    keptVal s (.op c.id key) ((engRead s c.party c.id key k va 32).map pNat)
  callTake s c 1 (get s [3] .rd c.src) (fun x s =>
    callTake s c 4 (get s [4] .at c.dst) (fun y s =>
      let at_ := fun (va : Word) => match engPiece s c.party .rd va 32 with
        | .ok p _ => (p.loc, p.coh)
        | _ => (nowhere, false)
      let s := callDone s c
      let d := sketchOf c.src (at_ c.src).1 (at_ c.src).2 x
      let e := sketchOf c.dst (at_ c.dst).1 (at_ c.dst).2 y
      if sketchBad x ≠ 0 ∨ sketchBad y ≠ 0 ∨ geomDiffers d e = true then failCall s c 10
      else
        let c : Call := { c with geom := some (d, e), since := s.time }
        if c.err = 0 then announce (putCall s c) c else putCall s c))

/-- The reads that a start needs: the whole contribution of a reduction (R317), and the own block of a move, which then lands as
what comes from others does (R329). A start that has begun goes on when a fault is resolved, or another node has answered (R104). -/
def startCall (s : State) (c : Call) (late : Bool) : State :=
  let g := c.group s
  let c : Call := { c with party := stampIf c.starting.isNone s c.party, starting := some late }
  let go : Call → State → State := fun c s => putCall (callDone s c) { c with started := true, since := s.time, late := late }
  let s := putCall s c
  let read : State → Word → Nat → ERes (List PByte) := fun s va n => engRead s c.party c.id [1] .rd va n
  if c.op = 5 then
    match c.geom with
    | none => s
    | some (d, _) =>
      callTake s c 1 (keptVal s (.op c.id [5]) ((readSatf s c.party c.id [5] d.loc d.coh).map (fun b => if b then 1 else 0))) (fun b s =>
        callTake s c 1 (read s d.base (d.count * d.size)) (fun x s =>
          go { c with own := wireCounters d x, satf := c.satf || b = 1 } s))
  else if c.folds then
    callTake s c 1 (read s c.src (c.count * memSize c.et)) (fun x s =>
      let (w, ev) := wireAll c (chop 8 (c.count + 1) (cutBytes (memSize c.et) x)) 0
      go { c with own := w } (countCv s c.party.core ev))
  else
    let (a, n) := c.part g.size g.rank g.rank
    callTake s c 1 (read s (c.src + wd a) n) (fun x s => go { c with recv := if x = [] then c.recv else (g.rank, 0, x) :: c.recv } s)

/-- Bytes of a packet with their poison, each as two numbers. -/
def wireWords (l : List PByte) : List Nat := l.flatMap (fun b => [b.1.toNat, tagOut b.2])

/-- Bytes of a call to a rank leave in write packets of up to 256 bytes (R294, R330): the words are the place, the sources' SATF,
the node and slot of the destination, and the bytes. The first argument bounds the packets.
Log 41: DEDUCED. -/
def postCall : Nat → State → Call → Nat → Nat → Nat → Option Nat → Nat → List PByte → State
  | 0, s, _, _, _, _, _, _, _ => s
  | f + 1, s, c, node, via, slot, port, off, bs =>
    if bs = [] then s
    else
      let s := postAt s c.party.k.badge 7 via (port.getD (portFor s via off)) (min 256 bs.length) none
        ([c.party.k.jobkey.toNat, c.handle.toNat, c.num.toNat, off, if c.satf then 1 else 0, node, slot] ++ wireWords (bs.take 256))
      postCall f s c node via slot port (off + 256) (bs.drop 256)

/-- Send up to `lim` of the next bytes to a rank (R330), from when its response timer runs anew; `via` is the node of the first hop,
`slot` that of the second, and `port` the rotor port of the slot, none on the static plane. -/
def sendCall (s : State) (c : Call) (rank node via slot : Nat) (port : Option Nat) (lim : Nat) : State :=
  let g := c.group s
  let (a, n) := c.part g.size g.rank rank
  let off := c.sentTo rank
  let k := min lim (n - off)
  if k = 0 then s
  else
    let go : List PByte → State → State := fun bs s =>
      putCall (postCall (bs.length / 256 + 1) s c node via slot port off bs) { c.addSent rank bs.length with since := s.time }
    if c.folds then go ((c.own.drop (a + off)).take k) s
    else callTake s c 1 (engRead s c.party c.id [2, rank] .rd (c.src + wd (a + off)) k) (fun bs s => go (bs.take k) s)

/-- An immediate call sends everything on the static plane. -/
def sendAll (s : State) (c : Call) : List (Nat × Nat) → State
  | [] => s
  | (r, node) :: l =>
    let g := c.group s
    let s := sendCall s (callNow s c) r node node 0 none (c.part g.size g.rank r).2
    let d := callNow s c
    if d.park.isSome ∨ d.err ≠ 0 then s else sendAll s c l

/-- The bytes of a rank from a place on, when all have come. -/
def assemble (l : List (Nat × List PByte)) : Nat → Nat → Nat → Option (List PByte)
  | 0, pos, total => if total ≤ pos then some [] else none
  | f + 1, pos, total =>
    if total ≤ pos then some []
    else match l.find? (fun p => decide (p.1 ≤ pos) && decide (pos < p.1 + p.2.length)) with
      | none => none
      | some (o, b) => (assemble l f (o + b.length) total).map (fun r => b.drop (pos - o) ++ r)

/-- Every rank's part of the fold, in ascending rank order, when all have come. -/
def gathered (c : Call) (g : Group) : Nat → Option (List (List PByte))
  | 0 => some []
  | r + 1 =>
    let (a, n) := c.slice g.size g.rank
    let mine := c.recv.filter (fun p => p.1 == r)
    match gathered c g r, (if r = g.rank then some ((c.own.drop a).take n)
        else assemble (mine.map (fun p => (p.2.1, p.2.2))) (mine.length + 1) 0 n) with
    | some l, some b => some (l ++ [b])
    | _, _ => none

/-- The first bytes held for a move land (R331). -/
def landHeld (s : State) (c : Call) : State :=
  match c.recv with
  | [] => s
  | (r, o, b) :: l => landCall s c { c with recv := l } (c.dst + wd (c.place (c.group s).size r + o)) b

/-- The fold is done and written (R317, R318). -/
def landFold (s : State) (c : Call) (l : List (List PByte)) : State :=
  let g := c.group s
  let (b, ev, sat) := foldAll c g.size g.rank l
  let t := landCall s c { c with satf := c.satf || sat } (match c.geom with
    | some (_, d) => d.base
    | none => c.dst) b
  let d := callNow t c
  if d.park.isSome ∨ d.err ≠ 0 then t else countCv t c.party.core ev

/-- The collective status word (R315). -/
def callStatus (c : Call) (q : Word) : Word :=
  wd (q.toNat % 65536 * 2 ^ 48 + c.num.toNat % 2 ^ 24 * 2 ^ 24 + c.err * 2 ^ 16 + (if c.late then 16 else 0) +
    (if c.everPaused then 8 else 0) + (if c.pois then 4 else 0) + (if c.err ≠ 0 then 2 else 0) + 1)

/-- Codes of the checks of R314. -/
def checkCode (e : Nat) : Bool := e = 1 || e = 2 || e = 3 || e = 10 || e = 11

/-- The call ends (R314, R315): the completion object is set, the peers hear of a failure of this member's own, and
MISMATCH and ABORT are raised in the stook. An acquire of the object is a join at GROUP scope, so the core's L1 keeps no older
copy (R319, R271).
Log 75: DEDUCED. -/
def endCall (s : State) (c : Call) : State :=
  let s := callDone (invalidateL1 { s with calls := (s.calls.filter (fun d => d.id ≠ c.id)).map (fun d =>
    if d.handle = c.handle ∧ d.started = false then { d with since := s.time } else d) } c.party.core) c
  let s := if c.err = 0 ∨ c.err = 3 ∨ c.err = 4 ∨ c.err = 5 then s else tellPeers s c 8 [0]
  let s :=
    if c.toReg then
      let (q, s) := takeEseq s
      writeStatus s c.party.agent c.tag (callStatus c q)
    else if c.err = 0 then s
    else
      let n := if checkCode c.err then 0 else c.planned (c.group s).size - c.credited
      creditBar s c.party.core (pbOf c.party.k c.tag) n true
  let s := countDown s c.party.agent .cp
  if c.err = 4 then raiseImprecise s c.party.stook COLLMISMATCH 0 (c.num.setWidth 64)
  else if c.err = 5 then raiseImprecise s c.party.stook COLLABORT 0 (c.num.setWidth 64)
  else s

/-- A call whose bytes are written and sent ends, SATF of a SKREDUCE's destination being set first (R318, R319). -/
def lastStep (s : State) (c : Call) : State :=
  match c.geom with
  | some (_, d) =>
    if c.satf then callTake s c 4 (writeSatf s c.party c.id [6] d.loc d.coh true) (fun _ s => endCall s c) else endCall s c
  | none => endCall s c

/-- The next step of a started call: a move lands what it holds, a reduction folds, and the call ends when its bytes are
written and sent (R319).
Log 74: DEDUCED. -/
def runCall (s : State) (c : Call) : State :=
  let g := c.group s
  if c.folds then
    if c.credited < c.planned g.size then
      match gathered c g g.size with
      | some l => landFold s c l
      | none => s
    else if c.allSent s then lastStep s c else s
  else if c.recv ≠ [] then landHeld s c
  else if c.planned g.size ≤ c.credited ∧ c.allSent s = true then endCall s c
  else s

/-- COLLECTIVE_COMPLETE (R128, R311, R313 to R319): the engine's next step for a call, up to its completion object. Event data:
id; list: the sectors of what lands, by place, that land later. -/
def execCollectiveComplete (s : State) : Out :=
  match s.calls.find? (fun c => c.id == s.inp.a.headD 0) with
  | none => .next s
  | some c =>
    if (findStook s c.party.stook).isNone ∨ edgeDone s c.party = false then .next s
    else if c.todo ≠ [] then .next (landCallRest s c)
    else match unpark s c.park with
      | .wait => .next s
      | .fatal s => .next (failCall s c 6)
      | .go s =>
        let c := { c with park := none }
        let s := putCall s c
        if c.op = 5 ∧ c.geom = none ∧ (c.err = 0 ∨ c.err = 11) then .next (readGeom s c)
        else if c.err ≠ 0 then .next (endCall s c)
        else if c.announced = false ∧ c.op ≠ 5 then .next (announce s c)
        else if c.matched s = false ∨ c.isHead s = false ∨ c.paused.isSome = true then .next s
        else if c.started then
          .next (if c.timed = false ∧ c.allSent s = false then sendAll s c (c.peers s) else runCall s c)
        else match c.timed, c.starting with
          | true, none => .next (if c.folds = false ∧ c.recv ≠ [] then landHeld s c else s)
          | true, some late => .next (startCall s c late)
          | false, _ => .next (startCall s c false)

/-! ### Packets of other members (R307, R316, R326, R327, R331) -/

/-- A packet of a collective that the switch's or this device's table does not accept is dropped and logged in the bank of the port pair
that carried it (R307). -/
def dropPacket (s : State) (port src : Nat) : State := logOpen s (112 + port / 2) 7 2 (Config.fabricAddr port src)

/-- The rank of a node in a handle's group. -/
def memberRank (s : State) (grp : BitVec 16) (node : Nat) : Nat :=
  (((groupFor s grp).map (·.nodes)).getD []).idxOf node

/-- The call with a handle and number. -/
def callBy (s : State) (grp : BitVec 16) (num : Nat) : Option Call :=
  s.calls.find? (fun c => c.handle == grp && c.num.toNat == num)

/-- FIRST_PACKET (R316): a member's first packet. Event data: source node, port; list: job key, handle, number, OP, WFMT, ET,
ROP, COUNT, ROOT, and for SKREDUCE the geometry. -/
def execFirstPacket (s : State) : Out :=
  let src := s.inp.a.headD 0
  let h := s.inp.data
  let g := fun n => h.getD n 0
  let grp := BitVec.ofNat 16 (g 1)
  if packetOk s (s.inp.a.getD 1 0) src (wd (g 0)) grp = false then .next (dropPacket s (s.inp.a.getD 1 0) src)
  else
    let rank := memberRank s grp src
    match callBy s grp (g 2) with
    | some c =>
      if c.announced then .next (takeFirst s c rank (h.drop 3))
      else .next { s with early := s.early ++ [⟨grp, BitVec.ofNat 32 (g 2), rank, false, h.drop 3⟩] }
    | none =>
      if notIssued s grp.toNat (g 2) then
        .next { s with early := s.early ++ [⟨grp, BitVec.ofNat 32 (g 2), rank, false, h.drop 3⟩] }
      else .next s

/-- COLLECTIVE_ABORT (R314, R316, R327): a call issued and not completed ends, and a number not yet issued is skipped. Event
data: source node, port, job key, handle, number, and 1 where the packets disagreed.
Log 82: DEDUCED. -/
def execCollectiveAbort (s : State) : Out :=
  let g := fun n => s.inp.a.getD n 0
  let grp := BitVec.ofNat 16 (g 3)
  if packetOk s (g 1) (g 0) (wd (g 2)) grp = false then .next (dropPacket s (g 1) (g 0))
  else match callBy s grp (g 4) with
    | some c => .next (if c.err = 0 then failCall s c (if g 5 = 1 then 4 else 5) else s)
    | none =>
      if notIssued s grp.toNat (g 4) then
        .next { s with skipped := (grp.toNat, g 4) :: s.skipped,
                       early := s.early.filter (fun e => e.handle ≠ grp || e.num.toNat ≠ g 4) }
      else .next s

/-- PAUSE (R326). Event data: source node, port, job key, handle, number. -/
def execPause (s : State) : Out :=
  let g := fun n => s.inp.a.getD n 0
  let grp := BitVec.ofNat 16 (g 3)
  if packetOk s (g 1) (g 0) (wd (g 2)) grp = false then .next (dropPacket s (g 1) (g 0))
  else match callBy s grp (g 4) with
    | some c => .next (putCall s (holdCall s c))
    | none =>
      if notIssued s grp.toNat (g 4) then
        .next { s with early := s.early ++ [⟨grp, BitVec.ofNat 32 (g 4), memberRank s grp (g 0), true, [s.time]⟩] }
      else .next s

/-- RESUME (R326). Event data: source node, port, job key, handle, number. -/
def execResume (s : State) : Out :=
  let g := fun n => s.inp.a.getD n 0
  let grp := BitVec.ofNat 16 (g 3)
  if packetOk s (g 1) (g 0) (wd (g 2)) grp = false then .next (dropPacket s (g 1) (g 0))
  else match callBy s grp (g 4) with
    | some c => .next (if (findStook s c.party.stook).isSome then putCall s (freeCall s c) else s)
    | none => .next { s with early := s.early.filter (fun e => e.handle ≠ grp || e.num.toNat ≠ g 4 || !e.pause) }

/-- PAUSE_QUOTA_RELEASE (R326): after two full rotations paused, the call's use of its quota is released. Event data: id. -/
def execPauseQuotaRelease (s : State) : Out :=
  match s.calls.find? (fun c => c.id == s.inp.a.headD 0) with
  | none => .next s
  | some c =>
    match c.paused with
    | some t => .next (if c.timed = true ∧ t + 2 * rotationNs s.grat ≤ s.time then putCall s { c with released := true } else s)
    | none => .next s

/-- PAUSE_BUDGET_EXPIRE (R327): the pause timer reaches PBUDGET; every member is sent ABORT. Event data: id. -/
def execPauseBudgetExpire (s : State) : Out :=
  match s.calls.find? (fun c => c.id == s.inp.a.headD 0) with
  | none => .next s
  | some c =>
    match c.paused with
    | some t =>
      let b := (c.group s).pbudget
      .next (if b ≠ 0 ∧ t + 1000 * b ≤ s.time ∧ c.err = 0 then failCall (tellPeers s c 8 [0]) c 5 else s)
    | none => .next s

/-- The bytes of a packet with their poison. -/
def packetBytes (data tags : List Nat) : List PByte :=
  (List.range data.length).map (fun i => (BitVec.ofNat 8 (data.getD i 0), tagIn (tags.getD i 0)))

/-- COLLECTIVE_CONTRIBUTION (R293, R317, R324, R331): data of another member, held until the call is matched; or data to relay, which
stays where it is while no buffer is free for the slot of its next hop.
Log 110: DESIGN CHOICE.
Event data: source node, port; lists: job key, handle, number, place, SATF, destination node, slot of the second hop; the
bytes; and their poison (0 none, tag + 1). -/
def execCollectiveContribution (s : State) : Out :=
  let src := s.inp.a.headD 0
  let port := s.inp.a.getD 1 0
  -- the list of data is the seven header numbers, then the bytes
  let h := s.inp.data
  let g := fun n => h.getD n 0
  let grp := BitVec.ofNat 16 (g 1)
  if packetOk s port src (wd (g 0)) grp = false then .next (dropPacket s port src)
  else
    let bs := packetBytes (h.drop 7) s.inp.tags
    if g 5 ≠ s.node then
      if Config.relayBuffers (g 6) < (s.relays.filter (fun r => r.slot = g 6)).length then .next s
      else .next { s with relays := s.relays ++ [⟨g 5, g 6, src :: h.take 7 ++ wireWords bs⟩] }
    else match callBy s grp (g 2) with
      | none => .next s
      | some c =>
        let grpE := c.group s
        let r := memberRank s grp src
        if c.err ≠ 0 ∨ r = grpE.rank ∨ (c.part grpE.size r grpE.rank).2 < g 3 + bs.length then .next s
        else .next (putCall s { c with since := if c.started then s.time else c.since, recv := c.recv ++ [(r, g 3, bs)], satf := c.satf || g 4 = 1 })

end Sys2Proof.Machine
end

