-- ==== Sys2Proof/Machine/Hierarchy.lean ====
section
/-!
DEFINITION. Stooks on their cores (22 R336 to R347, 23 R365 to R368): admission, the active and pending sets, the end of
a stook, and pre-emption at safe points (25 R381, R378).
-/
namespace Sys2Proof.Machine

open Sys2Proof

/-! ### Admission (R337, R338, R345, R412) -/

/-- A sheaf at stook start (R337), or as it goes on after a pre-emption at safe points (R381 step 4). -/
def startSheaf (s : State) (id stook core slotNo hx1 : Nat) (r : Rec) (k : Kernel) : Agent :=
  let base : Agent :=
    { Agent.none with
      kind := .sheaf, id := id, stook := stook, core := core, slotNo := slotNo, hx1 := hx1, k := k,
      s := smPut 0 [] 63 r.frame, priv := k.sys,
      pri := { Slot.free with live := true, pc := k.entry, mask := allLanes k.w }, ended := false, since := s.time }
  if r.restart = [] then base
  else match r.restart.find? (fun x => x.1 == hx1) with
    | some (_, n, va) => { putSA base 60 (wd n) with pri := { base.pri with pc := va } }
    | none => { base with ended := true, pri := Slot.free }

/-- The free sheaf slots of a core, ascending. -/
def freeSlotNos (s : State) (core : Nat) : List Nat :=
  (List.range (coreSlots core)).filter (fun n => !(allAgents s).any (fun a => a.kind = .sheaf && a.core == core && a.slotNo == n))

/-- Load the bound entries that a stook declares and no resident stook of the core does (R33).
Log 69: DEDUCED. -/
def loadBounds (s : State) (core : Nat) (hdr : Header) : State :=
  hdr.bounds.foldl (fun s b =>
    if s.stooks.any (fun t => t.core == core && bit t.k.bndMask b.1) then s
    else boundPut s core b.1 ⟨b.2.1, b.2.2.1, b.2.2.2, 0⟩) s

/-- Zero a plane tile slot (R349). -/
def zeroPlane (s : State) (core t : Nat) : State :=
  let s := (List.range 10).foldl (fun s ch => zeroRange s (planeStoreLoc core (s.chmap.getD ch 0) (4096 * t)) 4096) s
  zeroRange s (sramLoc core (0x77000 + 576 * t)) 576

/-- Barriers, tiles and plane tile slots at stook start (R249, R199, R349). -/
def startResources (s : State) (core : Nat) (k : Kernel) : State :=
  let s := (List.range k.nBar).foldl (fun s i => barPut s core (k.barBase + i) ⟨BitVec.ofNat 16 k.nSheaf, 0, 0, false, 0, true⟩) s
  let s := k.tiles.foldl (fun s t => tilePut s core t (Tile.clear 0)) s
  (List.range k.planeN).foldl (fun s i => zeroPlane s core (k.planeT0 + i)) s

/-- The sheaves of a stook as it starts. -/
def startSheaves (s : State) (stook core : Nat) (r : Rec) (k : Kernel) : List Nat → List Nat → State
  | j :: js, n :: ns =>
    let (id, s) := freshId s
    startSheaves { s with agents := s.agents ++ [startSheaf s id stook core n j r k] } stook core r k js ns
  | _, _ => s

/-- Admit one placed stook; its first instruction follows what made it run (R364, R276), so no older copy is left in its core's
L1. -/
def admitStook (s : State) (core : Nat) (r : Rec) (k : Kernel) : State :=
  let s := match launchOf s r.pool with
    | some l => loadBounds s core l.hdr
    | none => s
  let (id, s) := freshId (startResources s core k)
  let s := { invalidateL1 s core with stooks := s.stooks ++ [⟨id, core, k, r, [], 0, none, ⟨0, 0, 0, 0, false⟩, [], false, none⟩] }
  startSheaves s id core r k (List.range k.nSheaf) (freeSlotNos s core)

/-- The head of a cluster's highest non-empty priority (R345). -/
def headRec (s : State) (g : Nat) : Option Rec :=
  let q := s.recQ.filter (fun r => r.cluster == g)
  let top := q.foldl (fun m r => max m r.prio) 0
  q.find? (fun r => r.prio == top)

/-- Records by stook index. -/
def insRec (a : Rec) : List Rec → List Rec
  | [] => [a]
  | b :: r => if a.index ≤ b.index then a :: b :: r else b :: insRec a r

/-- The records admitted with the head of a cluster (R342, R343, R345): its gang unit; of a COOP launch all of them, once the
launch is at the head in every cluster that queues some.
Log 49: DEDUCED. -/
def headUnit (s : State) (g : Nat) : List Rec :=
  match headRec s g with
  | none => []
  | some h =>
    if h.unit = 0 then [h]
    else
      let u := s.recQ.filter (fun r => r.unit == h.unit)
      if u.all (fun r => (headRec s r.cluster).any (fun x => x.unit == h.unit)) then u.foldl (fun l r => insRec r l) [] else []

/-- RECORD_ADMIT (R338, R342, R343, R345, R409, R412): the head of a cluster's queue is admitted whole, or waits. Event data:
cluster. -/
def execRecordAdmit (s : State) : Out :=
  let g := s.inp.a.headD 0
  let u := headUnit s g
  match u with
  | [] => .next s
  | h :: _ =>
    match launchOf s h.pool with
    | none => .next s
    | some l =>
      if s.halted ∨ s.power = 2 then .next s
      else match placeStep s false h.coop l.hdr l.levels (withKernels s l u) with
        | none => .next s
        | some p =>
          let s := { s with recQ := s.recQ.filter (fun r => !u.contains r) }
          .next (p.foldl (fun s x => admitStook s x.1 x.2.1 x.2.2) s)

/-! ### The active and pending sets (R365 to R368) -/

/-- A slot is live and no trap handler of its sheaf holds it back (R372). -/
def slotOpen (a : Agent) (sec : Bool) : Bool := (getSlot a sec).live && (!masked a || (a.tslot.getLsbD 0 == sec))

/-- What a slot waits for has come (R252, R257, R104). -/
def waitDone (a : Agent) (sec : Bool) : Bool :=
  match (getSlot a sec).wait with
  | .ready => true
  | .fatal _ _ _ => true
  | _ => false

/-- A slot may issue for all it waits for. -/
def slotReady (a : Agent) (sec : Bool) : Bool := slotOpen a sec && waitDone a sec

/-- What holds a slot, where something does. -/
def stallOf (s : State) (id : Nat) (sec : Bool) : Option Stall := s.stalls.find? (fun x => x.agent == id && x.sec == sec)

/-- A slot can issue: nothing holds it, and its next instruction does not stall. -/
def slotGoes (s : State) (a : Agent) (sec : Bool) : Bool := slotReady a sec && (stallOf s a.id sec).isNone

/-- A slot is held by one of the causes of R367. -/
def slotWaits (s : State) (a : Agent) (sec : Bool) : Bool := (stallOf s a.id sec).any (·.waits)

/-- A sheaf is ready: one of its slots is not waiting (R367). -/
def sheafReady (s : State) (a : Agent) : Bool :=
  a.kind = .sheaf && !a.ended && (a.stopPt.isNone || a.saving) && [false, true].any (fun sec => slotReady a sec && !slotWaits s a sec)

/-- So many core cycles have passed since a time. -/
def cyclesSince (s : State) (t n : Nat) : Bool := decide (n * 1000 ≤ (s.time - t) * s.mhz)

/-- A sheaf has been waiting for 64 cycles (R367). -/
def longWaiting (s : State) (a : Agent) : Bool :=
  [false, true].all (fun sec => !slotOpen a sec || (stallOf s a.id sec).any (fun t => t.waits && cyclesSince s t.since 64))

/-- The sheaves in a core's active set. -/
def activeOn (s : State) (core : Nat) : List Agent := (allAgents s).filter (fun a => a.kind = .sheaf && a.core == core && a.active)

/-- The first ready sheaf in a core's pending order (R365). -/
def nextPending (s : State) (core : Nat) : Option Agent :=
  ((allAgents s).filter (fun a => a.core == core && !a.active && sheafReady s a)).foldl (fun (m : Option Agent) a => match m with
    | none => some a
    | some b => some (if b.k.prio < a.k.prio ∨ (b.k.prio = a.k.prio ∧ a.since < b.since) then a else b)) none

/-- A sheaf leaves the active set. -/
def deactivate (s : State) (id : Nat) : State := updAgent s id (fun a => { a with active := false, since := s.time })

/-- A sheaf enters the active set. -/
def activate (s : State) (id : Nat) : State := updAgent s id (fun a => { a with active := true, since := s.time })

/-- SHEAF_SWAP (R367): an active sheaf that has waited for 64 cycles swaps with the first ready pending sheaf. Event data: agent. -/
def execSheafSwap (s : State) : Out :=
  match findAgent s (s.inp.a.headD 0) with
  | none => .next s
  | some a =>
    if a.kind ≠ .sheaf ∨ a.active = false ∨ a.ended = true ∨ sheafReady s a = true ∨ longWaiting s a = false then .next s
    else match nextPending s a.core with
      | none => .next s
      | some b => .next (activate (deactivate s a.id) b.id)

/-- SHEAF_DISPLACE (R368): the sheaf longest ready in the pending set, for 2,048 cycles, displaces the one longest in the
active set. Event data: core. -/
def execSheafDisplace (s : State) : Out :=
  let core := s.inp.a.headD 0
  let oldest : List Agent → Option Agent := fun l => l.foldl (fun (m : Option Agent) a => match m with
    | none => some a
    | some b => some (if a.since < b.since then a else b)) none
  match oldest ((allAgents s).filter (fun a => a.core == core && !a.active && sheafReady s a)), oldest (activeOn s core) with
  | some p, some a =>
    if cyclesSince s p.since 2048 then .next (activate (deactivate s a.id) p.id) else .next s
  | _, _ => .next s

/-! ### The end of a stook (R339, R346, R373) -/

/-- The stook's engine programs and engine operations have all ended (R339, R381); an aborted stook's paused calls end with
it (R383). -/
def enginesDone (s : State) (stook : Nat) : Bool :=
  !s.forkQ.any (fun f => f.stook == stook) &&
  !(allAgents s).any (fun a => a.stook == stook && (a.kind = .matSeq || a.kind = .copySeq) && !a.ended) &&
  !s.tileOps.any (fun o => o.party.stook == stook) && !s.copies.any (fun c => c.stook == stook) &&
  !s.cpls.any (fun c => c.party.stook == stook) && !s.skops.any (fun o => o.party.stook == stook) &&
  !s.calls.any (fun c => c.party.stook == stook && !(c.paused.isSome && ((findStook s stook).bind (·.abort)).isSome))

/-- The agents of a stook. -/
def agentsOf (s : State) (stook : Nat) : List Agent := (allAgents s).filter (fun a => a.kind ≠ .none && a.stook == stook)

/-- The loads, stores and XMEMs of a stook's agents have completed, what its engine work has formed has landed, and no lane of a
CPL and no step of a SKOP is on its way (R383, R384). -/
def accessesDone (s : State) (stook : Nat) : Bool :=
  let l := (agentsOf s stook).map (·.id)
  !s.reqs.any (fun r => l.contains r.agent) && !s.xmems.any (fun x => l.contains x.agent) &&
  !s.copies.any (fun c => c.stook == stook && !c.todo.isEmpty) && !s.calls.any (fun c => c.party.stook == stook && !c.todo.isEmpty) &&
  !s.cpls.any (fun c => c.party.stook == stook && asking s c.id) &&
  !s.skops.any (fun o => o.party.stook == stook && (o.flight || (askOf s (.op o.id [0])).isSome))

/-- Everything the stook did has ended (R339). -/
def stookQuiet (s : State) (t : Stook) : Bool :=
  (t.abort.isSome || (agentsOf s t.id).all (·.ended)) && enginesDone s t.id && accessesDone s t.id &&
  (t.abort.isSome || t.held.isEmpty)

/-- The stook's agents and resources leave the core, with what they, its calls and its dumps still asked of other nodes. -/
def removeStook (s : State) (t : Stook) : State :=
  let gone : Agent → Bool := fun a => a.kind ≠ .none && a.stook == t.id
  let s := dropAsks s (fun q => q.ofPart [2, t.id] || (agentsOf s t.id).any (fun a => q.ofAgent a.id) ||
    s.calls.any (fun c => c.party.stook == t.id && q.ofOp c.id))
  let s := { s with
    cur := if gone s.cur then Agent.none else s.cur, slot := if gone s.cur then false else s.slot,
    agents := s.agents.filter (fun a => !gone a), stooks := s.stooks.filter (fun u => u.id ≠ t.id),
    queues := s.queues.filter (fun q => q.stook ≠ t.id), calls := s.calls.filter (fun c => c.party.stook ≠ t.id),
    forkQ := s.forkQ.filter (fun f => f.stook ≠ t.id),
    barriers := smDrop s.barriers (t.core * 1024 + t.k.barBase) (t.core * 1024 + t.k.barBase + t.k.nBar) }
  (declared t.k.bndMask).foldl (fun s n =>
    if s.stooks.any (fun u => u.core == t.core && bit u.k.bndMask n) then s else boundPut s t.core n Bound.zero) s

/-- The end rule of a stook's record (R346, R357). -/
def endRule (s : State) (t : Stook) : State :=
  match launchOf s t.k.pool with
  | none => s
  | some l =>
    let l := { l with ran := l.ran + 1 }
    if l.cont then proceed (putLaunch s { l with stage := .dec }) l.pool
    else
      let p := poolGet s l.pool
      let s := poolPut (putLaunch s l) l.pool { p with left := p.left - 1 }
      if p.left = 1 then proceed (completeLaunch s l 0) l.pool else s

/-- An abort ends what can no longer finish: programs not started, and copies that no slice will close (R373, R383). -/
def abandon (s : State) (t : Stook) : State :=
  let s := { s with forkQ := s.forkQ.filter (fun f => f.stook ≠ t.id),
                    copies := s.copies.filter (fun c => c.stook ≠ t.id || c.order ≠ 0) }
  mapAgents (pauseCalls s t.id) (fun a =>
    if a.stook = t.id ∧ (a.kind = .matSeq ∨ a.kind = .copySeq) then { a with ended := true, pri := Slot.free } else a)

/-- STOOK_END (R339, R346, R373): the stook's resources are released and its record's end rule applies; an aborted stook
writes its dumps first. Event data: stook. -/
def execStookEnd (s : State) : Out :=
  match findStook s (s.inp.a.headD 0) with
  | none => .next s
  | some t =>
    let s := if t.abort.isSome then abandon s t else s
    if stookQuiet s t = false ∨ t.pre.stage = 3 then .next s
    else
      let s := if t.abort.isSome then dumpStook s t 1 0 else s
      if t.abort.isSome = true ∧ dumpsDone s t.id = false then .next s
      else .next (endRule (removeStook s t) t)

/-! ### Pre-emption at safe points (R381) -/

/-- The resident stooks pre-empted together with one: its gang unit, or its COOP launch (R381). -/
def unitStooks (s : State) (t : Stook) : List Stook :=
  if t.record.unit = 0 then [t] else s.stooks.filter (fun u => u.record.unit == t.record.unit)

/-- No XMEM of a stook's agents is in flight. -/
def xmemsDone (s : State) (stook : Nat) : Bool := !s.xmems.any (fun x => (agentsOf s stook).any (fun a => a.id == x.agent))

/-- Every sheaf of a stook has stopped or ended, and its engine work and XMEMs are done (R381 step 1). -/
def stoppedAll (s : State) (t : Stook) : Bool :=
  (sheavesOf s t.id).all (fun a => a.ended || a.stopPt.isSome) && enginesDone s t.id && xmemsDone s t.id

/-- The save and restore VAs of the safe points that a stook's sheaves stopped at: (HX.1, point, save, restore).
Log 68: DEDUCED. -/
def readSafe (t : Stook) : List Agent → State → PRes (List (Nat × Nat × Word × Word))
  | [], s => .ok [] s
  | a :: r, s =>
    match a.stopPt with
    | none => readSafe t r s
    | some n =>
      match partRead s (stookWho t) (t.k.safeTab + wd (16 * n)) 16 with
      | .bad x k l e => .bad x k l e
      | .perm s => .perm s
      | .wait s => .wait s
      | .ok x s =>
        match readSafe t r s with
        | .ok l s => .ok ((a.hx1, n, wd (fld x 63 0), wd (fld x 127 64)) :: l) s
        | q => q

/-- The live slot of a stopped sheaf goes to its save routine (R381 step 2). -/
def toSave (a : Agent) (va : Word) : Agent :=
  let sec := !a.pri.live
  putSlot { a with saving := true } sec { getSlot a sec with pc := va, wait := .ready }

/-- The save routines of a stook start. -/
def startSave (s : State) (t : Stook) : State :=
  match readSafe t ((sheavesOf s t.id).filter (fun a => !a.ended)) s with
  | .ok l s =>
    let s := l.foldl (fun s x => mapAgents s (fun a =>
      if a.kind = .sheaf ∧ a.stook = t.id ∧ a.hx1 = x.1 then toSave a x.2.2.1 else a)) s
    updStook (partDone s [2, t.id]) t.id (fun t =>
      { t with pre := { t.pre with stage := 2, begun := true }, record := { t.record with restart := l.map (fun x => (x.1, x.2.1, x.2.2.2)) } })
  | .bad _ _ _ _ => s
  | .perm s => s
  | .wait s => s

/-- Every save routine of a stook has yielded (R381 step 3). -/
def savedAll (s : State) (t : Stook) : Bool :=
  (sheavesOf s t.id).all (fun a => a.ended || !a.saving) && accessesDone s t.id && enginesDone s t.id && t.held.isEmpty

/-- The stook leaves the core, and its record returns to the head of its cluster's queue (R381 step 3). A stook whose
sheaves have all ended ends under R339. -/
def leaveStook (s : State) (t : Stook) : State :=
  let live := (sheavesOf s t.id).filter (fun a => !a.ended)
  let r : Rec := { t.record with restart := t.record.restart.filter (fun x => live.any (fun a => a.hx1 == x.1)) }
  if r.restart = [] then updStook s t.id (fun t => { t with pre := ⟨0, 0, 0, 0, false⟩ })
  else
    let s := removeStook s t
    { s with recQ := r :: s.recQ }

/-- A pre-emption request goes on: routines start when all have stopped, and the unit leaves when all have yielded. -/
def preemptGo (s : State) (stook : Nat) : State :=
  match findStook s stook with
  | none => s
  | some t =>
    let u := unitStooks s t
    if u.any (fun t => t.pre.stage = 1) && u.all (fun t => (t.pre.stage = 1 && stoppedAll s t) || t.pre.stage = 2) then
      (u.filter (fun t => t.pre.stage = 1)).foldl startSave s
    else if u.all (fun t => t.pre.stage = 2 && savedAll s t) then u.reverse.foldl leaveStook s
    else s

/-- PREEMPT_REQUEST (R381, R386): the request, and its going on. Event data: stook, the bulk buffer's VA, and the deadline in ns that
the firmware sets (0: as it is); list: the buffers' VAs of the unit's stooks, one each, where it has several. -/
def execPreemptRequest (s : State) : Out :=
  match findStook s (s.inp.a.headD 0) with
  | none => .next s
  | some t =>
    let u := (unitStooks s t).map (·.id)
    let s := if t.pre.stage = 0 ∧ t.abort.isNone = true then
        { s with
          deadline := if s.inp.a.getD 2 0 = 0 then s.deadline else s.inp.a.getD 2 0,
          stooks := s.stooks.map (fun t => if u.contains t.id then
            { t with pre := ⟨1, s.time, wd (s.inp.data.getD (u.idxOf t.id) (s.inp.a.getD 1 0)), 0, false⟩ } else t) }
      else s
    .next (preemptGo s t.id)

/-- YIELD (R378): it ends a save routine, or swaps the sheaf with the first ready pending one, or is a NOP. -/
def execYield (s : State) : Out :=
  run .yield {} (fun s =>
    let a := s.cur
    let s := advance s
    if a.saving then .done (preemptGo (onCur s (fun a => { a with saving := false })) a.stook)
    else match nextPending s a.core with
      | none => .done s
      | some b => .done (activate (deactivate s a.id) b.id)) s

end Sys2Proof.Machine
end

