-- ==== Sys2Proof/Machine/Faults.lean ====
section
/-!
DEFINITION. The answers to recorded faults (04 R104, R105) and the delivery of imprecise traps (25 R374).
-/
namespace Sys2Proof.Machine

open Sys2Proof

/-! ### The fault ring (R105) -/

/-- A record was retired by a write from index `lo` on, of `n` records. -/
def retiredBy (lo : BitVec 32) (n : Nat) (f : FaultRec) : Bool :=
  match f.idx with
  | some i => decide ((i - lo).toNat < n)
  | none => false

/-- FRESP_WRITE (R105): records are retired as resolved or fatal, and held ones are appended. Event data: context, the
64-bit value.
Log 52: DEDUCED. -/
def execFrespWrite (s : State) : Out :=
  let ctx := s.inp.a.headD 0
  let v := wd (s.inp.a.getD 1 0)
  let r := ringOf s ctx
  let resp : BitVec 32 := v.setWidth 32
  let n := (resp - r.fcons).toNat
  if (smGet none s.ctxs ctx).isNone ∨ bits v 63 33 ≠ 0 ∨ (r.fprod - r.fcons).toNat < n then .next s
  else
    let fate := if v.getLsbD 32 then 2 else 1
    let s := { s with faults := s.faults.map (fun (f : FaultRec) =>
      if f.ctx = ctx ∧ f.fate = 0 ∧ retiredBy r.fcons n f = true then { f with fate := fate } else f) }
    .next (appendFaults (putRing s ctx { r with fcons := resp, since := s.time }) ctx)

/-- A slot that was parked at a record goes on: its instruction issues again, or traps XLATE (R104). -/
def unparkSlot (f : FaultRec) (x : Slot) : Slot :=
  if x.wait = .parked f.id then { x with wait := if f.fate = 2 then .fatal f.va f.tinfo f.mask else .ready } else x

/-- The agent is pre-empted hard (R382). -/
def suspendedAgent (s : State) (id : Nat) : Bool := s.suspended.any (fun p => p.agents.any (fun a => a.id == id))

/-- FAULT_REPLAY (R104, R382): a slot parked at a retired record goes on; engines resume at their own steps. Event data: the
record's number. -/
def execFaultReplay (s : State) : Out :=
  match s.faults.find? (fun f => f.id == s.inp.a.headD 0) with
  | none => .next s
  | some f =>
    match f.owner with
    | .op _ => .next s
    | .slot a _ =>
      if f.fate = 0 ∨ suspendedAgent s a = true then .next s
      else .next (updAgent (dropFault s f.id) a (fun a => { a with pri := unparkSlot f a.pri, sec := unparkSlot f a.sec }))

/-- 100 microseconds (R105). -/
def ringPeriod : Nat := 100000

/-- FAULT_DOORBELL_REPEAT (R105): unretired records remain and nothing has been written for 100 us. Event data: context. -/
def execFaultDoorbellRepeat (s : State) : Out :=
  let ctx := s.inp.a.headD 0
  let r := ringOf s ctx
  match smGet none s.ctxs ctx with
  | none => .next s
  | some c =>
    if r.fprod = r.fcons ∨ s.time < r.since + ringPeriod then .next s
    else .next (raiseMsi (putRing s ctx { r with since := s.time }) c.fvec)

/-- FAULT_RING_RETRY (R105): a failed record write is tried again after 100 us. Event data: context.
Log 83: DEDUCED. -/
def execFaultRingRetry (s : State) : Out :=
  let ctx := s.inp.a.headD 0
  let r := ringOf s ctx
  if r.failing = false ∨ s.time < r.tried + ringPeriod then .next s else .next (appendFaults s ctx)

/-! ### Imprecise traps (R374) -/

/-- The live sheaf of lowest HX.1 of a stook. -/
def firstLive (s : State) (stook : Nat) : Option Agent :=
  ((sheavesOf s stook).filter (fun a => !a.ended)).foldl (fun (m : Option Agent) a => match m with
    | none => some a
    | some b => some (if a.hx1 < b.hx1 then a else b)) none

/-- The slot is at an instruction boundary.
Log 44: DEDUCED. -/
def atBoundary (s : State) (a : Agent) (sec : Bool) : Bool :=
  (getSlot a sec).wait = .ready && (a.stopPt.isNone || a.saving) && !masked a && !s.halted

/-- IMPRECISE_TRAP_DELIVERY (R374, R372, R373): the oldest held trap of a stook is delivered. Event data: stook.
Log 78: DEDUCED. -/
def execImpreciseTrapDelivery (s : State) : Out :=
  match findStook s (s.inp.a.headD 0) with
  | none => .next s
  | some t =>
    match t.held with
    | [] => .next s
    | h :: r =>
      if t.abort.isSome = true ∨ t.pre.stage = 3 then .next s
      else
        let gone := updStook s t.id (fun t => { t with held := r })
        match firstLive s t.id with
        | none => .next (abortStook gone t.id t.core 0 h.cause h.eseq)
        | some a =>
          let sec := !a.pri.live
          if atBoundary s a sec = false then .next s
          else
            let info : TrapInfo := ⟨h.cause, (getSlot a sec).pc, h.taddr, h.tinfo, 0⟩
            if a.thnd = 0 then
              .next (abortStook (updAgent gone a.id (fun a => writeTrapRegs a sec true info h.eseq)) t.id a.core a.slotNo h.cause h.eseq)
            else .next (updAgent (forgetAsks gone a.id sec) a.id (fun a => enterTrap a sec true info h.eseq))

end Sys2Proof.Machine
end

