-- ==== Sys2Proof/Machine/Graticule.lean ====
section
/-!
DEFINITION. The graticule (18 R323 to R325, R329, R330): slot occurrences, and the tables that the fabric manager writes (R308,
R323).
-/
namespace Sys2Proof.Machine

open Sys2Proof

/-! ### The tables (R308, R323) -/

/-- A group table entry from its 24 doublewords (R308). -/
def groupOf192 (w : List Nat) : Group :=
  let g := fun n => w.getD n 0
  let size := fld (g 1) 31 24
  { jobkey := wd (g 0), rank := fld (g 1) 22 16, valid := fld (g 1) 23 23 = 1, size := size,
    cseq := BitVec.ofNat 32 (fld (g 1) 63 32), winBase := fld (g 2) 55 0, winLen := fld (g 3) 39 0, pbudget := fld (g 4) 31 0,
    nodes := (List.range size).map (fun r => fld (g (8 + r / 8)) (8 * (r % 8) + 7) (8 * (r % 8))) }

/-- GROUP_TABLE_WRITE (R308). Event data: handle; list: the entry's 24 doublewords. -/
def execGroupTableWrite (s : State) : Out :=
  let h := s.inp.a.headD 0 % 65536
  if h = 0 then .next s
  else .next { s with groups := smPut none s.groups h (some (groupOf192 s.inp.data)) }

/-- A quota entry as it is kept: its reserved bits read zero (R5, R323). -/
def quotaKept (e : Nat) : Nat := e % 2 ^ 128 - fld e 35 32 * 2 ^ 32

/-- GRATICULE_WRITE (R323). Event data: list: NSLOT, WIDTH, EPOCH, then NSLOT slot entries and the quota entries as 128-bit
numbers. -/
def execGraticuleWrite (s : State) : Out :=
  let d := s.inp.data
  let n := min 64 (d.headD 0)
  .next { s with
    slotAt := 0, slotSent := false,
    grat := ⟨n, d.getD 1 0 % 4, d.getD 2 0, ((d.drop 3).take n).map (fun e => (List.range 16).map (fun q => fld e (8 * q + 7) (8 * q))),
             (d.drop (3 + n)).map quotaKept⟩ }

/-! ### Slot occurrences (R323 to R325, R329, R330) -/

/-- The planned occurrence of a timed call (R324): the first start of its slot at or after T.
Log 73: DEDUCED. -/
def planned0 (s : State) (c : Call) : Nat :=
  let first := s.grat.epoch + c.f 261 256 % s.grat.nslot * widthNs s.grat
  let t := c.f 255 192
  if t ≤ first then first else first + (t - first + rotationNs s.grat - 1) / rotationNs s.grat * rotationNs s.grat

/-- A timed call may start or send in the occurrence that began at `start` (R311, R316, R322, R326). -/
def mayGo (s : State) (c : Call) (start : Nat) : Bool :=
  c.timed && c.err = 0 && c.park.isNone && c.paused.isNone && decide (c.rotEnd ≤ start) && s.sync = 1 && c.matched s &&
  c.isHead s && edgeDone s c.party && (findStook s c.party.stook).isSome && (c.op ≠ 5 || c.geom.isSome)

/-- The timed calls whose slot begins start, of those that could when it began (R324, R325). -/
def startTimed (s : State) (start slot : Nat) : State :=
  (s.calls.filter (fun c => !c.started && c.starting.isNone && mayGo s c start && decide (c.since ≤ start) &&
    decide (s.syncAt ≤ start) && c.f 261 256 % s.grat.nslot = slot && decide (planned0 s c ≤ start))).foldl (fun s c => startCall s c (decide (planned0 s c < start))) s

/-- Some rotor core matches this device to a node in a slot, on a port that is up. -/
def matchedWith (s : State) (slot node : Nat) : Bool := (rotorPort s slot node).isSome

/-- The calls of a job that share a quota entry, in number order (R324). -/
def insNum (a : Call) : List Call → List Call
  | [] => [a]
  | b :: r => if b.num.toNat ≤ a.num.toNat then b :: insNum a r else a :: b :: r

/-- The rank of a destination in a call's group. -/
def rankAt (s : State) (c : Call) (node : Nat) : Option (Nat × Nat) := (c.peers s).find? (fun p => p.2 == node)

/-- One call's turn at a quota entry: it sends, or a paused call that has not released its use takes its share of the
quota unsent (R326). -/
def turn (start slot dest via vslot : Nat) (a : State × Nat) (c : Call) : State × Nat :=
  let (s, left) := a
  let c := callNow s c
  match rankAt s c dest with
  | none => a
  | some (r, _) =>
    let g := c.group s
    let due := min left ((c.part g.size g.rank r).2 - c.sentTo r)
    if c.started = false then a
    else if mayGo s c start then
      let t := sendCall s c r dest via vslot (rotorPort s slot via) left
      (t, left - ((callNow t c).sentTo r - c.sentTo r))
    else if c.paused.isSome = true ∧ c.released = false then (s, left - due)
    else a

/-- The bytes of a job for a destination that still wait to leave by a first hop in a slot, under QUOTA of the occurrence that they
leave in (R324). -/
def queuedFor (s : State) (job : Word) (dest via vslot : Nat) : Nat :=
  ((s.sent.filter (fun q => q.kind = 7 && decide (16 ≤ q.port) && q.key == job && q.words.getD 5 0 == dest && q.dst == via &&
    q.words.getD 6 0 == vslot)).map (fun q => (q.words.length - 7) / 2)).sum

/-- One quota entry in an occurrence (R324, R330). -/
def useQuota (s : State) (start slot : Nat) (e : Nat) : State :=
  let (job, dest, via, sl, vslot, quota) := quotaEntry e
  if sl ≠ slot ∨ matchedWith s slot via = false then s
  else
    let l := ((s.calls.filter (fun c => c.timed && c.party.k.jobkey == job)).foldl (fun l c => insNum c l) [])
    (l.foldl (turn start slot dest via vslot) (s, quota - queuedFor s job dest via vslot)).1

/-- The relays whose second hop this slot is go on (R324). -/
def forward (s : State) (slot : Nat) : State :=
  let go : Relay → Bool := fun r => r.slot = slot && matchedWith s slot r.dst
  if s.sync = 1 then
    (s.relays.filter go).foldl (fun s r =>
        postAt s (wd (r.words.getD 1 0), BitVec.ofNat 16 (r.words.getD 2 0)) 11 r.dst ((rotorPort s slot r.dst).getD 32)
          ((r.words.length - 8) / 2) none r.words)
      { s with relays := s.relays.filter (fun r => !go r) }
  else s

/-- SLOT_OCCURRENCE (R323 to R325, R329, R330): a slot begins, and after its guard data leaves. Event data: slot. -/
def execSlotOccurrence (s : State) : Out :=
  match occNow s with
  | none => .next s
  | some (start, slot) =>
    if slot ≠ s.inp.a.headD 0 then .next s
    else
      let s := if s.slotAt = start + 1 then s else startTimed { s with slotAt := start + 1, slotSent := false } start slot
      if s.slotSent = true ∨ s.time < start + 800 then .next s
      else .next (forward (s.grat.quota.foldl (fun s e => useQuota s start slot e) { s with slotSent := true }) slot)

end Sys2Proof.Machine
end

