-- ==== Sys2Proof/Machine/System.lean ====
section
/-!
DEFINITION. The mode and the control registers (02 R28 to R33, 07 R147 to R149), translation maintenance (25 R379,
R380), the return from a trap and HALT (25 R375, R376), safe points (25 R381), EPOCH and QUIESCE (04 R107) and the pin
directory's release (04 R97, R106).
-/
namespace Sys2Proof.Machine

open Sys2Proof

/-! ### MODE, NOP and CLK -/

/-- MODE (R147): a reserved ET or RM code is ILLEGAL. -/
def execMode (m : Nat) (s : State) : Out :=
  run (.mode m) {} (fun s =>
    if okMode m then .done (advance (onCur s (fun a => { a with md := BitVec.ofNat 24 m })))
    else illegal s (.mode m)) s

/-- NOP (R149). -/
def execNop (s : State) : Out := run .nop {} (fun s => .done (advance s)) s

/-- CLK (R149): device time in ns. -/
def execClk (d : Nat) (s : State) : Out :=
  run (.clk d) { sw := [d] } (fun s => .done (advance (setS s d (wd s.time)))) s

/-! ### QUIESCE (R107) -/

/-- The epochs that accesses in flight hold.
Log 65: DEDUCED. -/
def stamps (s : State) : List (BitVec 32) :=
  s.reqs.map (·.stamp) ++
  (s.tileOps.filter (fun o => match o.kind with
    | .mma _ _ _ _ => true
    | .adrn _ _ _ _ _ d => decide (0 < d.next)
    | _ => false)).map (fun o => o.party.stamp) ++
  (s.copies.filter (fun c => !c.fresh)).flatMap (fun c => c.slices.map (fun x => x.party.stamp)) ++
  s.cpls.map (fun c => c.party.stamp) ++
  s.skops.map (fun o => o.party.stamp) ++
  (s.calls.filter (fun c => c.started || !c.todo.isEmpty)).map (fun c => c.party.stamp) ++
  s.xmems.map (·.stamp) ++ (s.asks.filter (fun a => a.val.isNone)).map (·.stamp)

/-- QUIESCE.DRAIN (R107): the oldest epoch in flight. -/
def drainEpoch (s : State) : BitVec 32 :=
  s.epoch - BitVec.ofNat 32 ((stamps s).foldl (fun m e => max m (s.epoch - e).toNat) 0)

/-! ### Control registers (R31) -/

/-- The register is SRW or SRO (R31). -/
def cregSys (c : Nat) : Bool :=
  (0x030 ≤ c && c ≤ 0x037) || c = 0x200 || c = 0x201 || (0x400 ≤ c && c ≤ 0x48F) ||
  (0x1000 ≤ c && c ≤ 0x13FF) || (0x1800 ≤ c && c ≤ 0x1BFF)

/-- An MFC of the register waits for the sheaf's vector events (R148). -/
def cregWaits (c : Nat) : Bool := c = 1 || c = 2 || c = 0x220 || c = 0x221

/-- A vector instruction of the agent in focus has not completed (R126, R148): a request of one is in flight, or the other slot
is parked in one. -/
def vectorPending (s : State) : Bool :=
  s.reqs.any (fun r => r.agent == s.cur.id && r.vec) ||
  s.faults.any (fun f => f.owner == .slot s.cur.id (!s.slot) && f.mask ≠ 0)

/-- A resident stook of the core declares the bound entry (R33). -/
def boundDeclared (s : State) (core n : Nat) : Bool := s.stooks.any (fun t => t.core == core && bit t.k.bndMask n)

/-- BERR.j of the issuing stook (R261). -/
def berr (s : State) (j : Nat) : Word :=
  maskOf 64 (fun i => decide (64 * j + i < s.cur.k.nBar) && (barGet s s.cur.core (pbOf s.cur.k (64 * j + i))).err)

/-- A link register (R296). -/
def readLink (x : Port) (o : Nat) : Word :=
  match o with
  | 0 => x.ctl
  | 1 => x.stat
  | 2 => x.park.setWidth 64
  | 3 => x.qthr.setWidth 64
  | 4 => x.thr.setWidth 64
  | 5 => wd ((List.range 8).foldl (fun w k => w + x.rtcnt.getD k 0 % 256 * 256 ^ k) 0)
  | 6 => x.fecUnc ++ x.fecCor
  | 7 => x.rxCount ++ x.txCount
  | n => wd (x.ber.getD (n - 8) 0)

/-- WCNT of a bank (R389): the highest count of a row-group, the count of a die, or the highest count of retrains of a
wavelength. -/
def wcnt (s : State) (u : Nat) : Word :=
  if 96 ≤ u ∧ u ≤ 106 then wd (smGet 0 s.dieWin (u - 96))
  else wd ((s.rowWin.filter (fun p => p.1 / 2 ^ 40 == u)).foldl (fun m p => max m p.2) 0)

/-- A word of an error-record bank (R389). -/
def readBank (s : State) (u o : Nat) : Word :=
  let b := smGet Bank.empty s.banks u
  match o with
  | 0 => wd (b.count.toNat * 2 ^ 48 + b.ovf.toNat * 2 ^ 40 + b.gen.toNat * 2 ^ 35 + b.sev * 2 ^ 32 + b.kind * 2 ^ 24)
  | 1 => b.addr
  | 2 => b.synd
  | 3 => b.reseq
  | 4 => smGet 0 s.wcfg u
  | _ => wcnt (rollWin s u) u

/-- WHO (R31). -/
def whoWord (a : Agent) : Word := wd (a.core + clusterOf a.core * 2 ^ 7 + a.slotNo * 2 ^ 11)

/-- HX.n (R341). -/
def hxOf (a : Agent) (n : Nat) : Word := if n = 1 then wd a.hx1 else wd (a.k.hx.getD n 0)

/-- A word of the bound table (R232). -/
def readBound (b : Bound) (o : Nat) : Word :=
  match o with
  | 0 => b.lo
  | 1 => b.hi
  | 2 => wd b.act
  | _ => b.cnt.setWidth 64

/-- A control register of the agent in focus (R31). -/
def readCreg (s : State) (c : Nat) : Word :=
  let a := s.cur
  match c with
  | 0x000 => a.md.setWidth 64
  | 0x001 => a.sstat.setWidth 64
  | 0x002 => a.divmask
  | 0x003 => whoWord a
  | 0x020 => a.srkey
  | 0x021 => a.srseq
  | 0x022 => a.k.grp.setWidth 64
  | 0x023 => a.k.jobkey
  | 0x024 => a.rngstream
  | 0x030 => a.tcause
  | 0x031 => a.tpc
  | 0x032 => a.taddr
  | 0x033 => a.tinfo
  | 0x034 => a.tmask
  | 0x035 => a.tslot
  | 0x036 => a.thnd
  | 0x037 => a.tseq
  | 0x200 => s.chcon
  | 0x201 => wd (chmapWord s.chmap)
  | 0x220 => smGet 0 s.mxstat a.core
  | 0x221 => smGet 0 s.cvstat a.core
  | 0x1C00 => drainEpoch s ++ s.epoch
  | 0x1C01 => s.eseq
  | _ =>
    if c < 0x018 then hxOf a (c - 0x010)
    else if c < 0x020 then wd (a.k.hn.getD (c - 0x018) 1)
    else if c < 0x200 then readBound (boundGet s a.core ((c - 0x100) / 4)) (c % 4)
    else if c < 0x21B then (smGet 0 s.chcnt (c - 0x210)).setWidth 64
    else if c < 0x480 then
      (if c % 2 = 0 then queueWord (queueOf s a.stook ((c - 0x400) / 2))
       else ((queueOf s a.stook ((c - 0x400) / 2)).map (·.base)).getD 0)
    else if c < 0x490 then berr s (c - 0x480)
    else if c < 0x1400 then readLink (portNow s ((c - 0x1000) / 32)) (c % 32)
    else readBank s ((c - 0x1800) / 8) (c % 8)

/-- MFC (R148, R31, R32). -/
def execMfc (d c : Nat) (s : State) : Out :=
  run (.mfc d c) { sw := [d], sys := cregSys c } (fun s =>
    if cregAssigned c = false then illegal s (.mfc d c)
    else if cregWaits c = true ∧ vectorPending s = true then .stall
    else .done (advance (setS s d (readCreg s c)))) s

/-- CHCON after an MTC (R225): CNT and the policies are written, the other flags cleared by ones. -/
def writeChcon (old v : Word) : Word :=
  let rw : Word := 0x000FFFF000000030
  let w1c : Word := 0xD
  (old &&& ~~~rw &&& ~~~(v &&& w1c)) ||| (v &&& rw)

/-- A word of a bound entry after an MTC (R232); reserved bits are discarded (R5). -/
def writeBound (b : Bound) (o : Nat) (v : Word) : Bound :=
  match o with
  | 0 => { b with lo := v }
  | 1 => { b with hi := v }
  | 2 => { b with act := bits v 1 0 }
  | _ => { b with cnt := v.setWidth 32 }

/-- A link register after an MTC (R296); none where no wavelength would be left (R299).
Log 62: DEDUCED. -/
def writeLink (x : Port) (now o : Nat) (v : Word) : Option Port :=
  match o with
  | 0 => some (writeCtl x now v)
  | 2 => writePark x (v.setWidth 8)
  | 3 => some { x with qthr := v.setWidth 16 }
  | 4 => some { x with thr := v.setWidth 32 }
  | n => if 8 ≤ n ∧ n < 16 then some { x with ber := setCnt x.ber (n - 8) (bits v 31 0) } else some x

/-- The fields of MXSTAT and CVSTAT: bits [63:56] are reserved and read zero (R69, R215, R5).
Log 17: DEDUCED. -/
def countFields (v : Word) : Word := v &&& wd (2 ^ 56 - 1)

/-- The register's own change, the slot going on (R31); writes to RO and SRO registers are discarded (R4).
Log 61: DEDUCED. -/
def writeCreg (s : State) (i : Instr) (c : Nat) (v : Word) : Issue :=
  let put : (Agent → Agent) → Issue := fun f => .done (advance (onCur s f))
  match c with
  | 0x000 => if okMode v.toNat then put (fun a => { a with md := v.setWidth 24 }) else illegal s i
  | 0x001 => put (fun a => { a with sstat := a.sstat &&& ~~~(v.setWidth 8) })
  | 0x002 => put (fun a => { a with divmask := v })
  | 0x020 => put (fun a => { a with srkey := v })
  | 0x021 => put (fun a => { a with srseq := v })
  | 0x024 => put (fun a => { a with rngstream := v })
  | 0x030 => put (fun a => { a with tcause := v &&& 0x1FF })
  | 0x031 => put (fun a => { a with tpc := v })
  | 0x032 => put (fun a => { a with taddr := v })
  | 0x033 => put (fun a => { a with tinfo := v })
  | 0x034 => put (fun a => { a with tmask := v })
  | 0x035 => put (fun a => { a with tslot := v &&& 0xF })
  | 0x036 => if v.toNat % 4 = 0 then put (fun a => { a with thnd := v }) else illegal s i
  | 0x037 => put (fun a => { a with tseq := v })
  | 0x200 => .done (advance { s with chcon := writeChcon s.chcon v })
  | 0x201 => writeChmap s v (word0 i)
  | 0x220 => .done (advance { s with mxstat := smPut 0 s.mxstat s.cur.core (countFields v) })
  | 0x221 => .done (advance { s with cvstat := smPut 0 s.cvstat s.cur.core (countFields v) })
  | _ =>
    if 0x100 ≤ c ∧ c < 0x200 then
      let n := (c - 0x100) / 4
      .done (advance (if boundDeclared s s.cur.core n
        then boundPut s s.cur.core n (writeBound (boundGet s s.cur.core n) (c % 4) v) else s))
    else if 0x1000 ≤ c ∧ c < 0x1400 then
      let p := (c - 0x1000) / 32
      match writeLink (portNow s p) s.time (c % 32) v with
      | some x => .done (advance (portPut s p x))
      | none => illegal s i
    else .done (advance s)

/-- MTC (R148, R31, R32). -/
def execMtc (a c : Nat) (s : State) : Out :=
  run (.mtc a c) { sr := [a], sys := cregSys c } (fun s =>
    if cregAssigned c = false then illegal s (.mtc a c) else writeCreg s (.mtc a c) c (getS s a)) s

/-! ### Returns, stops and safe points -/

/-- RFT (R375): ILLEGAL when no trap is being handled. -/
def execRft (s : State) : Out :=
  run .rft { sys := true } (fun s => if masked s.cur then .done (returnTrap s) else illegal s .rft) s

/-- The device halts (R376): nothing issues, the links stop, calls are paused (R383), and the readback image is due. -/
def haltDevice (s : State) : State := { s with halted := true, imageDue := true, calls := s.calls.map (holdCall s) }

/-- HALT (R376). -/
def execHalt (s : State) : Out := run .halt { sys := true } (fun s => .done (haltDevice (advance s))) s

/-- SAFEPT (R381): the sheaf stops when a request is pending, one slot is live and no stack entry is. -/
def execSafept (n : Nat) (s : State) : Out :=
  run (.safept n) {} (fun s =>
    let a := s.cur
    if a.k.nSafe ≤ n then illegal s (.safept n)
    else if ((findStook s a.stook).map (fun t => t.pre.stage)).getD 0 = 1 ∧ a.pri.live ≠ a.sec.live ∧ a.stack = [] then
      .done (onCur (advance s) (fun a => { a with stopPt := some n }))
    else .done (advance s)) s

/-! ### Translation maintenance (R379, R380) -/

/-- Every held sector of a range of sectors is written back. -/
def writeBackRange (s : State) (lo hi : Nat) : State :=
  (s.cached.filter (fun p => decide (lo ≤ p.1) && decide (p.1 < hi))).foldl (fun s p => writeBack s p.1) s

/-- An MMA still holds lines of a 64 KiB frame (R106). -/
def mmaHolds (s : State) (frame : Nat) : Bool :=
  s.tileOps.any (fun o => match o.kind with
    | .mma _ _ a b => (a.secs ++ b.secs).any (fun x => x.2.1 && x.1 / 65536 == frame / 65536)
    | _ => false)

/-- The release of a pin directory entry: the page's dirty lines are written back first, and its lines leave the slice (R97). -/
def releasePin (s : State) (p : Pin) : State :=
  let s := writeBackRange s (p.frame / 32) (p.frame / 32 + 2048)
  { s with pins := s.pins.filter (fun q => q.slice ≠ p.slice || q.frame ≠ p.frame) }

/-- A TLBI completes (R379): the entries that satisfy a test are gone, EPOCH has risen, and the pages' directory entries
are released, but for those whose lines an MMA holds.
Log 64: DEDUCED. -/
def tlbiDone (s : State) (drop : TlbEnt → Bool) (covers : Nat × Nat → Bool) : State :=
  let s := { s with tlb := s.tlb.filter (fun t => !drop t), epoch := s.epoch + 1,
                    pins := s.pins.map (fun (p : Pin) => if p.maps.any covers then { p with going := true } else p) }
  (s.pins.filter (fun (p : Pin) => p.going && !mmaHolds s p.frame)).foldl releasePin s

/-- TLBI (R379): the entries of the context that map the VA in Sa. -/
def execTlbi (a : Nat) (s : State) : Out :=
  run (.tlbi a) { sr := [a], sys := true } (fun s =>
    let va := vaBits (getS s a)
    let c := s.cur.k.ctx
    .done (advance (tlbiDone s (fun t => t.ctx == c && t.vpn == va / 2 ^ lvlShift t.level)
      (fun m => m == (c, va / 65536))))) s

/-- TLBI_ALL (R379): every entry of the context. -/
def execTlbiAll (s : State) : Out :=
  run .tlbiAll { sys := true } (fun s =>
    let c := s.cur.k.ctx
    .done (advance (tlbiDone s (fun t => t.ctx == c) (fun m => m.1 == c)))) s

/-- The 128-byte line of a location leaves every L1. -/
def dropL1Line (s : State) (line : Nat) : State :=
  { s with l1 := s.l1.filter (fun p => p.1 % 2 ^ 60 / 4 ≠ line) }

/-- A sector that CFLUSH flushes: it is home, and a slice keeps it clean; of host memory no slice is the home (R99, R380). -/
def flushSec (s : State) (k : Nat) : State := if locClass (32 * k) = 0 then writeHome s k else writeBack s k

/-- CFLUSH (R380): the line's dirty copies go to its frame and leave the L1s and cluster caches. -/
def execCflush (a : Nat) (s : State) : Out :=
  run (.cflush a) { sr := [a], cls := some .st } (fun s =>
    access s .rd 1 1 false [(0, getS s a, 0, 0)] (fun accs t =>
      afterLost t false accs (fun l => .done (advance (l.foldl (fun t x =>
        if x.coh then dropL1Line ((lineSecs x.loc).foldl flushSec
          (drainSeen t (seatOf t.cur) (fun y => y.loc / 128 == x.loc / 128))) (x.loc / 128)
        else t) t))))) s

/-- CINV (R380): the line is discarded from every cache. -/
def execCinv (a : Nat) (s : State) : Out :=
  run (.cinv a) { sr := [a], sys := true, cls := some .st } (fun s =>
    access s .rd 1 1 false [(0, getS s a, 0, 0)] (fun accs t =>
      afterLost t false accs (fun l => .done (advance (l.foldl (fun t x =>
        if x.coh then
          let t := drainSeen t (seatOf t.cur) (fun y => y.loc / 128 == x.loc / 128)
          let t := dropL1Line t (x.loc / 128)
          { t with cached := smDrop t.cached (x.loc / 128 * 4) (x.loc / 128 * 4 + 4),
                   latent := smDrop t.latent (copyErr (x.loc / 128 * 4)) (copyErr (x.loc / 128 * 4 + 4)) }
        else t) t))))) s

/-- The periods of 65,536 cycles that have passed since EPOCH last rose with one (R107). -/
def epochPeriods (s : State) : Nat := (s.time - s.epochAt) * s.mhz / 65536000

/-- EPOCH_TICK (R107): EPOCH has risen by one for every 65,536 cycles passed. -/
def execEpochTick (s : State) : Out :=
  let n := epochPeriods s
  .next (if n = 0 then s else { s with epoch := s.epoch + BitVec.ofNat 32 n, epochAt := s.epochAt + n * 65536000 / s.mhz })

/-- PIN_RELEASE (R106): a directory entry that a TLBI released waits no more for an MMA. Event data: slice, frame. -/
def execPinRelease (s : State) : Out :=
  match s.pins.find? (fun p => p.slice == s.inp.a.headD 0 && p.frame == s.inp.a.getD 1 0) with
  | none => .next s
  | some p => if p.going = true ∧ mmaHolds s p.frame = false then .next (releasePin s p) else .next s

end Sys2Proof.Machine
end

