-- ==== Sys2Proof/Machine/Preempt.lean ====
section
/-!
DEFINITION. Hard pre-emption and its resumption (25 R382 to R386), and the readback image (25 R387).
-/
namespace Sys2Proof.Machine

open Sys2Proof

/-! ### The bulk buffer (R386) -/

/-- The V registers of a sheaf, lane-major. -/
def vBytes (a : Agent) : List Byte :=
  (List.range a.k.w).flatMap (fun i => (List.range a.k.vregs).flatMap (fun n => leBytes 4 (smGet 0 a.v (vkey n i)).toNat))

/-- The scratch granules of a stook. -/
def scratchBytes (s : State) (t : Stook) : List Byte :=
  t.k.granules.flatMap (fun g => rdBytes s false (sramLoc t.core (g * 65536)) 65536)

/-- The barrier words of a stook. -/
def barrierBytes (s : State) (t : Stook) : List Byte :=
  (List.range t.k.nBar).flatMap (fun i => leBytes 16 (barWord s t.core (t.k.barBase + i)))

/-- The queue state words and bases of a stook. -/
def queueBytes (s : State) (t : Stook) : List Byte :=
  (List.range t.k.nQ).flatMap (fun n => wordBytes [queueWord (queueOf s t.id n), ((queueOf s t.id n).map (·.base)).getD 0])

/-- The control word of a tile (R198). -/
def tileWord (x : Tile) : Word :=
  wd (x.ptag.toNat * 2 ^ 52 + (if x.poison then 2 ^ 51 else 0) + x.mode * 2 ^ 49 + (if x.wsat then 2 ^ 48 else 0) +
    min 65535 x.mmas * 2 ^ 32 + min 65535 x.drops * 2 ^ 16 + (x.floor % 1024).toNat)

/-- The bytes of a tile's image: the plane image, 2 bytes of witness for each element, and the control word (R71, R386). -/
def tileSize : Nat := 49152 + 8192 + 64

/-- A tile as a plane image with its witnesses and control word, at an address: NANPTR names the image's own bitmap where an element
is NaN (R71, R72, R386). -/
def tileBytes (va : Word) (x : Tile) : List Byte :=
  let e : Nat → Elem := fun i => smGet Elem.zero x.elems i
  (List.range 10).flatMap (fun ch => (List.range 4096).map (fun i => BitVec.ofNat 8 ((e i).res.getD ch 0))) ++
  leBytes 64 ((x.floor % 2 ^ 16).toNat + 0x1F * 2 ^ 16 + x.mode * 2 ^ 24 + (if x.poison then (0x8000 + x.ptag.toNat) * 2 ^ 32 else 0) +
    (if x.elems.any (fun p => p.2.nan) then (va + 41024).toNat * 2 ^ 64 else 0)) ++
  padTo 8128 ((List.range 512).map (fun b => BitVec.ofNat 8 ((List.range 8).foldl (fun n j => n + if (e (8 * b + j)).nan then 2 ^ j else 0) 0))) ++
  (List.range 4096).flatMap (fun i => leBytes 2 (e i).wit) ++ padTo 64 (wordBytes [tileWord x])

/-- Tiles one after another, from an address on. -/
def tileImages (va : Word) (l : List Tile) : List Byte :=
  ((List.range l.length).zip l).flatMap (fun p => tileBytes (va + wd (tileSize * p.1)) p.2)

/-- The state of an engine program (R383, R386). -/
def programBytes (a : Agent) : List Byte :=
  wordBytes (a.pri.pc :: (List.range 16).map (getSA a) ++ [a.md.setWidth 64, a.srkey, a.srseq, cntsWord a])

/-- A pending POISON trap (R384, R386). -/
def poisonBytes (a : Agent) : List Byte :=
  (a.pri.poison ++ a.sec.poison).flatMap (fun p => wordBytes [p.taddr, p.tmask, p.tag.setWidth 64])

/-- The first sector of a range that is still to be written. -/
def sectorVa (va : Word) : Word := va &&& ~~~31

/-- The first unwritten 32-byte sector of a slice, of which the rows given have been moved; 0 where none is left (R383). -/
def Slice.firstLeft (x : Slice) (rows : Nat) : Word :=
  match (List.range x.goal).find? (fun j => !rows.testBit j) with
  | some j => sectorVa (((x.writes j).head?.map (·.1)).getD 0)
  | none => 0

/-- A copy as restartable: descriptors, bytes credited, and of each slice the first unwritten sector and how many rows have been moved
(R383). -/
def copyRestart (c : Copy) : List Byte :=
  c.slices.flatMap (fun x => leBytes 64 x.desc.toNat) ++
  wordBytes (wd c.bytes :: (c.slices.zip c.rows).flatMap (fun p => [p.1.firstLeft p.2, wd ((List.range p.1.goal).countP p.2.testBit)]))

/-- A CPL as restartable: bytes credited, the first unwritten sector, and the lanes left (R383). -/
def cplRestart (c : CplOp) : List Byte :=
  wordBytes (wd c.bytes :: sectorVa ((c.lanes.head?.map (·.2.va)).getD 0) :: c.lanes.flatMap (fun l => [l.1.va, l.2.va]))

/-- A SKOP as restartable: descriptors, operation and shift, bytes credited, and the first unwritten sector (R383). -/
def skopRestart (o : SkOp) : List Byte :=
  wordBytes [o.dst.va, (o.src.map (·.va)).getD 0, wd (o.f + 4 * o.k), wd (o.done * o.dst.size),
    if o.done = o.dst.count then 0 else sectorVa (o.dst.base + wd (o.done * o.dst.size))]

/-- The restartable operations of a stook (R383, R384, R386). -/
def restartBytes (s : State) (t : Stook) : List Byte :=
  (s.copies.filter (fun c => c.stook == t.id)).flatMap copyRestart ++
  (s.cpls.filter (fun c => c.party.stook == t.id)).flatMap cplRestart ++
  (s.skops.filter (fun o => o.party.stook == t.id)).flatMap skopRestart ++
  (sheavesOf s t.id).flatMap poisonBytes

/-- The engine programs of a stook. -/
def programsOf (s : State) (stook : Nat) : List Agent :=
  (allAgents s).filter (fun a => a.stook == stook && (a.kind = .matSeq || a.kind = .copySeq))

/-- The sections of the bulk buffer, in the order of R386, that of the tiles standing at an address.
Log 43: DESIGN CHOICE. -/
def bulkSections (s : State) (t : Stook) (tiles : Word) : List (List Byte) :=
  [(sheavesOf s t.id).flatMap vBytes, scratchBytes s t, barrierBytes s t, queueBytes s t,
   tileImages tiles (t.k.tiles.map (fun p => tileGet s t.core p)), (programsOf s t.id).flatMap programBytes,
   restartBytes s t, (sheavesOf s t.id).flatMap stackArea]

/-- Where sections of given lengths begin, from an offset on: aligned to 4 KiB. -/
def offsets : Nat → List Nat → List Nat
  | _, [] => []
  | o, n :: r => o :: offsets (o + (n + 4095) / 4096 * 4096) r

/-- The header of the bulk buffer, then its sections: each with its offset. -/
def bulkParts (s : State) (t : Stook) : List (Nat × List Byte) :=
  let lens := (bulkSections s t 0).map List.length
  let o := offsets 4096 lens
  (0, padTo 4096 (wordBytes ((o.zip lens).flatMap (fun p => [wd p.1, wd p.2])))) :: o.zip (bulkSections s t (t.pre.bulk + wd (o.getD 4 0)))

/-- Write the parts of a stook's bulk buffer that are left. A permission failure loses the dump (R385). -/
def bulkGo (stook : Nat) : List (Nat × List Byte) → State → State
  | [], s => s
  | (o, b) :: r, s =>
    match findStook s stook with
    | none => s
    | some t =>
      match partWrite s (stookWho t) (t.pre.bulk + wd o) b with
      | .ok _ s => bulkGo stook r (updStook s stook (fun t => { t with pre := { t.pre with bulkDone := t.pre.bulkDone + 1 } }))
      | .bad x kd l e =>
        let (n, s) := partPark s (stookWho t) stook 6 (((sheavesOf s stook).head?.map (·.slotNo)).getD 0) 2 x kd l e
        updStook s stook (fun t => { t with park := some n })
      | .perm s =>
        updStook (logLostDump s t.core (((sheavesOf s stook).head?.map (·.slotNo)).getD 0)) stook (fun t => { t with dumpLost := true })
      | .wait s => s

/-- Go on with a stook's bulk buffer. -/
def bulkStep (s : State) (t : Stook) : State :=
  match unpark s t.park with
  | .wait => s
  | .go s => bulkGo t.id ((bulkParts s t).drop t.pre.bulkDone) (updStook s t.id (fun t => { t with park := none }))
  | .fatal s =>
    updStook (logLostDump s t.core (((sheavesOf s t.id).head?.map (·.slotNo)).getD 0)) t.id (fun t => { t with park := none, dumpLost := true })

/-! ### Saving and restoring a stook's memory (R382) -/

/-- The ranges of bytes that a stook owns: place, length, and the place they are kept under. -/
def ownRanges (s : State) (t : Stook) : List (Nat × Nat × Nat) :=
  t.k.granules.map (fun g => (sramLoc t.core (g * 65536), 65536, sramLoc t.core (g * 65536))) ++
  (List.range t.k.planeN).flatMap (fun i =>
    let p := t.k.planeT0 + i
    (sramLoc t.core (0x77000 + 576 * p), 576, sramLoc t.core (0x77000 + 576 * p)) ::
    (List.range 10).map (fun ch => (planeStoreLoc t.core (s.chmap.getD ch 0) (4096 * p), 4096, 5 * 2 ^ 52 + 49152 * p + 4096 * ch)))

/-- The entries of a sparse array in a range, under another place. -/
def rekey {α : Type} (m : List (Nat × α)) (lo n new : Nat) : List (Nat × α) :=
  (m.filter (fun p => decide (lo ≤ p.1) && decide (p.1 < lo + n))).map (fun p => (p.1 - lo + new, p.2))

/-- Put the entries kept for a range back. -/
def restoreRange (bytes : List (Nat × BitVec 8)) (tags : List (Nat × Option (BitVec 12))) (s : State) (r : Nat × Nat × Nat) : State :=
  let s := zeroRange s r.1 r.2.1
  { s with
    mem := (rekey bytes r.2.2 r.2.1 r.1).foldl (fun m p => smPut 0 m p.1 p.2) s.mem,
    poison := (rekey tags (r.2.2 / 32) (r.2.1 / 32) (r.1 / 32)).foldl (fun m p => smPut none m p.1 p.2) s.poison }

/-! ### Hard pre-emption (R382 to R385) -/

/-- The tile operations of a stook are out of the stream (R383). -/
def streamDone (s : State) (stook : Nat) : Bool := !s.tileOps.any (fun o => o.party.stook == stook)

/-- Everything of a stook that hard pre-emption keeps. -/
def suspOf (s : State) (t : Stook) : Susp :=
  { stook := t, agents := agentsOf s t.id,
    barriers := (List.range t.k.nBar).map (fun i => (t.k.barBase + i, barGet s t.core (t.k.barBase + i))),
    queues := s.queues.filter (fun q => q.stook == t.id),
    tiles := t.k.tiles.map (fun p => (p, tileGet s t.core p)),
    bytes := (ownRanges s t).flatMap (fun r => rekey s.mem r.1 r.2.1 r.2.2),
    tags := (ownRanges s t).flatMap (fun r => rekey s.poison (r.1 / 32) (r.2.1 / 32) (r.2.2 / 32)),
    bounds := (declared t.k.bndMask).map (fun n => (n, boundGet s t.core n)),
    forks := s.forkQ.filter (fun f => f.stook == t.id), copies := s.copies.filter (fun c => c.stook == t.id),
    cpls := s.cpls.filter (fun c => c.party.stook == t.id), skops := s.skops.filter (fun o => o.party.stook == t.id) }

/-- The stook's engine work leaves with it. -/
def dropWork (s : State) (stook : Nat) : State :=
  { s with copies := s.copies.filter (fun c => c.stook ≠ stook), cpls := s.cpls.filter (fun c => c.party.stook ≠ stook),
           skops := s.skops.filter (fun o => o.party.stook ≠ stook) }

/-- A stook whose dumps are written leaves the core; its paused calls stay (R383), and its copies read anew what they had asked of other
nodes. -/
def suspend (s : State) (t : Stook) : State :=
  let s := dropAsks s (fun q => s.copies.any (fun c => c.stook == t.id && q.ofOp c.id))
  let kept := suspOf s t
  let calls := s.calls
  let s := removeStook (dropWork s t.id) t
  { s with suspended := s.suspended ++ [kept], calls := calls }

/-- A stook whose dump is lost is treated as aborted (R385): the abort is logged, no further dump is written, its copies, CPLs and
SKOPs finish as at any abort (R383), and it ends under its record's end rule (R373).
Log 81: DEDUCED. -/
def abandonLost (s : State) (t : Stook) : State :=
  let (e, s) := takeEseq s
  let s := logAt s 107 8 2 (wd (t.core + min t.dropped 65535 * 2 ^ 48)) (wd (2 ^ 56)) e
  updStook (partDone s [2, t.id]) t.id (fun t =>
    { t with abort := some e, pre := ⟨0, 0, 0, 0, false⟩, park := none, dumped := (sheavesOf s t.id).map (·.id) })

/-- One stook's next step of a hard pre-emption: its accesses and tile operations end, its dumps and bulk buffer are
written, and it leaves. -/
def hardStep (s : State) (t : Stook) : State :=
  if t.pre.stage ≠ 3 ∨ accessesDone s t.id = false ∨ streamDone s t.id = false then s
  else
    let whole : State → Bool := fun s => (sheavesOf s t.id).all (fun a => (((findStook s t.id).map (·.dumped)).getD []).contains a.id)
    let s := if whole s then s else dumpStook s t 0 t.pre.bulk
    if whole s = false then s
    else
      let t := (findStook s t.id).getD t
      let s := if t.dumpLost ∨ 9 ≤ t.pre.bulkDone then s else bulkStep s t
      let t := (findStook s t.id).getD t
      if t.dumpLost then abandonLost s t
      else if t.park.isNone ∧ 9 ≤ t.pre.bulkDone then suspend s t
      else s

/-- A pre-emption at safe points has not been met in its deadline (R381). -/
def lateFor (s : State) (t : Stook) : Bool := t.pre.stage = 3 || decide (t.pre.at_ + s.deadline ≤ s.time)

/-- PREEMPT_DEADLINE (R381 to R385): a request that was not met in its deadline is met hard, and what that takes goes on. Event
data: stook. -/
def execPreemptDeadline (s : State) : Out :=
  match findStook s (s.inp.a.headD 0) with
  | none => .next s
  | some t =>
    if t.pre.stage = 0 ∨ t.abort.isSome = true ∨ lateFor s t = false then .next s
    else
      let u := (unitStooks s t).filter (fun t => t.abort.isNone)
      let s := (u.filter (fun t => t.pre.stage ≠ 3)).foldl (fun s t =>
        pauseCalls (updStook s t.id (fun t => { t with pre := { t.pre with stage := 3, bulkDone := 0 }, dumped := [], dumpLost := false })) t.id) s
      .next (u.foldl (fun s t => hardStep s ((findStook s t.id).getD t)) s)

/-! ### Resumption (R382) -/

/-- Two bound entries agree but for their count (R33). -/
def sameBound (b c : Bound) : Bool := b.lo == c.lo && b.hi == c.hi && b.act == c.act

/-- The sequencers and fork queues of the core take a suspended stook's engine programs and forks back (R262, R263). -/
def engineFits (s : State) (p : Susp) : Bool :=
  [true, false].all (fun mat =>
    !(seqBusy s p.stook.core mat && p.agents.any (fun a => a.kind = (if mat then .matSeq else .copySeq) && !a.ended)) &&
    decide (forkLen s p.stook.core mat + (p.forks.filter (fun f => f.mat == mat)).length ≤ 4))

/-- No resource that a suspended stook held is held by a resident one.
Log 51: DEDUCED. -/
def fitsBack (s : State) (p : Susp) : Bool :=
  let t := p.stook
  let here := s.stooks.filter (fun u => u.core == t.core)
  let apart : Nat → Nat → Nat → Nat → Bool := fun a n b m => decide (a + n ≤ b) || decide (b + m ≤ a) || n = 0 || m = 0
  let ks := here.map (·.k)
  !s.disabled.contains t.core && engineFits s p &&
  p.agents.all (fun a => a.kind ≠ .sheaf || !(allAgents s).any (fun b => b.kind = .sheaf && b.core == t.core && b.slotNo == a.slotNo)) &&
  decide ((ks.map (fun q => q.nSheaf * q.w * q.vregs)).sum + t.k.nSheaf * t.k.w * t.k.vregs ≤ 65536) &&
  decide ((ks.map (·.nQ)).sum + t.k.nQ ≤ 64) &&
  ks.all (fun q => apart q.barBase q.nBar t.k.barBase t.k.nBar && apart q.planeT0 q.planeN t.k.planeT0 t.k.planeN &&
    q.granules.all (fun g => !t.k.granules.contains g) && q.tiles.all (fun g => !t.k.tiles.contains g)) &&
  (declared t.k.bndMask).all (fun n => !here.any (fun u => bit u.k.bndMask n) ||
    sameBound (boundGet s t.core n) (smGet Bound.zero p.bounds n))

/-- The stook as it goes on: a request that had not begun its save routines is met; else they go on, under a new deadline.
Log 97: DEDUCED. -/
def wake (s : State) (t : Stook) : Stook :=
  { t with pre := if t.pre.begun then { t.pre with stage := 2, at_ := s.time, bulkDone := 0 } else ⟨0, 0, 0, 0, false⟩,
           dumped := [], dumpLost := false }

/-- One suspended stook is restored exactly (R382). -/
def restore (s : State) (p : Susp) : State :=
  let t := p.stook
  let s := { s with
    suspended := s.suspended.filter (fun q => q.stook.id ≠ t.id),
    agents := s.agents ++ p.agents.map (fun a => { a with active := false, stopPt := if t.pre.begun then a.stopPt else none }),
    queues := s.queues ++ p.queues, forkQ := s.forkQ ++ p.forks, copies := s.copies ++ p.copies,
    cpls := s.cpls ++ p.cpls, skops := s.skops ++ p.skops }
  let s := p.barriers.foldl (fun s b => barPut s t.core b.1 b.2) s
  let s := p.tiles.foldl (fun s x => tilePut s t.core x.1 x.2) s
  let s := p.bounds.foldl (fun s b =>
    if s.stooks.any (fun u => u.core == t.core && bit u.k.bndMask b.1) then s else boundPut s t.core b.1 b.2) s
  let s := (ownRanges s t).foldl (restoreRange p.bytes p.tags) { s with stooks := s.stooks ++ [wake s t] }
  resumeCalls s t.id

/-- The suspended stooks of a unit are restored one after another, each fitting beside those before it (R336, R338); none where one
does not. -/
def restoreAll (s : State) (l : List Susp) : Option State :=
  l.foldl (fun m p => m.bind (fun s => if fitsBack s p then some (restore s p) else none)) (some s)

/-- PREEMPT_RESUME (R382): the suspended stooks of a unit go on, on their cores. Event data: stook. -/
def execPreemptResume (s : State) : Out :=
  match s.suspended.find? (fun p => p.stook.id == s.inp.a.headD 0) with
  | none => .next s
  | some p =>
    let n := p.stook.record.unit
    let u := if n = 0 then [p] else s.suspended.filter (fun q => q.stook.record.unit == n)
    if s.halted = true ∨ (n ≠ 0 ∧ s.stooks.any (fun t => t.record.unit == n) = true) then .next s
    else .next ((restoreAll s u).getD s)

/-! ### The readback image (R376, R387, R12) -/

/-- The 32 bytes of a pool record (R358). -/
def poolRecBytes (p : PoolRec) : List Byte :=
  leBytes 32 (p.left * 2 ^ 236 + p.clu * 2 ^ 232 + (if p.sys then 2 ^ 231 else 0) + p.state * 2 ^ 229 + p.depth * 2 ^ 224 +
    p.budget * 2 ^ 208 + p.grp.toNat * 2 ^ 192 + p.jobkey.toNat * 2 ^ 128 + p.frame.toNat * 2 ^ 64 + p.recVa.toNat)

/-- The pool (R358), up to the last record in use: record n is that of ID n + 1. -/
def poolBytes (s : State) : List Byte :=
  (List.range (((s.pool.getLast?).map (·.1)).getD 0)).flatMap (fun n => poolRecBytes (poolGet s (n + 1)))

/-- A waiting engine program (R263). -/
def forkBytes (f : ForkEnt) : List Byte :=
  wordBytes ([wd f.core, if f.mat then 1 else 0, wd f.stook, f.entry] ++ (List.range 16).map (fun n => smGet 0 f.s n) ++
    [f.md.setWidth 64, f.srkey, f.srseq])

/-- A group table entry (R308). -/
def groupBytes (p : Nat × Option Group) : List Byte :=
  match p.2 with
  | none => []
  | some g =>
    wordBytes [g.jobkey, wd (p.1 + g.rank * 2 ^ 16 + (if g.valid then 2 ^ 23 else 0) + g.size * 2 ^ 24 + g.cseq.toNat * 2 ^ 32),
      wd g.winBase, wd g.winLen, wd g.pbudget, 0, 0, 0] ++ padTo 128 (g.nodes.map (BitVec.ofNat 8))

/-- The graticule (R323). -/
def gratBytes (g : Graticule) : List Byte :=
  wordBytes [wd g.nslot, wd g.width, wd g.epoch] ++ g.slots.flatMap (fun l => padTo 16 (l.map (BitVec.ofNat 8))) ++
  g.quota.flatMap (leBytes 16)

/-- The readback image's sections (R387). -/
def imageSections (s : State) (stop : Nat) : List (List Byte) :=
  [s.stooks.flatMap (fun t => (sheavesOf s t.id).flatMap (fun a => padTo 2048 (wordBytes (dumpWords a stop 0 s.eseq)) ++ stackArea a)),
   s.stooks.flatMap (fun t => (bulkSections s t 0).flatten), s.forkQ.flatMap forkBytes, poolBytes s,
   (List.range 32).flatMap (fun p => wordBytes ((List.range 16).map (readLink (portNow s p)))), gratBytes s.grat,
   s.groups.flatMap groupBytes, (List.range 128).flatMap (fun u => wordBytes ((List.range 6).map (readBank s u))),
   s.disabled.map (BitVec.ofNat 8)]

/-- The image: a header of 4 KiB that gives each section's place and length, then the sections. -/
def readbackBytes (s : State) (stop : Nat) : List Byte :=
  let l := imageSections s stop
  let o := offsets 4096 (l.map List.length)
  padTo 4096 (wordBytes ((o.zip (l.map List.length)).flatMap (fun p => [wd p.1, wd p.2]))) ++
  l.flatMap (fun b => padTo ((b.length + 4095) / 4096 * 4096) b)

/-- Write the image to the registered region. -/
def writeImage (s : State) (stop : Nat) : State :=
  { wrBytes s true s.rbBase ((readbackBytes s stop).take s.rbLen) none with imageDue := false }

/-- At a halt: the engine work of every stook has finished (R383). -/
def haltQuiet (s : State) : Bool :=
  s.stooks.all (fun t => accessesDone s t.id) && s.tileOps.isEmpty && s.copies.all (fun c => c.order = 0) && s.cpls.isEmpty &&
  s.skops.isEmpty

/-- The stack entries that a sheaf has on chip go to its context area for readback (R156); where that cannot be written they stay. -/
def spillStack (s : State) (t : Stook) (a : Agent) : State :=
  match partWrite s (stookWho t) (ctxAreaVa s a) (stackArea a) with
  | .ok _ s => s
  | .wait s => s
  | _ => s

/-- The stacks of every resident sheaf are written for readback (R156). -/
def spillAll (s : State) : State :=
  s.stooks.foldl (fun s t => (sheavesOf s t.id).foldl (fun s a => spillStack s t a) s) s

/-- READBACK_REQUEST (R156, R376, R384, R387): at a SYSTEM request the stacks and the image are written; at a halt, first
everything in flight ends and the dumps are written. -/
def execReadbackRequest (s : State) : Out :=
  if s.halted = false then
    let s := spillAll s
    .next (if s.stooks.any (fun t => partAsking s [2, t.id]) then s
      else writeImage (s.stooks.foldl (fun s t => partDone s [2, t.id]) s) 0)
  else if s.imageDue = false then .next s
  else if haltQuiet s = false then .next s
  else
    let s := s.stooks.foldl (fun s t => if dumpsDone s t.id then s else dumpStook s t 2 0) s
    .next (if s.stooks.all (fun t => dumpsDone s t.id) then writeImage s 2 else s)

end Sys2Proof.Machine
end

