-- ==== Sys2Proof/Machine/HostLink.lean ====
section
/-!
DEFINITION. The host, the boot and the firmware (23 R348, 27 R399 to R409): contexts, code loading, attestation, reset,
power states, and host accesses.
-/
namespace Sys2Proof.Machine

open Sys2Proof

/-! ### The mailbox (R348, R405, R407) -/

/-- A context from its descriptor (R348). -/
def ctxOf (x : Nat) : Ctx :=
  { root := wd (fld x 63 0), jobkey := wd (fld x 127 64), fring := wd (fld x 191 128), frlog := fld x 199 192,
    fvec := fld x 207 200, ctxarea := wd (fld x 319 256), scrva := wd (fld x 383 320), qtab := wd (fld x 447 384),
    priv := fld x 448 448 = 1 }

/-- CONTEXT_REGISTER (R348, R404, R407, R105): the descriptor is read from class 0 memory, and the fault ring's indexes are 0.
Event data: context, PA of the descriptor. -/
def execContextRegister (s : State) : Out :=
  let n := s.inp.a.headD 0
  let pa := s.inp.a.getD 1 0
  if 255 < n ∨ hbmEnd < pa + 128 ∨ s.bootFail = true then .next s
  else
    let s := eccRead s true pa 128
    let c := ctxOf (leNat (rdBytes s true pa 128))
    .next { putRing s n Ring.zero with
      ctxs := smPut none s.ctxs n (some c),
      lqueues := s.lqueues.filter (fun q => q.1 / 16 ≠ n) }

/-- READBACK_REGISTER (R407): a region that is not class 0, or too small, is refused. Event data: PA, length. -/
def execReadbackRegister (s : State) : Out :=
  let pa := s.inp.a.headD 0
  let len := s.inp.a.getD 1 0
  if hbmEnd < pa + len ∨ len < Config.imageBytes ∨ s.bootFail = true then .next s
  else .next { s with rbBase := pa, rbLen := len }

/-- A loader request as answered (R405): CONT, FRAME and LEN as sent, the reserved bits zero (R5). -/
def loaderDone (s : State) (req : Nat) (code : Nat) : State :=
  { s with loader := BitVec.ofNat 256 (fld req 255 136 * 2 ^ 136 + fld req 127 64 * 2 ^ 64 + code * 16 +
      (if code = 0 then 0 else 2) + 1) }

/-- A measurement or an attestation slot, of 48 bytes. -/
def digestOf (l : List Nat) : Nat := Config.sha3 l % 2 ^ 384

/-- Extend an attestation slot with a measurement, 48 bytes each (R403). -/
def extendSlot (s : State) (n m : Nat) : State :=
  { s with attest := smPut 0 s.attest n (digestOf (leNats 48 (smGet 0 s.attest n) ++ leNats 48 m)) }

/-- Bytes at a PA, as numbers, as the coherent caches have them of HBM4. -/
def paBytes (s : State) (pa n : Nat) : List Nat := (rdBytes s (decide (pa / 2 ^ 52 = 0)) pa n).map (·.toNat)

/-- The bytes of a container entry: segment header, measurement, both signatures and both keys (R402). -/
def entrySize : Nat := 64 + 48 + 64 + 3309 + 32 + 1952

/-- Both signatures over the header and the measurement verify, by keys whose digests the boot ROM holds (R402). -/
def signed402 (e : List Nat) : Bool :=
  let msg := e.take 112
  let ed := (e.drop 3485).take 32
  let ml := (e.drop 3517).take 1952
  digestOf ed = Config.keyDigest 0 && digestOf ml = Config.keyDigest 1 &&
  Config.sigVerify 0 ed msg ((e.drop 112).take 64) && Config.sigVerify 1 ml msg ((e.drop 176).take 3309)

/-- A range of frames is marked measured-code (R89, R405): what the coherent caches hold of it is home first, so that every view of
the frame has the bytes that were measured (R406). -/
def markFrames (s : State) (frame len : Nat) : State :=
  let n := (len + 65535) / 65536
  let s := (s.cached.filter (fun p => decide (frame / 32 ≤ p.1) && decide (p.1 < frame / 32 + 2048 * n))).foldl (fun s p => writeHome s p.1) s
  (List.range n).foldl (fun (s : State) i => { s with measured := smPut false s.measured (frame / 65536 + i) true }) s

/-- LOADER_REQUEST (R89, R402 to R406): the segment's frames are read, verified, measured and marked. Event data: the request.
Log 47: PRESUMED. -/
def execLoaderRequest (s : State) : Out :=
  let req := s.inp.a.headD 0
  let cont := fld req 255 192
  let frame := fld req 191 136
  let len := fld req 127 64
  if s.bootFail then .next s
  else if frame % 65536 ≠ 0 ∨ hbmEnd < frame + len ∨ len = 0 then .next (loaderDone s req 4)
  else
    let coh := decide (cont / 2 ^ 52 = 0)
    let s := eccRead s coh cont entrySize
    let e := paBytes s cont entrySize
    let want := (leNat (rdBytes s coh (cont + 64) 48))
    if (rdTags s coh cont entrySize).isSome ∨ signed402 e = false then .next (loaderDone s req 1)
    else
      let s := eccRead s true frame len
      let slot := Config.segmentSlot (e.take 64)
      if (rdTags s true frame len).isSome ∨ digestOf (paBytes s frame len) ≠ want then .next (loaderDone s req 2)
      else if slot < 3 ∨ 15 < slot then .next (loaderDone s req 3)
      else .next (loaderDone (extendSlot (markFrames s frame len) slot want) req 0)

/-- QUOTE_REQUEST (R403, R404): the slots and the nonce are signed with both keys. Event data: nonce. -/
def execQuoteRequest (s : State) : Out :=
  let nonce := s.inp.a.headD 0 % 2 ^ 256
  let slots := (List.range 16).map (fun n => smGet 0 s.attest n)
  if s.bootFail then .next s else .next { s with quote := slots ++ [nonce, Config.quoteSig 0 slots nonce, Config.quoteSig 1 slots nonce] }

/-! ### Reset (R401, R404) -/

/-- CHMAP from a configuration word: a map of the ten channels to distinct dies (R12, R229); none where the word gives no such map.
Log 42: DEDUCED. -/
def chmapOf (w : Nat) : Option (List Nat) :=
  let l := (List.range 11).map (fun k => fld w (4 * k + 3) (4 * k))
  let ch := l.take 10
  if ch.all (fun d => decide (d < 11) && ch.count d = 1) ∧ (l.getD 10 0 = 15 ∨ (l.getD 10 0 < 11 ∧ ch.contains (l.getD 10 0) = false)) then some l
  else none

/-- WCFG as the configuration blocks set it (R12, R395): a word for each window class, HBM4, channel die, wavelength; 0 leaves
the class at its default. -/
def wcfgOf (ws : List Nat) : List (Nat × Word) :=
  wcfgReset.map (fun p =>
    let w := ws.getD (if p.1 < 96 then 0 else if p.1 < 112 then 1 else 2) 0
    if w = 0 then p else (p.1, wd (fld w 63 32 * 2 ^ 32 + fld w 15 0)))

/-- The device as it comes out of reset, with what lies outside it or survives one: the host's and the switches' memory,
the switches' tables, what has gone to the host, the number of the device, the version in flash, and the model's own
counters.
Log 46: DEDUCED. -/
def afterReset (s : State) : State :=
  let kept : Nat → Bool := fun loc => locClass loc = 1 || locClass loc = 2
  { State.reset with
    mem := s.mem.filter (fun p => kept p.1), poison := s.poison.filter (fun p => kept (32 * p.1)), node := s.node,
    allocs := s.allocs, quota := s.quota, swGroups := s.swGroups, lost := s.lost, cfgVer := s.cfgVer, sent := s.sent.filter (fun p => p.port == 32),
    agenda := s.agenda, inp := s.inp, defer := s.defer, nextId := s.nextId, free := s.free }

/-- RESET (R401, R404): the steps of measured boot; a failure at step n holds the device, which reports the step and its cause, and
one of the start-up verification is logged (R80, R390). Blocks of an old version, or with no good CHMAP, fail step 3. Event data:
the step that fails (0 none), the version of the configuration blocks, their CHMAP word and the WCFG words of their three window
classes, and the cause; lists: the measurements of the root firmware, of the untrusted firmware and of the blocks; and the disabled
cores.
Log 48: DEDUCED. -/
def execReset (s : State) : Out :=
  let x := s.inp
  let fail := x.a.headD 0
  let ver := x.a.getD 1 0
  let t := afterReset s
  let held : State → Nat → Out := fun t n => .next { t with boot := n, bootFail := true, bootCause := x.a.getD 6 0, halted := true }
  if fail = 1 then held t 1
  else
    let t := extendSlot t 0 (x.data.getD 0 0)
    if fail = 2 then held t 2
    else match chmapOf (x.a.getD 2 0) with
      | none => held t 3
      | some map =>
        if fail = 3 ∨ ver < s.cfgVer then held t 3
        else
          let t := { extendSlot t 2 (x.data.getD 2 0) with
            cfgVer := ver, chmap := map, wcfg := wcfgOf (x.a.drop 3), disabled := x.tags.filter (fun c => decide (c < 128)) }
          if fail = 4 then held t 4
          else
            let t := extendSlot t 1 (x.data.getD 1 0)
            if fail = 5 then held (logFree t 107 4 3) 5
            else if fail = 6 then held t 6
            else .next t

/-! ### Power (R409) -/

/-- POWER_CAP (R409): a clock of 1.2 to 1.8 GHz in steps of 100 MHz. Event data: MHz. -/
def execPowerCap (s : State) : Out :=
  let m := s.inp.a.headD 0
  if m < 1200 ∨ 1800 < m ∨ m % 100 ≠ 0 ∨ 2 ≤ s.power then .next s
  else .next { s with power := 1, mhz := m }

/-- No resident stook and no queued record. -/
def idle (s : State) : Bool :=
  s.stooks.isEmpty && s.recQ.isEmpty && s.launches.isEmpty &&
  s.lqueues.all (fun q => q.2.tail == q.2.taken || q.2.stopped)

/-- IDLE_ENTRY (R409): after 1 ms with no stook and no record. -/
def execIdleEntry (s : State) : Out :=
  if idle s = true ∧ s.power < 2 ∧ s.busyAt + 1000000 ≤ s.time then .next { s with power := 2 } else .next s

/-- IDLE_EXIT (R409): a record has arrived. -/
def execIdleExit (s : State) : Out :=
  if s.power = 2 ∧ idle s = false then .next { s with power := 0, mhz := 1800 } else .next s

/-- THERMAL_TRIP (R409, R376). Event data: die. -/
def execThermalTrip (s : State) : Out :=
  if s.halted then .next { s with power := 3 } else .next { haltDevice s with power := 3 }

/-! ### Host accesses (R99, R105, R121, R399, R406) -/

/-- The host, as who asks: its node in replies is 256, and no core's L1 is its own. -/
def hostAsker : Asker := ⟨256, 0, 0, 128⟩

/-- What the host's link carries back: status, the place, and data of so many bytes. -/
def hostReply (s : State) (pa status len : Nat) (words : List Nat) : State := reply s hostAsker 32 pa status len words

/-- A SYSTEM register of the device, which BAR0 shows too (R31, R399). -/
def deviceCreg (c : Nat) : Bool := cregAssigned c && (c = 0x200 || c = 0x201 || (decide (0x1000 ≤ c) && decide (c < 0x1C00)))

/-- The host writes a SYSTEM register through BAR0 (R399): as an MTC does, but that a CHMAP that would stall or trap, and a LNK.PARK that
would trap, are refused; a read-only one discards the write (R4). -/
def hostCreg (s : State) (c : Nat) (v : Word) : Option State :=
  if c = 0x200 then some { s with chcon := writeChcon s.chcon v }
  else if c = 0x201 then
    if s.remap.isSome || (List.range 11).any (dieDeclared s) then none
    else if v.toNat = chmapWord s.chmap then some s
    else (oneMove s v).map (fun k => { s with remap := some ⟨k, s.chmap.getD k 0, false⟩ })
  else if c < 0x1400 then
    (writeLink (portNow s ((c - 0x1000) / 32)) s.time (c % 32) v).map (fun x => portPut s ((c - 0x1000) / 32) x)
  else some s

/-- HOST_ACCESS (R399): operation 0 CXL.mem read, 1 CXL.mem write, 2 PCIe AtomicOp, 3 a CXL.cache snoop of a host line, whose
sectors leave the cluster caches for the host's memory, 4 a read of a doorbell page, 5 a read of the mailbox, 6 and 7 a read and a
write of a SYSTEM register in BAR0. Before the last step of boot only the mailbox answers, with the step and its cause (R404). Event
data: operation, PA (4: offset in BAR 2; 6, 7: register number); list: for a read the bytes; for a write the bytes themselves; for
an AtomicOp 0 FetchAdd, 1 Swap or 2 CAS, its size, operand and compare value; for a register the value.
Log 80: DESIGN CHOICE. -/
def execHostAccess (s : State) : Out :=
  let op := s.inp.a.headD 0
  let pa := s.inp.a.getD 1 0
  let h := s.inp.data
  let g := fun n => h.getD n 0
  let no : Out := .next (hostReply s pa 1 0 [])
  let yes : State → Nat → List Nat → Out := fun s n l => .next (hostReply s pa 0 n l)
  if s.bootFail && op ≠ 5 then no
  else match op with
    | 0 =>
      if hbmEnd < pa + g 0 then no
      else
        let s := eccRead s true pa (g 0)
        yes s (g 0) (tagOut (rdTags s true pa (g 0)) :: (rdBytes s true pa (g 0)).map (·.toNat))
    | 1 =>
      if hbmEnd < pa + h.length then no else yes (writeMasked s true pa (asBytes h) (2 ^ h.length - 1) none) 0 []
    | 2 =>
      if hbmEnd < pa + g 1 ∨ 2 < g 0 ∨ (g 1 ≠ 4 ∧ g 1 ≠ 8) ∨ pa % g 1 ≠ 0 then no
      else
        let a : Acc := { lane := 0, va := 0, loc := pa, coh := true, l1 := false, ord := 1, size := g 1, data := wd (g 2),
                         cmp := wd (g 3), pr := false }
        let k : AtOp := if g 0 = 0 then .add else if g 0 = 1 then .xch else .cas
        let (x, s) := atPerform s 128 k (if g 1 = 8 then 2 else 0) a
        yes s (g 1) [tagOut x.2.2, x.2.1.toNat]
    | 3 =>
      let s := if locClass pa = 1 then (List.range 2).foldl (fun s j => writeBack s (pa / 64 * 2 + j)) s else s
      if locClass pa = 1 then yes s 64 ((rdBytes s false (pa / 64 * 64) 64).map (·.toNat)) else yes s 0 []
    | 4 =>
      let r := ringOf s (pa / 4096)
      if pa % 4096 = 0x808 then yes s 8 [r.fprod.toNat + r.fcons.toNat * 2 ^ 32]
      else if pa % 4096 = 0x800 then yes s 8 [0]
      else if pa % 4096 < 128 ∧ pa % 8 = 0 then yes s 8 [(lqGet s (pa / 4096 * 16 + pa % 4096 / 8)).tail.toNat]
      else no
    | 5 => yes s 48 [s.boot, s.bootCause, s.loader.toNat]
    | 6 => if deviceCreg pa then yes s 8 [(readCreg s pa).toNat] else no
    | 7 =>
      if deviceCreg pa = false then no
      else match hostCreg s pa (wd (g 0)) with
        | some t => yes t 0 []
        | none => .next (hostReply s pa 2 0 [])
    | _ => no

end Sys2Proof.Machine
end

