-- ==== Sys2Proof/Machine/Vector.lean ====
section
/-!
DEFINITION. Vector arithmetic (08 R164 to R173, R179): the two-operand family, unary operations, MOV, LID, the
immediate forms and RNG.
-/
namespace Sys2Proof.Machine

open Sys2Proof

/-- Integer and float types but FP8 (R160). -/
def okArith (et : Nat) : Bool := isInt et || isFloat et

/-- Every type but Q4X and S8 (R160). -/
def okBits (et : Nat) : Bool := et ≤ 12

/-- A lane rule that is an exact integer operation, or a float operation rounded once (R161, R164). -/
def arith (s : State) (d : Nat) (a b : Word) (i : Nat) (fi : Int → Int → Int)
    (ff : Fmt → Rnd → FV → FV → FRes) : LRes :=
  let et := etOf s
  match fmtOf et with
  | some f => floatRes (ff f (laneRnd s d i false) (elemFV et a) (elemFV et b))
  | none => intRes et (satOf s) (fi (elemInt et a) (elemInt et b))

/-- ADD's lane rule (R164). -/
def addRule (s : State) (d : Nat) (a b : Word) (i : Nat) : LRes := arith s d a b i (· + ·) fadd

/-- SUB's lane rule (R164). -/
def subRule (s : State) (d : Nat) (a b : Word) (i : Nat) : LRes :=
  arith s d a b i (· - ·) (fun f r x y => fadd f r x (fneg y))

/-- MUL's lane rule (R164). -/
def mulRule (s : State) (d : Nat) (a b : Word) (i : Nat) : LRes := arith s d a b i (· * ·) fmul

/-- MULH's lane rule (R164): bits 2n-1 to n of the exact product; never saturates. -/
def mulhRule (s : State) (_ : Nat) (a b : Word) (_ : Nat) : LRes :=
  let et := etOf s
  { val := formInt et (elemInt et a * elemInt et b / 2 ^ etBits et) }

/-- MAD's lane rule (R164, R165): c is Vd before the instruction. -/
def madRule (s : State) (d : Nat) (a b : Word) (i : Nat) : LRes :=
  let et := etOf s
  let c := rawV s et d i
  match fmtOf et with
  | some f => floatRes (fmad f (laneRnd s d i false) (elemFV et a) (elemFV et b) (elemFV et c))
  | none => intRes et (satOf s) (elemInt et a * elemInt et b + elemInt et c)

/-- The signed divide overflow of width n (R169). -/
def divOvInt (et : Nat) (a b : Int) : Bool := isSigned et && a = etMin et && b = -1

/-- DIV's lane rule (R169). -/
def divRule (s : State) (d : Nat) (a b : Word) (i : Nat) : LRes :=
  let et := etOf s
  match fmtOf et with
  | some f => floatRes (fdiv f (laneRnd s d i false) (elemFV et a) (elemFV et b))
  | none =>
    let x := elemInt et a
    let y := elemInt et b
    if y = 0 then { val := formInt et (-1), flags := fDZ, div := true }
    else if divOvInt et x y then { val := formInt et x, flags := fDOV, div := true }
    else { val := formInt et (x.tdiv y) }

/-- REM's lane rule (R169). -/
def remRule (s : State) (_ : Nat) (a b : Word) (_ : Nat) : LRes :=
  let et := etOf s
  let x := elemInt et a
  let y := elemInt et b
  if y = 0 then { val := formInt et x, flags := fDZ, div := true }
  else if divOvInt et x y then { val := 0, flags := fDOV, div := true }
  else { val := formInt et (x.tmod y) }

/-- The first float value is ordered below the second, -0 below +0 (R167). -/
def fbelow (a b : FV) : Bool :=
  match a, b with
  | .fin x 0 _, .fin y 0 _ => x && !y
  | _, _ => fltV a b

/-- MIN and MAX of floats (R167): an operand's code, or the canonical NaN; invalid for a signalling NaN. -/
def fminmax (f : Fmt) (max : Bool) (ca cb : Nat) (a b : FV) : LRes :=
  let sig := anySig [a, b]
  let code :=
    if anyNan [a] then (if anyNan [b] then nanCode f else cb)
    else if anyNan [b] then ca
    else if max then (if fbelow a b then cb else ca) else (if fbelow b a then cb else ca)
  { val := wd code, flags := if sig then fINV else 0, inv := sig }

/-- MIN's and MAX's lane rule (R164, R167). -/
def minmaxRule (max : Bool) (s : State) (_ : Nat) (a b : Word) (_ : Nat) : LRes :=
  let et := etOf s
  match fmtOf et with
  | some f => fminmax f max (elemBits et a) (elemBits et b) (elemFV et a) (elemFV et b)
  | none =>
    let x := elemInt et a
    let y := elemInt et b
    { val := formInt et (if max then (if x < y then y else x) else (if y < x then y else x)) }

/-- A bitwise lane rule (R164): the element's bits and no others. -/
def bitRule (f : Nat → Nat → Nat) (s : State) (_ : Nat) (a b : Word) (_ : Nat) : LRes :=
  let et := etOf s
  { val := formBits et (f (elemBits et a) (elemBits et b)) }

/-- SHL by k (R166). -/
def shlBy (et : Nat) (sat : Bool) (a : Word) (k : Nat) : LRes := intRes et sat (elemInt et a * 2 ^ k)

/-- SHR by k (R166): logical over the element width. -/
def shrBy (et : Nat) (a : Word) (k : Nat) : LRes := { val := formInt et (elemBits et a / 2 ^ k : Nat) }

/-- SAR by k (R166): arithmetic over the element width. -/
def sarBy (et : Nat) (a : Word) (k : Nat) : LRes := { val := formInt et (sx (etBits et) (elemBits et a) / 2 ^ k) }

/-- SHL's lane rule (R166). -/
def shlRule (s : State) (_ : Nat) (a b : Word) (_ : Nat) : LRes := shlBy (etOf s) (satOf s) a (b.toNat % 64)

/-- SHR's lane rule (R166). -/
def shrRule (s : State) (_ : Nat) (a b : Word) (_ : Nat) : LRes := shrBy (etOf s) a (b.toNat % 64)

/-- SAR's lane rule (R166). -/
def sarRule (s : State) (_ : Nat) (a b : Word) (_ : Nat) : LRes := sarBy (etOf s) a (b.toNat % 64)

/-- A two-operand instruction (R164): its lane rule over Va and the second operand. -/
def vec2 (i : Instr) (ok : Nat → Bool) (readD : Bool) (rule : State → Nat → Word → Word → Nat → LRes)
    (d a : Nat) (b : Src) (s : State) : Out :=
  lanewise i ok d [.v a, b] readD (fun s l => rule s d (rawV s (etOf s) a l) (srcRaw s (etOf s) b l) l) s

/-- SEL's lanes (R168): the slot's mask alone. -/
def slotLanes (s : State) : List Nat := (List.range (wOf s)).filter (bit (slotOf s).mask)

/-- SEL (R168): Va where the guard's bit is set, else b; bits unchanged. -/
def sel (i : Instr) (d a : Nat) (b : Src) (s : State) : Out :=
  let et := etOf s
  let wide := is64 et
  run i { vr := regs wide a ++ srcV wide b, vw := regs wide d, sr := srcS b }
    (fun s =>
      if okBits et = false then illegal s i
      else if wide ∧ (d % 2 = 1 ∨ a % 2 = 1 ∨ oddSrc b = true) then illegal s i
      else lanesEnd s i et d ((slotLanes s).map (fun l =>
        (l, { val := formBits et (elemBits et (if bit (guardOf s) l then rawV s et a l else srcRaw s et b l)) })))) s

/-- ADD (R164). -/
def execAdd (d a b : Nat) (s : State) : Out := vec2 (.add d a b) okArith false addRule d a (.v b) s

/-- ADD with a scalar broadcast (R37, R164). -/
def execAddScalar (d a b : Nat) (s : State) : Out := vec2 (.addScalar d a b) okArith false addRule d a (.s b) s

/-- SUB (R164). -/
def execSub (d a b : Nat) (s : State) : Out := vec2 (.sub d a b) okArith false subRule d a (.v b) s

/-- SUB with a scalar broadcast (R37, R164). -/
def execSubScalar (d a b : Nat) (s : State) : Out := vec2 (.subScalar d a b) okArith false subRule d a (.s b) s

/-- MUL (R164). -/
def execMul (d a b : Nat) (s : State) : Out := vec2 (.mul d a b) okArith false mulRule d a (.v b) s

/-- MUL with a scalar broadcast (R37, R164). -/
def execMulScalar (d a b : Nat) (s : State) : Out := vec2 (.mulScalar d a b) okArith false mulRule d a (.s b) s

/-- MULH (R164). -/
def execMulh (d a b : Nat) (s : State) : Out := vec2 (.mulh d a b) isInt false mulhRule d a (.v b) s

/-- MULH with a scalar broadcast (R37, R164). -/
def execMulhScalar (d a b : Nat) (s : State) : Out := vec2 (.mulhScalar d a b) isInt false mulhRule d a (.s b) s

/-- MAD (R164, R165). -/
def execMad (d a b : Nat) (s : State) : Out := vec2 (.mad d a b) okArith true madRule d a (.v b) s

/-- MAD with a scalar broadcast (R37, R164, R165). -/
def execMadScalar (d a b : Nat) (s : State) : Out := vec2 (.madScalar d a b) okArith true madRule d a (.s b) s

/-- DIV (R169). -/
def execDiv (d a b : Nat) (s : State) : Out := vec2 (.div d a b) okArith false divRule d a (.v b) s

/-- DIV with a scalar broadcast (R37, R169). -/
def execDivScalar (d a b : Nat) (s : State) : Out := vec2 (.divScalar d a b) okArith false divRule d a (.s b) s

/-- REM (R169). -/
def execRem (d a b : Nat) (s : State) : Out := vec2 (.rem d a b) isInt false remRule d a (.v b) s

/-- REM with a scalar broadcast (R37, R169). -/
def execRemScalar (d a b : Nat) (s : State) : Out := vec2 (.remScalar d a b) isInt false remRule d a (.s b) s

/-- MIN (R167). -/
def execMin (d a b : Nat) (s : State) : Out := vec2 (.min d a b) okArith false (minmaxRule false) d a (.v b) s

/-- MIN with a scalar broadcast (R37, R167). -/
def execMinScalar (d a b : Nat) (s : State) : Out := vec2 (.minScalar d a b) okArith false (minmaxRule false) d a (.s b) s

/-- MAX (R167). -/
def execMax (d a b : Nat) (s : State) : Out := vec2 (.max d a b) okArith false (minmaxRule true) d a (.v b) s

/-- MAX with a scalar broadcast (R37, R167). -/
def execMaxScalar (d a b : Nat) (s : State) : Out := vec2 (.maxScalar d a b) okArith false (minmaxRule true) d a (.s b) s

/-- AND (R164). -/
def execAnd (d a b : Nat) (s : State) : Out := vec2 (.and d a b) okBits false (bitRule Nat.land) d a (.v b) s

/-- AND with a scalar broadcast (R37, R164). -/
def execAndScalar (d a b : Nat) (s : State) : Out := vec2 (.andScalar d a b) okBits false (bitRule Nat.land) d a (.s b) s

/-- OR (R164). -/
def execOr (d a b : Nat) (s : State) : Out := vec2 (.or d a b) okBits false (bitRule Nat.lor) d a (.v b) s

/-- OR with a scalar broadcast (R37, R164). -/
def execOrScalar (d a b : Nat) (s : State) : Out := vec2 (.orScalar d a b) okBits false (bitRule Nat.lor) d a (.s b) s

/-- XOR (R164). -/
def execXor (d a b : Nat) (s : State) : Out := vec2 (.xor d a b) okBits false (bitRule Nat.xor) d a (.v b) s

/-- XOR with a scalar broadcast (R37, R164). -/
def execXorScalar (d a b : Nat) (s : State) : Out := vec2 (.xorScalar d a b) okBits false (bitRule Nat.xor) d a (.s b) s

/-- SHL (R166). -/
def execShl (d a b : Nat) (s : State) : Out := vec2 (.shl d a b) isInt false shlRule d a (.v b) s

/-- SHL with a scalar broadcast (R37, R166). -/
def execShlScalar (d a b : Nat) (s : State) : Out := vec2 (.shlScalar d a b) isInt false shlRule d a (.s b) s

/-- SHR (R166). -/
def execShr (d a b : Nat) (s : State) : Out := vec2 (.shr d a b) isInt false shrRule d a (.v b) s

/-- SHR with a scalar broadcast (R37, R166). -/
def execShrScalar (d a b : Nat) (s : State) : Out := vec2 (.shrScalar d a b) isInt false shrRule d a (.s b) s

/-- SAR (R166). -/
def execSar (d a b : Nat) (s : State) : Out := vec2 (.sar d a b) isInt false sarRule d a (.v b) s

/-- SAR with a scalar broadcast (R37, R166). -/
def execSarScalar (d a b : Nat) (s : State) : Out := vec2 (.sarScalar d a b) isInt false sarRule d a (.s b) s

/-- SEL (R168). -/
def execSel (d a b : Nat) (s : State) : Out := sel (.sel d a b) d a (.v b) s

/-- SEL with a scalar broadcast (R37, R168). -/
def execSelScalar (d a b : Nat) (s : State) : Out := sel (.selScalar d a b) d a (.s b) s

/-- A one-operand lane rule over Va. -/
def vec1 (i : Instr) (ok : Nat → Bool) (d a : Nat) (f : State → Word → LRes) (s : State) : Out :=
  lanewise i ok d [.v a] false (fun s l => f s (rawV s (etOf s) a l)) s

/-- The sign bit's place in a float element. -/
def signBit (et : Nat) : Nat := 2 ^ (etBits et - 1)

/-- ABS (R170). -/
def execAbs (d a : Nat) (s : State) : Out :=
  vec1 (.abs d a) okBits d a (fun s x =>
    let et := etOf s
    if isInt et then intRes et (satOf s) (if isSigned et then ((elemInt et x).natAbs : Int) else elemInt et x)
    else { val := wd (elemBits et x % signBit et) }) s

/-- NEG (R170). -/
def execNeg (d a : Nat) (s : State) : Out :=
  vec1 (.neg d a) okBits d a (fun s x =>
    let et := etOf s
    if isInt et then intRes et (satOf s) (-(elemInt et x))
    else { val := wd ((elemBits et x).xor (signBit et)) }) s

/-- NOT (R170). -/
def execNot (d a : Nat) (s : State) : Out :=
  vec1 (.not d a) okBits d a (fun s x =>
    let et := etOf s
    { val := formBits et (2 ^ etBits et - 1 - elemBits et x) }) s

/-- Leading zeros of x within n bits. -/
def clzN (n x : Nat) : Nat := if x = 0 then n else n - 1 - x.log2

/-- One bits of x within n bits. -/
def popN : Nat → Nat → Nat
  | 0, _ => 0
  | n + 1, x => x % 2 + popN n (x / 2)

/-- CLZ (R170). -/
def execClz (d a : Nat) (s : State) : Out :=
  vec1 (.clz d a) isInt d a (fun s x => { val := wd (clzN (etBits (etOf s)) (elemBits (etOf s) x)) }) s

/-- POPC (R170). -/
def execPopc (d a : Nat) (s : State) : Out :=
  vec1 (.popc d a) isInt d a (fun s x => { val := wd (popN (etBits (etOf s)) (elemBits (etOf s) x)) }) s

/-- MOV (R171): the whole lane or pair, bits unchanged. -/
def execMov (d b : Nat) (s : State) : Out :=
  lanewise (.mov d b) okBits d [.v b] false (fun s l => { val := srcRaw s (etOf s) (.v b) l }) s

/-- MOV of a scalar (R37, R171). -/
def execMovScalar (d b : Nat) (s : State) : Out :=
  lanewise (.movScalar d b) okBits d [.s b] false (fun s l => { val := srcRaw s (etOf s) (.s b) l }) s

/-- LID (R172): the lane index, one register whatever MD.ET holds. -/
def execLid (d : Nat) (s : State) : Out :=
  run (.lid d) { vw := [d] } (fun s => lanesEnd s (.lid d) 1 d ((activeLanes s).map (fun l => (l, { val := wd l })))) s

/-- An immediate form of ADD or MUL (R173): the exact integer, or the integer converted to the float format. -/
def immArith (i : Instr) (d a : Nat) (n : Int) (fi : Int → Int → Int) (ff : Fmt → Rnd → FV → FV → FRes) (s : State) : Out :=
  lanewise i okArith d [.v a] false (fun s l =>
    let et := etOf s
    let x := rawV s et a l
    match fmtOf et with
    | some f => floatRes (ff f (laneRnd s d l false) (elemFV et x) (signedV false n 1))
    | none => intRes et (satOf s) (fi (elemInt et x) n)) s

/-- ADDI (R173). -/
def execAddi (d a : Nat) (n : Int) (s : State) : Out := immArith (.addi d a n) d a n (· + ·) fadd s

/-- MULI (R173). -/
def execMuli (d a : Nat) (n : Int) (s : State) : Out := immArith (.muli d a n) d a n (· * ·) fmul s

/-- ANDI (R173): the immediate reduced to the element width. -/
def execAndi (d a : Nat) (n : Int) (s : State) : Out :=
  vec1 (.andi d a n) isInt d a (fun s x =>
    let et := etOf s
    { val := formInt et ((elemBits et x).land (toField (etBits et) n) : Nat) }) s

/-- SHLI (R173). -/
def execShli (d a n : Nat) (s : State) : Out :=
  vec1 (.shli d a n) isInt d a (fun s x => shlBy (etOf s) (satOf s) x n) s

/-- SHRI (R173). -/
def execShri (d a n : Nat) (s : State) : Out := vec1 (.shri d a n) isInt d a (fun s x => shrBy (etOf s) x n) s

/-- SARI (R173). -/
def execSari (d a n : Nat) (s : State) : Out := vec1 (.sari d a n) isInt d a (fun s x => sarBy (etOf s) x n) s

/-- The four words of RNG for a lane (R179). -/
def rngLane (s : State) (a : Nat) (key : Word) (l : Nat) : Lane × Lane × Lane × Lane :=
  culm10 (getV s a l) (getV s (a + 1) l) (BitVec.ofNat 32 l) (s.cur.rngstream.setWidth 32) (key.setWidth 32)
    ((key >>> 32).setWidth 32)

/-- RNG (R179): 128 bits per active lane into Vd to Vd+3; it ignores MD but for the guard. -/
def execRng (d a b : Nat) (s : State) : Out :=
  run (.rng d a b) { vr := [a, a + 1], vw := [d, d + 1, d + 2, d + 3], sr := [b] }
    (fun s =>
      if a % 2 = 1 then illegal s (.rng d a b)
      else
        let key := getS s b
        .done (advance (onCur s (fun g => (activeLanes s).foldl (fun g l =>
          let (w, x, y, z) := rngLane s a key l
          putVA (putVA (putVA (putVA g d l w) (d + 1) l x) (d + 2) l y) (d + 3) l z) g)))) s

end Sys2Proof.Machine
end

