-- ==== Sys2Proof/Machine/Lanes.lean ====
section
/-!
DEFINITION. Lanes, masks, shuffles and ordered merge (09 R181 to R193).
-/
namespace Sys2Proof.Machine

open Sys2Proof

/-! ### Comparisons (R183) -/

/-- A relation of integers by condition code; LTU to GEU take the last two operands, the zero-extended elements. -/
def condInt (c : Nat) (a b ua ub : Int) : Bool :=
  match c with
  | 0 => a = b
  | 1 => a ≠ b
  | 2 => a < b
  | 3 => a ≤ b
  | 4 => b < a
  | 5 => b ≤ a
  | 6 => ua < ub
  | 7 => ua ≤ ub
  | 8 => ub < ua
  | _ => ub ≤ ua

/-- A relation of floats by condition code, and whether it raises invalid. -/
def condFlt (c : Nat) (a b : FV) : Bool × Bool :=
  let un := anyNan [a, b]
  let lt := fltV a b
  let gt := fltV b a
  let r := match c with
    | 0 => !un && !lt && !gt
    | 1 => !un && (lt || gt)
    | 2 => lt
    | 3 => !un && !gt
    | 4 => gt
    | 5 => !un && !lt
    | 6 => un || lt
    | 7 => un || !gt
    | 8 => un || gt
    | 9 => un || !lt
    | 10 => !un
    | _ => un
  (r, anySig [a, b] || (un && decide (2 ≤ c ∧ c ≤ 5)))

/-- The second operand of a comparison: a register element, a broadcast scalar, or the immediate. -/
inductive CmpSrc where
  | reg (b : Src)
  | imm (n : Int)
deriving DecidableEq, Repr

/-- One lane's comparison: the bit, and whether it raised invalid. -/
def cmpLane (s : State) (c a : Nat) (b : CmpSrc) (l : Nat) : Bool × Bool :=
  let et := etOf s
  let x := rawV s et a l
  if isInt et then
    let y := match b with
      | .reg r => srcRaw s et r l
      | .imm n => wi n
    (condInt c (elemInt et x) (elemInt et y) (elemBits et x) (elemBits et y), false)
  else
    let y := match b with
      | .reg r => elemFV et (srcRaw s et r l)
      | .imm n => signedV false n 1
    condFlt c (elemFV et x) y

/-- Bits of a mask replaced among some lanes. -/
def mergeMask (old new act : Word) : Word := (old &&& ~~~act) ||| (new &&& act)

/-- A comparison into a mask (R183): active bits written; FPINV after Md is written. -/
def compare (i : Instr) (m c a : Nat) (b : CmpSrc) (s : State) : Out :=
  let et := etOf s
  let wide := is64 et
  let r := match b with
    | .reg x => x
    | .imm _ => .s 0
  run i { vr := regs wide a ++ srcV wide r, sr := srcS r }
    (fun s =>
      if okBits et = false ∨ (isInt et = true ∧ (c = 10 ∨ c = 11)) then illegal s i
      else if wide ∧ (a % 2 = 1 ∨ oddSrc r = true) then illegal s i
      else
        let act := activeLanes s
        let res := act.map (fun l => (l, cmpLane s c a b l))
        let bits := maskList ((res.filter (·.2.1)).map (·.1))
        let inv := maskList ((res.filter (·.2.2)).map (·.1))
        let t := setM s m (mergeMask (getM s m) bits (activeOf s))
        let t := advance (if inv = 0 then t else setFlags t fINV)
        if fptOf s = true ∧ inv ≠ 0 then .after t (afterTrap FPINV (pcOf s) i inv) else .done t) s

/-- CMP (R183). -/
def execCmp (m c a b : Nat) (s : State) : Out := compare (.cmp m c a b) m c a (.reg (.v b)) s

/-- CMP with a scalar broadcast (R37, R183). -/
def execCmpScalar (m c a b : Nat) (s : State) : Out := compare (.cmpScalar m c a b) m c a (.reg (.s b)) s

/-- CMPI (R183). -/
def execCmpi (m c a : Nat) (n : Int) (s : State) : Out := compare (.cmpi m c a n) m c a (.imm n) s

/-! ### Mask registers (R184, R185) -/

/-- A mask operation (R184): a scalar instruction over whole mask registers. -/
def mlog (i : Instr) (d a b : Nat) (f : Word → Word → Word) (s : State) : Out :=
  run i {} (fun s => .done (advance (setM s d (f (getM s a) (getM s b))))) s

/-- MAND (R184). -/
def execMand (d a b : Nat) (s : State) : Out := mlog (.mand d a b) d a b (fun x y => x &&& y) s

/-- MOR (R184). -/
def execMor (d a b : Nat) (s : State) : Out := mlog (.mor d a b) d a b (fun x y => x ||| y) s

/-- MXOR (R184). -/
def execMxor (d a b : Nat) (s : State) : Out := mlog (.mxor d a b) d a b (fun x y => x ^^^ y) s

/-- MANDN (R184). -/
def execMandn (d a b : Nat) (s : State) : Out := mlog (.mandn d a b) d a b (fun x y => x &&& ~~~y) s

/-- MNOT (R184). -/
def execMnot (d a : Nat) (s : State) : Out := mlog (.mnot d a) d a 0 (fun x _ => ~~~x) s

/-- MSET (R185). -/
def execMset (k a : Nat) (s : State) : Out :=
  run (.mset k a) { sr := [a] } (fun s => .done (advance (setM s k (getS s a)))) s

/-- A scalar result from a mask (R185). -/
def maskTo (i : Instr) (d k : Nat) (f : State → Word → Word) (s : State) : Out :=
  run i { sw := [d] } (fun s => .done (advance (setS s d (f s (getM s k))))) s

/-- MGET (R185). -/
def execMget (d k : Nat) (s : State) : Out := maskTo (.mget d k) d k (fun _ m => m) s

/-- MPOP (R185). -/
def execMpop (d k : Nat) (s : State) : Out := maskTo (.mpop d k) d k (fun _ m => wd (popN 64 m.toNat)) s

/-- The lowest set bit below n, from bit i; n where there is none. -/
def lowBit (m : Word) (n : Nat) : Nat := ((List.range n).find? (bit m)).getD n

/-- MFST (R185). -/
def execMfst (d k : Nat) (s : State) : Out := maskTo (.mfst d k) d k (fun s m => wd (lowBit m (wOf s))) s

/-! ### Shuffles (R186) -/

/-- A shuffle: active lane i receives lane `src i` of Va, or its own where that is outside the sheaf (R186);
the lane is copied as it stands: log 16. -/
def shuffle (i : Instr) (d a : Nat) (b : Option Nat) (sr : List Nat) (src : State → Nat → Int) (s : State) : Out :=
  let et := etOf s
  let wide := is64 et
  let vr := (b.map (regs wide)).getD []
  run i { vr := regs wide a ++ vr, vw := regs wide d, sr := sr }
    (fun s =>
      if okBits et = false ∨ (wide = true ∧ (d % 2 = 1 ∨ a % 2 = 1 ∨ b.any (fun n => n % 2 = 1) = true)) then illegal s i
      else lanesEnd s i et d ((activeLanes s).map (fun l =>
        let k := src s l
        let k := if 0 ≤ k ∧ k < wOf s then k.toNat else l
        (l, { val := rawV s et a k })))) s

/-- SHFL (R186): the source lane is a 32-bit lane of Vb; of a 64-bit type Vb is an even pair, whose low register holds it (R181,
log 20).
Log 20: DEDUCED. -/
def execShfl (d a b : Nat) (s : State) : Out :=
  shuffle (.shfl d a b) d a (some b) [] (fun s l => ((getV s b l).toNat : Int)) s

/-- SHFL with a scalar source lane (R186). -/
def execShflScalar (d a b : Nat) (s : State) : Out :=
  shuffle (.shflScalar d a b) d a none [b] (fun s _ => (((getS s b).toNat % 2 ^ 32 : Nat) : Int)) s

/-- SHFLX (R186): on two's complement; negative when k is. -/
def execShflx (d a : Nat) (k : Int) (s : State) : Out :=
  shuffle (.shflx d a k) d a none [] (fun _ l => (wd l ^^^ wi k).toInt) s

/-- SHFLU (R186). -/
def execShflu (d a : Nat) (k : Int) (s : State) : Out := shuffle (.shflu d a k) d a none [] (fun _ l => (l : Int) - k) s

/-- SHFLD (R186). -/
def execShfld (d a : Nat) (k : Int) (s : State) : Out := shuffle (.shfld d a k) d a none [] (fun _ l => (l : Int) + k) s

/-- BCAST (R186). -/
def execBcast (d a : Nat) (k : Int) (s : State) : Out := shuffle (.bcast d a k) d a none [] (fun _ _ => k) s

/-! ### The lane tree (R187 to R189) -/

/-- What a reduction or scan combines with. -/
inductive RedOp where
  | sum | min | max | and | or | xor
deriving DecidableEq, Repr

/-- A node's value: an exact integer, or a float code; and the active lanes beneath it. -/
structure NVal where
  int : Int
  code : Nat
  lanes : Word
deriving DecidableEq, Repr

/-- A node with what its subtree raised: flags, and the lanes beneath the steps that raised invalid. -/
structure Node where
  val : Option NVal
  flags : BitVec 8
  inv : Word
deriving DecidableEq, Repr

/-- An integer bit operation in two's complement of the type's width. -/
def bitInt (et : Nat) (f : Nat → Nat → Nat) (x y : Int) : Int :=
  elemInt et (wd (f (elemBits et (wi x)) (elemBits et (wi y))))

/-- The integer operation of a reduction. -/
def redInt (op : RedOp) (et : Nat) (x y : Int) : Int :=
  match op with
  | .sum => x + y
  | .min => if y < x then y else x
  | .max => if x < y then y else x
  | .and => bitInt et Nat.land x y
  | .or => bitInt et Nat.lor x y
  | .xor => bitInt et Nat.xor x y

/-- The float operation of a reduction (R187, R188). -/
def redFlt (op : RedOp) (et : Nat) (r : Rnd) (x y : Nat) : LRes :=
  match fmtOf et with
  | none => { val := 0 }
  | some f =>
    match op with
    | .min => fminmax f false x y (fdecode f x) (fdecode f y)
    | .max => fminmax f true x y (fdecode f x) (fdecode f y)
    | _ => floatRes (fadd f r (fdecode f x) (fdecode f y))

/-- comb of R187 at draw lane ln of register va. -/
def comb (s : State) (op : RedOp) (va ln : Nat) (p q : Node) : Node :=
  let et := etOf s
  let flags := p.flags ||| q.flags
  let inv := p.inv ||| q.inv
  match p.val, q.val with
  | none, v => ⟨v, flags, inv⟩
  | v, none => ⟨v, flags, inv⟩
  | some x, some y =>
    let m := x.lanes ||| y.lanes
    if isInt et then ⟨some ⟨redInt op et x.int y.int, 0, m⟩, flags, inv⟩
    else
      let r := redFlt op et ⟨rmOf s, if rmOf s = 5 then draw s.cur.srkey s.cur.srseq (wd va) ln 0 else 0⟩ x.code y.code
      ⟨some ⟨0, r.val.toNat, m⟩, flags ||| r.flags, if r.inv then inv ||| m else inv⟩

/-- node(l, j) of R187. -/
def treeNode (s : State) (op : RedOp) (a va : Nat) : Nat → Nat → Node
  | 0, j =>
    let et := etOf s
    if bit (activeOf s) j = true ∧ j < wOf s then
      ⟨some ⟨elemInt et (rawV s et a j), elemBits et (rawV s et a j), wd (2 ^ j)⟩, 0, 0⟩
    else ⟨none, 0, 0⟩
  | l + 1, j =>
    comb s op va (64 * (l + 1) + j) (treeNode s op a va l (2 * j)) (treeNode s op a va l (2 * j + 1))

/-- The prefix of the first n lanes (R189): aligned blocks, largest first, folded at ln; `l` counts levels down. -/
def prefixNode (s : State) (op : RedOp) (a va ln n : Nat) : Nat → Nat → Node → Node
  | 0, off, acc => if n % 2 = 1 then comb s op va ln acc (treeNode s op a va 0 off) else acc
  | l + 1, off, acc =>
    if n / 2 ^ (l + 1) % 2 = 1 then
      prefixNode s op a va ln n l (off + 2 ^ (l + 1)) (comb s op va ln acc (treeNode s op a va (l + 1) (off / 2 ^ (l + 1))))
    else prefixNode s op a va ln n l off acc

/-- The identity of a reduction (R188). -/
def redIdent (op : RedOp) (et : Nat) : NVal :=
  match fmtOf et with
  | none => match op with
    | .min => ⟨etMax et, 0, 0⟩
    | .max => ⟨etMin et, 0, 0⟩
    | .and => ⟨-1, 0, 0⟩
    | _ => ⟨0, 0, 0⟩
  | some f => match op with
    | .min => ⟨0, infCode f, 0⟩
    | .max => ⟨0, signCode f true + infCode f, 0⟩
    | _ => ⟨0, 0, 0⟩

/-- The register form and flags of a reduction's or scan's value (R188, R189). -/
def redValue (s : State) (op : RedOp) (n : Node) : Word × BitVec 8 :=
  let et := etOf s
  let v := n.val.getD (redIdent op et)
  if isInt et then
    let r := intRes et (op = .sum && satOf s) v.int
    (r.val, n.flags ||| r.flags)
  else (wd v.code, n.flags)

/-- A reduction into Sd (R188). -/
def reduce (i : Instr) (op : RedOp) (ok : Nat → Bool) (d a : Nat) (s : State) : Out :=
  let et := etOf s
  let wide := is64 et
  run i { vr := regs wide a, sw := [d] }
    (fun s =>
      if ok et = false ∨ (wide = true ∧ a % 2 = 1) then illegal s i
      else
        let n := treeNode s op a (256 + d) (wOf s).log2 0
        let (v, f) := redValue s op n
        let t := advance (setFlags (setS s d v) f)
        if fptOf s = true ∧ n.inv ≠ 0 then .after t (afterTrap FPINV (pcOf s) i n.inv) else .done t) s

/-- RSUM (R188). -/
def execRsum (d a : Nat) (s : State) : Out := reduce (.rsum d a) .sum okArith d a s

/-- RMIN (R188). -/
def execRmin (d a : Nat) (s : State) : Out := reduce (.rmin d a) .min okArith d a s

/-- RMAX (R188). -/
def execRmax (d a : Nat) (s : State) : Out := reduce (.rmax d a) .max okArith d a s

/-- RAND (R188). -/
def execRand (d a : Nat) (s : State) : Out := reduce (.rand d a) .and isInt d a s

/-- ROR (R188). -/
def execRor (d a : Nat) (s : State) : Out := reduce (.ror d a) .or isInt d a s

/-- RXOR (R188). -/
def execRxor (d a : Nat) (s : State) : Out := reduce (.rxor d a) .xor isInt d a s

/-- A scan into Vd (R189): lane i receives the prefix of lanes 0 to i, or to i - 1 where `excl`. -/
def scan (i : Instr) (op : RedOp) (excl : Bool) (d a : Nat) (s : State) : Out :=
  let et := etOf s
  let wide := is64 et
  run i { vr := regs wide a, vw := regs wide d }
    (fun s =>
      if okArith et = false ∨ (wide = true ∧ (a % 2 = 1 ∨ d % 2 = 1)) then illegal s i
      else
        let act := activeLanes s
        let nodes := act.map (fun l =>
          let n := if excl then l else l + 1
          (l, if n = 0 then (⟨none, 0, 0⟩ : Node) else prefixNode s op a d (512 + (n - 1)) n 6 0 ⟨none, 0, 0⟩))
        let inv := nodes.foldl (fun m p => m ||| p.2.inv) 0
        let res := nodes.map (fun p => (p.1, redValue s op p.2))
        let t := onCur s (fun g => res.foldl (fun g p => putElem g et d p.1 p.2.1) g)
        let t := advance (setFlags t (res.foldl (fun f p => f ||| p.2.2) 0))
        if fptOf s = true ∧ inv ≠ 0 then .after t (afterTrap FPINV (pcOf s) i inv) else .done t) s

/-- PSUM (R189). -/
def execPsum (d a : Nat) (s : State) : Out := scan (.psum d a) .sum false d a s

/-- PSUMX (R189). -/
def execPsumx (d a : Nat) (s : State) : Out := scan (.psumx d a) .sum true d a s

/-- PMIN (R189). -/
def execPmin (d a : Nat) (s : State) : Out := scan (.pmin d a) .min false d a s

/-- PMAX (R189). -/
def execPmax (d a : Nat) (s : State) : Out := scan (.pmax d a) .max false d a s

/-! ### Sorting and merging (R190 to R193) -/

/-- The types of a key (R190). -/
def okKey (et : Nat) : Bool := et ≤ 3 || et = 8

/-- A key's place in the total order (R190). -/
def keyOrd (et : Nat) (x : Word) : Int :=
  if et = 8 then
    let c := elemBits et x
    let m : Nat := c % 2 ^ 31
    if 0x7F800000 < m then 2 ^ 32 else if 2 ^ 31 ≤ c then -(m : Int) - 1 else m
  else elemInt et x

/-- The keys of a register, every lane (R190). -/
def keysOf (s : State) (a : Nat) : List Int :=
  (List.range (wOf s)).map (fun l => keyOrd (etOf s) (rawV s (etOf s) a l))

/-- The rank of lane l in a stable sort. -/
def rankOf (ks : List Int) (l : Nat) : Nat :=
  let k := ks.getD l 0
  ((List.range ks.length).filter (fun j => ks.getD j 0 < k || (ks.getD j 0 = k && j < l))).length

/-- The lane that holds the key of rank p (R191). -/
def lanesByRank (ks : List Int) (p : Nat) : Nat :=
  ((List.range ks.length).find? (fun l => rankOf ks l == p)).getD 0

/-- A 32-bit index in a lane. -/
def putLanes (s : State) (d : Nat) (l : List (Nat × Nat)) : State :=
  onCur s (fun a => l.foldl (fun a p => putVA a d p.1 (BitVec.ofNat 32 p.2)) a)

/-- SORT (R191). -/
def execSort (d a : Nat) (s : State) : Out :=
  let et := etOf s
  let wide := is64 et
  run (.sort d a) { vr := regs wide a, vw := regs wide d }
    (fun s =>
      if okKey et = false ∨ (wide = true ∧ (a % 2 = 1 ∨ d % 2 = 1)) then illegal s (.sort d a)
      else
        let ks := keysOf s a
        lanesEnd s (.sort d a) et d ((activeLanes s).map (fun p => (p, { val := rawV s et a (lanesByRank ks p) })))) s

/-- SORTI (R191). -/
def execSorti (d a : Nat) (s : State) : Out :=
  let et := etOf s
  let wide := is64 et
  run (.sorti d a) { vr := regs wide a, vw := [d] }
    (fun s =>
      if okKey et = false ∨ (wide = true ∧ a % 2 = 1) then illegal s (.sorti d a)
      else
        let ks := keysOf s a
        .done (advance (putLanes s d ((activeLanes s).map (fun p => (p, lanesByRank ks p)))))) s

/-- The merge of R192 as its source indices: n more elements, with ia of Va and ib of Vb taken. -/
def mergeSrc (w : Nat) (ka kb : List Int) : Nat → Nat → Nat → List Nat
  | 0, _, _ => []
  | n + 1, ia, ib =>
    if ib = w ∨ (ia < w ∧ ¬(kb.getD ib 0 < ka.getD ia 0)) then ia :: mergeSrc w ka kb n (ia + 1) ib
    else (w + ib) :: mergeSrc w ka kb n ia (ib + 1)

/-- The source indices of Va's and Vb's merge. -/
def mergeOf (s : State) (a b : Nat) : List Nat :=
  mergeSrc (wOf s) (keysOf s a) (keysOf s b) (2 * wOf s) 0 0

/-- An element of the merge by its source index. -/
def mergeElem (s : State) (a b src : Nat) : Word :=
  if src < wOf s then rawV s (etOf s) a src else rawV s (etOf s) b (src - wOf s)

/-- MRGLO and MRGHI (R192): elements from `off` on. -/
def mergeHalf (i : Instr) (d a b : Nat) (off : State → Nat) (s : State) : Out :=
  let et := etOf s
  let wide := is64 et
  run i { vr := regs wide a ++ regs wide b, vw := regs wide d }
    (fun s =>
      if okKey et = false ∨ (wide = true ∧ (a % 2 = 1 ∨ b % 2 = 1 ∨ d % 2 = 1)) then illegal s i
      else
        let src := mergeOf s a b
        lanesEnd s i et d ((activeLanes s).map (fun p => (p, { val := mergeElem s a b (src.getD (off s + p) 0) })))) s

/-- MRGLO (R192). -/
def execMrglo (d a b : Nat) (s : State) : Out := mergeHalf (.mrglo d a b) d a b (fun _ => 0) s

/-- MRGHI (R192). -/
def execMrghi (d a b : Nat) (s : State) : Out := mergeHalf (.mrghi d a b) d a b wOf s

/-- MRGI (R193). -/
def execMrgi (d a b : Nat) (s : State) : Out :=
  let et := etOf s
  let wide := is64 et
  run (.mrgi d a b) { vr := regs wide a ++ regs wide b, vw := [d, d + 1] }
    (fun s =>
      if okKey et = false ∨ d % 2 = 1 ∨ (wide = true ∧ (a % 2 = 1 ∨ b % 2 = 1)) then illegal s (.mrgi d a b)
      else
        let src := mergeOf s a b
        let act := activeLanes s
        .done (advance (putLanes (putLanes s d (act.map (fun p => (p, src.getD p 0)))) (d + 1)
          (act.map (fun p => (p, src.getD (wOf s + p) 0)))))) s

end Sys2Proof.Machine
end

