-- ==== Sys2Proof/Machine/Reliability.lean ====
section
/-!
DEFINITION. Error windows, retired row-groups and acknowledged banks (26 R392, R395, R396).
-/
namespace Sys2Proof.Machine

open Sys2Proof

/-- ERROR_WINDOW_BOUNDARY (R395): the unit's counts are cleared at the end of a window. Event data: unit.
Log 79: DEDUCED. -/
def execErrorWindowBoundary (s : State) : Out := .next (rollWin s (s.inp.a.headD 0))

/-- ROW_GROUP_RETIRE (R395, R396): a row-group whose corrected sectors stand at LIMIT is retired. Event data: controller,
row-group. -/
def execRowGroupRetire (s : State) : Out :=
  let u := s.inp.a.headD 0
  .next (if 31 < u then s else retireRow s u (u * 2 ^ 40 + s.inp.a.getD 1 0 % 2 ^ 40))

/-- BANK_ACKNOWLEDGE (R392): the error-policy service reads and clears a bank. Event data: unit.
Log 45: DEDUCED. -/
def execBankAcknowledge (s : State) : Out :=
  let u := s.inp.a.headD 0
  if 127 < u ∨ (108 ≤ u ∧ u ≤ 111) then .next s
  else
    let b := smGet Bank.empty s.banks u
    .next { s with banks := smPut Bank.empty s.banks u { b with count := 0, ovf := 0, sev := 0, gen := b.gen + 1 } }

end Sys2Proof.Machine
end

