-- ==== Sys2Proof/Machine/Scalar.lean ====
section
/-!
DEFINITION. The scalar unit (07 R142 to R146): SALU, the immediate forms, the constant loads, SGET and VSET.
-/
namespace Sys2Proof.Machine

open Sys2Proof

/-- A scalar operation of two registers (R142): one write of Sd, the slot goes on. -/
def salu (i : Instr) (d a b : Nat) (f : Word → Word → Word) (s : State) : Out :=
  run i { sr := [a, b], sw := [d], eng := true } (fun s => .done (advance (setS s d (f (getS s a) (getS s b))))) s

/-- A scalar operation of one register or an immediate (R142, R144). -/
def salu1 (i : Instr) (d a : Nat) (f : Word → Word) (s : State) : Out :=
  run i { sr := [a], sw := [d], eng := true } (fun s => .done (advance (setS s d (f (getS s a))))) s

/-- A scalar division (R143): quotient or remainder with its fault flag. -/
def sdivide (i : Instr) (d a b : Nat) (f : Word → Word → Word × BitVec 8) (s : State) : Out :=
  run i { sr := [a, b], sw := [d], eng := true }
    (fun s => divideEnd s i d (f (getS s a) (getS s b)).1 (f (getS s a) (getS s b)).2) s

/-- The truth of a comparison as a scalar (R142). -/
def truth (b : Bool) : Word := if b then 1 else 0

/-- A shift amount, bits(b, 5, 0) (R142). -/
def shAmt (b : Word) : Nat := b.toNat % 64

/-- Leading zero bits, 0 to 64 (R142). -/
def clzWord (x : Word) : Nat := if x = 0 then 64 else 63 - x.toNat.log2

/-- One bits of the low n bits. -/
def popNat : Nat → Nat → Nat
  | 0, _ => 0
  | n + 1, x => x % 2 + popNat n (x / 2)

/-- The signed divide overflow of R143: the most negative value by -1. -/
def divOv (a b : Word) : Bool := a = BitVec.ofNat 64 (2 ^ 63) && b = BitVec.allOnes 64

/-- SDIV (R143). -/
def sdivVal (a b : Word) : Word × BitVec 8 :=
  if b = 0 then (BitVec.allOnes 64, fDZ)
  else if divOv a b then (BitVec.ofNat 64 (2 ^ 63), fDOV)
  else (wi (a.toInt.tdiv b.toInt), 0)

/-- SREM (R143). -/
def sremVal (a b : Word) : Word × BitVec 8 :=
  if b = 0 then (a, fDZ)
  else if divOv a b then (0, fDOV)
  else (wi (a.toInt.tmod b.toInt), 0)

/-- SDIVU (R143). -/
def sdivuVal (a b : Word) : Word × BitVec 8 :=
  if b = 0 then (BitVec.allOnes 64, fDZ) else (wd (a.toNat / b.toNat), 0)

/-- SREMU (R143). -/
def sremuVal (a b : Word) : Word × BitVec 8 :=
  if b = 0 then (a, fDZ) else (wd (a.toNat % b.toNat), 0)

/-- SADD (R142, sub 0). -/
def execSadd (d a b : Nat) (s : State) : Out := salu (.sadd d a b) d a b (fun x y => x + y) s

/-- SSUB (R142, sub 1). -/
def execSsub (d a b : Nat) (s : State) : Out := salu (.ssub d a b) d a b (fun x y => x - y) s

/-- SMUL (R142, sub 2). -/
def execSmul (d a b : Nat) (s : State) : Out := salu (.smul d a b) d a b (fun x y => x * y) s

/-- SMULH (R142, sub 3: the high half of the signed product). -/
def execSmulh (d a b : Nat) (s : State) : Out := salu (.smulh d a b) d a b (fun x y => wi (x.toInt * y.toInt / 2 ^ 64)) s

/-- SMULHU (R142, sub 4: the high half of the unsigned product). -/
def execSmulhu (d a b : Nat) (s : State) : Out := salu (.smulhu d a b) d a b (fun x y => wd (x.toNat * y.toNat / 2 ^ 64)) s

/-- SDIV (R143). -/
def execSdiv (d a b : Nat) (s : State) : Out := sdivide (.sdiv d a b) d a b sdivVal s

/-- SDIVU (R143). -/
def execSdivu (d a b : Nat) (s : State) : Out := sdivide (.sdivu d a b) d a b sdivuVal s

/-- SREM (R143). -/
def execSrem (d a b : Nat) (s : State) : Out := sdivide (.srem d a b) d a b sremVal s

/-- SREMU (R143). -/
def execSremu (d a b : Nat) (s : State) : Out := sdivide (.sremu d a b) d a b sremuVal s

/-- SAND (R142, sub 9). -/
def execSand (d a b : Nat) (s : State) : Out := salu (.sand d a b) d a b (fun x y => x &&& y) s

/-- SOR (R142, sub 10). -/
def execSor (d a b : Nat) (s : State) : Out := salu (.sor d a b) d a b (fun x y => x ||| y) s

/-- SXOR (R142, sub 11). -/
def execSxor (d a b : Nat) (s : State) : Out := salu (.sxor d a b) d a b (fun x y => x ^^^ y) s

/-- SSHL (R142, sub 12). -/
def execSshl (d a b : Nat) (s : State) : Out := salu (.sshl d a b) d a b (fun x y => x <<< shAmt y) s

/-- SSHR (R142, sub 13). -/
def execSshr (d a b : Nat) (s : State) : Out := salu (.sshr d a b) d a b (fun x y => x >>> shAmt y) s

/-- SSAR (R142, sub 14). -/
def execSsar (d a b : Nat) (s : State) : Out := salu (.ssar d a b) d a b (fun x y => x.sshiftRight (shAmt y)) s

/-- SMIN (R142, sub 15). -/
def execSmin (d a b : Nat) (s : State) : Out := salu (.smin d a b) d a b (fun x y => if x.toInt ≤ y.toInt then x else y) s

/-- SMINU (R142, sub 16). -/
def execSminu (d a b : Nat) (s : State) : Out := salu (.sminu d a b) d a b (fun x y => if x.toNat ≤ y.toNat then x else y) s

/-- SMAX (R142, sub 17). -/
def execSmax (d a b : Nat) (s : State) : Out := salu (.smax d a b) d a b (fun x y => if x.toInt ≤ y.toInt then y else x) s

/-- SMAXU (R142, sub 18). -/
def execSmaxu (d a b : Nat) (s : State) : Out := salu (.smaxu d a b) d a b (fun x y => if x.toNat ≤ y.toNat then y else x) s

/-- SSEQ (R142, sub 19). -/
def execSseq (d a b : Nat) (s : State) : Out := salu (.sseq d a b) d a b (fun x y => truth (x == y)) s

/-- SSNE (R142, sub 20). -/
def execSsne (d a b : Nat) (s : State) : Out := salu (.ssne d a b) d a b (fun x y => truth (x != y)) s

/-- SSLT (R142, sub 21). -/
def execSslt (d a b : Nat) (s : State) : Out := salu (.sslt d a b) d a b (fun x y => truth (decide (x.toInt < y.toInt))) s

/-- SSLTU (R142, sub 22). -/
def execSsltu (d a b : Nat) (s : State) : Out := salu (.ssltu d a b) d a b (fun x y => truth (decide (x.toNat < y.toNat))) s

/-- SCLZ (R142, sub 23). -/
def execSclz (d a : Nat) (s : State) : Out := salu1 (.sclz d a) d a (fun x => wd (clzWord x)) s

/-- SPOPC (R142, sub 24). -/
def execSpopc (d a : Nat) (s : State) : Out := salu1 (.spopc d a) d a (fun x => wd (popNat 64 x.toNat)) s

/-- SADDI (R144). -/
def execSaddi (d a : Nat) (n : Int) (s : State) : Out := salu1 (.saddi d a n) d a (fun x => x + wi n) s

/-- SANDI (R144). -/
def execSandi (d a : Nat) (n : Int) (s : State) : Out := salu1 (.sandi d a n) d a (fun x => x &&& wi n) s

/-- SORI (R144). -/
def execSori (d a : Nat) (n : Int) (s : State) : Out := salu1 (.sori d a n) d a (fun x => x ||| wi n) s

/-- SXORI (R144). -/
def execSxori (d a : Nat) (n : Int) (s : State) : Out := salu1 (.sxori d a n) d a (fun x => x ^^^ wi n) s

/-- SSLTI (R144). -/
def execSslti (d a : Nat) (n : Int) (s : State) : Out := salu1 (.sslti d a n) d a (fun x => truth (decide (x.toInt < n))) s

/-- SSHLI (R144). -/
def execSshli (d a n : Nat) (s : State) : Out := salu1 (.sshli d a n) d a (fun x => x <<< n) s

/-- SSHRI (R144). -/
def execSshri (d a n : Nat) (s : State) : Out := salu1 (.sshri d a n) d a (fun x => x >>> n) s

/-- SSARI (R144). -/
def execSsari (d a n : Nat) (s : State) : Out := salu1 (.ssari d a n) d a (fun x => x.sshiftRight n) s

/-- SLI (R145). -/
def execSli (d : Nat) (n : Int) (s : State) : Out :=
  run (.sli d n) { sw := [d], eng := true } (fun s => .done (advance (setS s d (wi n)))) s

/-- The slot goes on after a long form, two words on (R34). -/
def advance2 (s : State) : State := setPc s (pcOf s + 8)

/-- SLIW (R145): Sd := sext(imm32, 32). -/
def execSliw (d : Nat) (n : Int) (s : State) : Out :=
  run (.sliw d n) { sw := [d], eng := true } (fun s => .done (advance2 (setS s d (wi n)))) s

/-- SLIH (R145): the high half replaced, the low half kept. -/
def execSlih (d n : Nat) (s : State) : Out :=
  run (.slih d n) { sr := [d], sw := [d] }
    (fun s => .done (advance2 (setS s d (wd (n * 2 ^ 32 + (getS s d).toNat % 2 ^ 32))))) s

/-- What SGET reads of lane l of Va (R146): a pair for a 64-bit type, else a 32-bit lane sign-extended for the
signed types and zero-extended for every other; zero beyond the sheaf. -/
def sgetVal (s : State) (a l : Nat) : Word :=
  if wOf s ≤ l then 0
  else if is64 (etOf s) then getV2 s a l
  else if etOf s = 0 ∨ etOf s = 4 ∨ etOf s = 6 then (getV s a l).signExtend 64
  else (getV s a l).setWidth 64

/-- The V registers a 32-bit or 64-bit operand occupies (R22). -/
def vregs (wide : Bool) (n : Nat) : List Nat := if wide then [n, n + 1] else [n]

/-- SGET (R146). -/
def execSget (d a b : Nat) (s : State) : Out :=
  let wide := is64 (etOf s)
  run (.sget d a b) { vr := vregs wide a, sr := [b], sw := [d] }
    (fun s => if wide ∧ a % 2 = 1 then illegal s (.sget d a b)
      else .done (advance (setS s d (sgetVal s a (shAmt (getS s b)))))) s

/-- VSET (R146). -/
def execVset (d a b : Nat) (s : State) : Out :=
  let wide := is64 (etOf s)
  run (.vset d a b) { vw := vregs wide d, sr := [a, b] }
    (fun s =>
      let l := shAmt (getS s b)
      if wide ∧ d % 2 = 1 then illegal s (.vset d a b)
      else if wOf s ≤ l then .done (advance s)
      else if wide then .done (advance (setV2 s d l (getS s a)))
      else .done (advance (setV s d l ((getS s a).setWidth 32)))) s

end Sys2Proof.Machine
end

