-- ==== Sys2Proof/Machine/Sfu.lean ====
section
/-!
DEFINITION. The special functions (08 R176 to R178). SQRT and RINT are exact. The others give a value that the spec
bounds but does not fix: the part's own offset, in units of the last place from the nearest value, is the free value
Config.sfuErr, and it is taken only where the result stays within the bound (log 8). The exact value is known
to the comparison as a fraction good to far more bits than the bound needs.
-/
namespace Sys2Proof.Machine

open Sys2Proof

/-- A special function's exact value, for a finite nonzero input with no special value: sign, an approximating
fraction, and whether a given magnitude equals the exact value. -/
structure Target where
  neg : Bool
  n : Nat
  d : Nat
  isExact : Nat → Nat → Bool

/-- The bound of R176 on a magnitude cn / cd against n / d: k units of the last place of the exact result. -/
def withinUlp (k n d cn cd : Nat) : Bool :=
  let e := max (floorLog2 n d) (-126) - 23
  let diff := (cn * d - n * cd) + (n * cd - cn * d)
  decide (diff * 2 ^ (-e).toNat ≤ k * (cd * d) * 2 ^ e.toNat)

/-- The bound near 1 of LOG2 (R176): an absolute error of 2^(-22). -/
def withinAbs (n d cn cd : Nat) : Bool :=
  let diff := (cn * d - n * cd) + (n * cd - cn * d)
  decide (diff * 2 ^ 22 ≤ cd * d)

/-- An F32 result within its bound (R176): the nearest value moved by the part's own offset, where that stays
within the bound.
Log 104: DEDUCED. -/
def sfuF32 (fn x : Nat) (within : Nat → Nat → Bool) (t : Target) : FRes :=
  let c0 := (packMag fF32 ⟨0, 0⟩ false (floorLog2 t.n t.d) (scaleFloor t.n t.d)).code
  let c1 := ((c0 : Int) + Config.sfuErr fn x).toNat
  let ok : Nat → Bool := fun c => decide (c < infCode fF32) &&
    (match fdecode fF32 c with
     | .fin _ n d => within n d
     | _ => false)
  let c := if ok c1 then c1 else c0
  match fdecode fF32 c with
  | .fin _ n d =>
    let inx := !t.isExact n d
    ⟨signCode fF32 t.neg + c, false, false, inx && decide (c < 2 ^ 23), inx, false⟩
  | _ => ⟨signCode fF32 t.neg + c, false, true, false, true, false⟩

/-- An F32 result, by MD.RM where it overflows or falls below the normal range (R176).
Log 59: DEDUCED. -/
def sfuResult (r : Rnd) (fn x : Nat) (within : Nat → Nat → Bool) (t : Target) : FRes :=
  let e := floorLog2 t.n t.d
  if 127 < e ∨ e < -126 then packMag fF32 r t.neg e (scaleFloor t.n t.d) else sfuF32 fn x within t

/-! ### Approximations far finer than the bounds -/

/-- 2^f for f = m / 2^64, in units of 2^(-96): the product of the square roots of two that m's bits select. -/
def exp2Frac : Nat → Nat → Nat → Nat → Nat
  | 0, _, _, acc => acc
  | k + 1, m, root, acc =>
    -- root is 2^(2^-(64-k)) in units of 2^-96; the top remaining bit of m selects it
    exp2Frac k (m % 2 ^ k) (isqrt (root * 2 ^ 96)) (if 2 ^ k ≤ m then acc * root / 2 ^ 96 else acc)

/-- 2^(n / d) with its sign, as a fraction: the integer part as a power of two. -/
def exp2Approx (neg : Bool) (n d : Nat) : Nat × Nat :=
  let m : Int := (snum neg n * 2 ^ 64) / d
  let i := m / 2 ^ 64
  let f := (m % 2 ^ 64).toNat
  let p := exp2Frac 64 f (isqrt (2 * 2 ^ 192)) (2 ^ 96)
  (p * 2 ^ i.toNat, 2 ^ 96 * 2 ^ (-i).toNat)

/-- Fraction bits of log2 of m in [1, 2), m in units of 2^(-192), by squaring; one bit for each of the first
argument's steps. -/
def log2Bits : Nat → Nat → Nat → Nat
  | 0, _, acc => acc
  | k + 1, m, acc =>
    let q := m * m / 2 ^ 192
    if 2 ^ 193 ≤ q then log2Bits k (q / 2) (2 * acc + 1) else log2Bits k q (2 * acc)

/-- log2 (n / d), in units of 2^(-96). -/
def log2Approx (n d : Nat) : Int :=
  let e := floorLog2 n d
  let (m, _) := scaleFloor n d (192 - e)
  e * 2 ^ 96 + (log2Bits 96 m 0 : Int)

/-- pi in units of 2^(-240), truncated. -/
def pi240 : Nat := 0x3243f6a8885a308d313198a2e03707344a4093822299f31d0082efa98ec4e

/-- The alternating series of sine: terms from the k-th on, in units of 2^(-240); `y2` is y squared. -/
def sinTerms : Nat → Nat → Nat → Nat → Int → Int
  | 0, _, _, _, acc => acc
  | f + 1, k, term, y2, acc =>
    let t := term * y2 / 2 ^ 240 / ((2 * k) * (2 * k + 1))
    sinTerms f (k + 1) t y2 (if k % 2 = 1 then acc - t else acc + t)

/-- sin(pi q) for a fraction q = n / d in (0, 1/2), in units of 2^(-240). -/
def sinPi (n d : Nat) : Nat :=
  let y := pi240 * n / d
  (sinTerms 40 1 y (y * y / 2 ^ 240) y).toNat

/-- The targets of the bounded functions, for inputs without a special value (R176, R177). -/
def rcpTarget (neg : Bool) (n d : Nat) : Target := ⟨neg, d, n, fun a b => a * n = b * d⟩

/-- 1 / sqrt (n / d). -/
def rsqTarget (n d : Nat) : Target :=
  ⟨false, isqrt (d * 2 ^ 600 / n), 2 ^ 300, fun a b => a * a * n = b * b * d⟩

/-- 2^x; exact only for an integer x. -/
def exp2Target (neg : Bool) (n d : Nat) : Target :=
  let (a, b) := exp2Approx neg n d
  ⟨false, a, b, fun p q => n % d = 0 && p * b = a * q⟩

/-- log2 x; exact only for a power of two. -/
def log2Target (n d : Nat) : Target :=
  let v := log2Approx n d
  ⟨decide (v < 0), v.natAbs, 2 ^ 96, fun p q => v.natAbs % 2 ^ 96 = 0 && p * 2 ^ 96 = v.natAbs * q⟩

/-- x - 2·round_half_even(x/2) (R178), as a sign and a fraction over d. -/
def reduceArg (neg : Bool) (n d : Nat) : Int :=
  let (m, _) := roundNat ⟨0, 0⟩ false n (2 * d)
  let r : Int := (n : Int) - 2 * m * d
  if neg then -r else r

/-- sin(pi r) for r = k / d in [-1, 1], not a multiple of 1/2. -/
def sinTarget (k : Int) (d : Nat) : Target :=
  let a := k.natAbs
  let a := if d < 2 * a then d - a else a
  ⟨decide (k < 0), sinPi a d, 2 ^ 240, fun _ _ => false⟩

/-- cos(pi r) for r = k / d in [-1, 1], not a multiple of 1/2. -/
def cosTarget (k : Int) (d : Nat) : Target :=
  let a := k.natAbs
  if d < 2 * a then ⟨true, sinPi (2 * a - d) (2 * d), 2 ^ 240, fun _ _ => false⟩
  else ⟨false, sinPi (d - 2 * a) (2 * d), 2 ^ 240, fun _ _ => false⟩

/-- |n / d - 1| ≥ 2^(-7) (R176). -/
def farFromOne (n d : Nat) : Bool := decide (d ≤ ((n - d) + (d - n)) * 2 ^ 7)

/-- A finite F32 value as a result. -/
def f32Of (neg : Bool) (n d : Nat) : FRes := fround fF32 ⟨0, 0⟩ neg n d

/-- An F32 value of the bounded functions, by sub-operation (R176, R177, R178); x is the input's code.
Log 103: DEDUCED. -/
def sfuVal (r : Rnd) (fn x : Nat) (v : FV) : FRes :=
  match v with
  | .nan s => fnan fF32 s
  | .inf neg =>
    match fn with
    | 0 => fexact (signCode fF32 neg)
    | 1 => if neg then finvalid fF32 else fexact 0
    | 3 => if neg then fexact 0 else fexact (infCode fF32)
    | 4 => if neg then finvalid fF32 else fexact (infCode fF32)
    | _ => finvalid fF32
  | .fin neg n d =>
    if n = 0 then
      match fn with
      | 0 => fexact (signCode fF32 neg + infCode fF32)
      | 1 => fexact (signCode fF32 neg + infCode fF32)
      | 3 => f32Of false 1 1
      | 4 => fexact (signCode fF32 true + infCode fF32)
      | 5 => fexact (signCode fF32 neg)
      | _ => f32Of false 1 1
    else
      match fn with
      | 0 =>
        if n = d then f32Of neg 1 1
        else let t := rcpTarget neg n d; sfuResult r fn x (withinUlp 1 t.n t.d) t
      | 1 =>
        if neg then finvalid fF32
        else if n = d then f32Of false 1 1
        else let t := rsqTarget n d; sfuResult r fn x (withinUlp 2 t.n t.d) t
      | 3 =>
        if neg = false ∧ n = d then f32Of false 2 1
        else if 4096 * d < n then packMag fF32 r false (if neg then -4096 else 4096) (fun _ => (0, false))
        else let t := exp2Target neg n d; sfuResult r fn x (withinUlp 2 t.n t.d) t
      | 4 =>
        if neg then finvalid fF32
        else if n = d then fexact 0
        else
          let t := log2Target n d
          sfuResult r fn x (if farFromOne n d then withinUlp 2 t.n t.d else withinAbs t.n t.d) t
      | 5 =>
        let k := reduceArg neg n d
        if k = 0 ∨ k.natAbs = d then fexact (signCode fF32 neg)
        else if 2 * k.natAbs = d then f32Of (decide (k < 0)) 1 1
        else let t := sinTarget k d; sfuResult r fn x (withinUlp (if (8 * k.natAbs) % d = 0 then 1 else 2) t.n t.d) t
      | _ =>
        let k := reduceArg neg n d
        if k = 0 then f32Of false 1 1
        else if k.natAbs = d then f32Of true 1 1
        else if 2 * k.natAbs = d then fexact 0
        else let t := cosTarget k d; sfuResult r fn x (withinUlp (if (8 * k.natAbs) % d = 0 then 1 else 2) t.n t.d) t

/-- The F32 value that a 16-bit format rounds (R176), standing outside F32's range where the exact result does. -/
def sfuMid (a : FRes) : FV :=
  let neg := decide (2 ^ 31 ≤ a.code)
  if a.ovf then .fin neg (2 ^ 200) 1
  else if a.unf = true ∧ a.code % 2 ^ 31 = 0 then .fin neg 1 (2 ^ 200)
  else fdecode fF32 a.code

/-- A bounded function's lane (R176): F32 as it is; a 16-bit format rounds the F32 value once by MD.RM, and its
flags are that rounding's, with invalid from the input. -/
def sfuLane (s : State) (fn d : Nat) (raw : Word) (l : Nat) : LRes :=
  let et := etOf s
  let x := elemBits et raw
  match fmtOf et with
  | none => { val := 0 }
  | some f =>
    let v := fdecode f x
    let r := laneRnd s d l false
    if et = 8 then floatRes (sfuVal r fn x v)
    else
      let a := sfuVal ⟨0, 0⟩ fn x v
      let b := fpack f r (sfuMid a)
      floatRes { b with inv := a.inv }

/-- SQRT's lane (R176, R177). -/
def sqrtLane (s : State) (d : Nat) (raw : Word) (l : Nat) : LRes :=
  match fmtOf (etOf s) with
  | none => { val := 0 }
  | some f =>
    floatRes (match fdecode f (elemBits (etOf s) raw) with
      | .nan g => fnan f g
      | .inf neg => if neg then finvalid f else fexact (infCode f)
      | .fin neg n q =>
        if n = 0 then fexact (signCode f neg)
        else if neg then finvalid f else fsqrtMag f (laneRnd s d l false) n q)

/-- RINT's lane (R177, R178): no flag but invalid for a signalling NaN. -/
def rintLane (s : State) (d : Nat) (raw : Word) (l : Nat) : LRes :=
  match fmtOf (etOf s) with
  | none => { val := 0 }
  | some f =>
    floatRes (match fdecode f (elemBits (etOf s) raw) with
      | .nan g => fnan f g
      | .inf neg => fexact (signCode f neg + infCode f)
      | .fin neg n q => fexact (fround f ⟨0, 0⟩ neg (roundNat (laneRnd s d l false) neg n q).1 1).code)

/-- A special function over the active lanes (R176). -/
def sfu (i : Instr) (d a : Nat) (f : State → Nat → Word → Nat → LRes) (s : State) : Out :=
  lanewise i isFloat d [.v a] false (fun s l => f s d (rawV s (etOf s) a l) l) s

/-- RCP (R176, R177). -/
def execRcp (d a : Nat) (s : State) : Out := sfu (.rcp d a) d a (fun s => sfuLane s 0) s

/-- RSQ (R176, R177). -/
def execRsq (d a : Nat) (s : State) : Out := sfu (.rsq d a) d a (fun s => sfuLane s 1) s

/-- EXP2 (R176, R177). -/
def execExp2 (d a : Nat) (s : State) : Out := sfu (.exp2 d a) d a (fun s => sfuLane s 3) s

/-- LOG2 (R176, R177). -/
def execLog2 (d a : Nat) (s : State) : Out := sfu (.log2 d a) d a (fun s => sfuLane s 4) s

/-- SINP (R176, R177). -/
def execSinp (d a : Nat) (s : State) : Out := sfu (.sinp d a) d a (fun s => sfuLane s 5) s

/-- COSP (R176, R177). -/
def execCosp (d a : Nat) (s : State) : Out := sfu (.cosp d a) d a (fun s => sfuLane s 6) s

/-- SQRT (R176, R177). -/
def execSqrt (d a : Nat) (s : State) : Out := sfu (.sqrt d a) d a sqrtLane s

/-- RINT (R177, R178). -/
def execRint (d a : Nat) (s : State) : Out := sfu (.rint d a) d a rintLane s

end Sys2Proof.Machine
end

