-- ==== Sys2Proof/Machine/Dispatch.lean ====
section
/-!
DEFINITION. One arm per constructor of Instr: its meaning, or its refusal by name while it has none.
-/
namespace Sys2Proof.Machine

open Sys2Proof

/-- The meaning of every instruction and event. -/
def exec (i : Instr) (s : State) : Host.Outcome State Fault Refusal :=
  match i with
  | .trap n => Sys2Proof.Machine.execTrap n s
  | .sadd d a b => Sys2Proof.Machine.execSadd d a b s
  | .ssub d a b => Sys2Proof.Machine.execSsub d a b s
  | .smul d a b => Sys2Proof.Machine.execSmul d a b s
  | .smulh d a b => Sys2Proof.Machine.execSmulh d a b s
  | .smulhu d a b => Sys2Proof.Machine.execSmulhu d a b s
  | .sdiv d a b => Sys2Proof.Machine.execSdiv d a b s
  | .sdivu d a b => Sys2Proof.Machine.execSdivu d a b s
  | .srem d a b => Sys2Proof.Machine.execSrem d a b s
  | .sremu d a b => Sys2Proof.Machine.execSremu d a b s
  | .sand d a b => Sys2Proof.Machine.execSand d a b s
  | .sor d a b => Sys2Proof.Machine.execSor d a b s
  | .sxor d a b => Sys2Proof.Machine.execSxor d a b s
  | .sshl d a b => Sys2Proof.Machine.execSshl d a b s
  | .sshr d a b => Sys2Proof.Machine.execSshr d a b s
  | .ssar d a b => Sys2Proof.Machine.execSsar d a b s
  | .smin d a b => Sys2Proof.Machine.execSmin d a b s
  | .sminu d a b => Sys2Proof.Machine.execSminu d a b s
  | .smax d a b => Sys2Proof.Machine.execSmax d a b s
  | .smaxu d a b => Sys2Proof.Machine.execSmaxu d a b s
  | .sseq d a b => Sys2Proof.Machine.execSseq d a b s
  | .ssne d a b => Sys2Proof.Machine.execSsne d a b s
  | .sslt d a b => Sys2Proof.Machine.execSslt d a b s
  | .ssltu d a b => Sys2Proof.Machine.execSsltu d a b s
  | .sclz d a => Sys2Proof.Machine.execSclz d a s
  | .spopc d a => Sys2Proof.Machine.execSpopc d a s
  | .saddi d a im => Sys2Proof.Machine.execSaddi d a im s
  | .sandi d a im => Sys2Proof.Machine.execSandi d a im s
  | .sori d a im => Sys2Proof.Machine.execSori d a im s
  | .sxori d a im => Sys2Proof.Machine.execSxori d a im s
  | .sshli d a im => Sys2Proof.Machine.execSshli d a im s
  | .sshri d a im => Sys2Proof.Machine.execSshri d a im s
  | .ssari d a im => Sys2Proof.Machine.execSsari d a im s
  | .sslti d a im => Sys2Proof.Machine.execSslti d a im s
  | .sli d im => Sys2Proof.Machine.execSli d im s
  | .sliw d im => Sys2Proof.Machine.execSliw d im s
  | .slih d im => Sys2Proof.Machine.execSlih d im s
  | .sget d a b => Sys2Proof.Machine.execSget d a b s
  | .vset d a b => Sys2Proof.Machine.execVset d a b s
  | .mode m => Sys2Proof.Machine.execMode m s
  | .bra o => Sys2Proof.Machine.execBra o s
  | .call o => Sys2Proof.Machine.execCall o s
  | .jmp a im => Sys2Proof.Machine.execJmp a im s
  | .callr a im => Sys2Proof.Machine.execCallr a im s
  | .bc c h a o => Sys2Proof.Machine.execBc c h a o s
  | .split k n t j => Sys2Proof.Machine.execSplit k n t j s
  | .anyb k h o => Sys2Proof.Machine.execAnyb k h o s
  | .allb k h o => Sys2Proof.Machine.execAllb k h o s
  | .mfc d c => Sys2Proof.Machine.execMfc d c s
  | .mtc a c => Sys2Proof.Machine.execMtc a c s
  | .chmapWrite v => Sys2Proof.Machine.execChmapWrite v s
  | .nop => Sys2Proof.Machine.execNop s
  | .join => Sys2Proof.Machine.execJoin s
  | .exit => Sys2Proof.Machine.execExit s
  | .yield => Sys2Proof.Machine.execYield s
  | .safept n => Sys2Proof.Machine.execSafept n s
  | .rdv => Sys2Proof.Machine.execRdv s
  | .eend => Sys2Proof.Machine.execEend s
  | .clk d => Sys2Proof.Machine.execClk d s
  | .rft => Sys2Proof.Machine.execRft s
  | .halt => Sys2Proof.Machine.execHalt s
  | .tlbi a => Sys2Proof.Machine.execTlbi a s
  | .tlbiAll => Sys2Proof.Machine.execTlbiAll s
  | .cflush a => Sys2Proof.Machine.execCflush a s
  | .cinv a => Sys2Proof.Machine.execCinv a s
  | .fence k sc => Sys2Proof.Machine.execFence k sc s
  | .brk n => Sys2Proof.Machine.execBrk n s
  | .sysc n => Sys2Proof.Machine.execSysc n s
  | .chinj a => Sys2Proof.Machine.execChinj a s
  | .fork a b => Sys2Proof.Machine.execFork a b s
  | .spawn d a b => Sys2Proof.Machine.execSpawn d a b s
  | .cont d a b => Sys2Proof.Machine.execCont d a b s
  | .wait l sc c t => Sys2Proof.Machine.execWait l sc c t s
  | .bari n a im => Sys2Proof.Machine.execBari n a im s
  | .bara n a im => Sys2Proof.Machine.execBara n a im s
  | .barw n a im => Sys2Proof.Machine.execBarw n a im s
  | .bars n a im => Sys2Proof.Machine.execBars n a im s
  | .barx n a im => Sys2Proof.Machine.execBarx n a im s
  | .barq n d im => Sys2Proof.Machine.execBarq n d im s
  | .qinit n a im => Sys2Proof.Machine.execQinit n a im s
  | .qpush n a im => Sys2Proof.Machine.execQpush n a im s
  | .qpop n d im => Sys2Proof.Machine.execQpop n d im s
  | .qtry n d im => Sys2Proof.Machine.execQtry n d im s
  | .qgrant n a im => Sys2Proof.Machine.execQgrant n a im s
  | .qstat n d im => Sys2Proof.Machine.execQstat n d im s
  | .cpb n a => Sys2Proof.Machine.execCpb n a s
  | .cpbStatus d a => Sys2Proof.Machine.execCpbStatus d a s
  | .cpl d b a => Sys2Proof.Machine.execCpl d b a s
  | .mma t a b f g m => Sys2Proof.Machine.execMma t a b f g m s
  | .mmaClr t a b f g m => Sys2Proof.Machine.execMmaClr t a b f g m s
  | .aclr t f => Sys2Proof.Machine.execAclr t f s
  | .adrn t a b f x => Sys2Proof.Machine.execAdrn t a b f x s
  | .skupd d b a h => Sys2Proof.Machine.execSkupd d b a h s
  | .skqry d b a h => Sys2Proof.Machine.execSkqry d b a h s
  | .skadd n a b => Sys2Proof.Machine.execSkadd n a b s
  | .skclr n a => Sys2Proof.Machine.execSkclr n a s
  | .skdec n a b => Sys2Proof.Machine.execSkdec n a b s
  | .nwr d a b => Sys2Proof.Machine.execNwr d a b s
  | .nrd d a b => Sys2Proof.Machine.execNrd d a b s
  | .nred d a b => Sys2Proof.Machine.execNred d a b s
  | .ccall n a => Sys2Proof.Machine.execCcall n a s
  | .ccallStatus d a => Sys2Proof.Machine.execCcallStatus d a s
  | .xalloc d a b => Sys2Proof.Machine.execXalloc d a b s
  | .xfree d a b => Sys2Proof.Machine.execXfree d a b s
  | .xquota d a b => Sys2Proof.Machine.execXquota d a b s
  | .rng d a b => Sys2Proof.Machine.execRng d a b s
  | .add d a b => Sys2Proof.Machine.execAdd d a b s
  | .addScalar d a b => Sys2Proof.Machine.execAddScalar d a b s
  | .sub d a b => Sys2Proof.Machine.execSub d a b s
  | .subScalar d a b => Sys2Proof.Machine.execSubScalar d a b s
  | .mul d a b => Sys2Proof.Machine.execMul d a b s
  | .mulScalar d a b => Sys2Proof.Machine.execMulScalar d a b s
  | .mulh d a b => Sys2Proof.Machine.execMulh d a b s
  | .mulhScalar d a b => Sys2Proof.Machine.execMulhScalar d a b s
  | .mad d a b => Sys2Proof.Machine.execMad d a b s
  | .madScalar d a b => Sys2Proof.Machine.execMadScalar d a b s
  | .div d a b => Sys2Proof.Machine.execDiv d a b s
  | .divScalar d a b => Sys2Proof.Machine.execDivScalar d a b s
  | .rem d a b => Sys2Proof.Machine.execRem d a b s
  | .remScalar d a b => Sys2Proof.Machine.execRemScalar d a b s
  | .min d a b => Sys2Proof.Machine.execMin d a b s
  | .minScalar d a b => Sys2Proof.Machine.execMinScalar d a b s
  | .max d a b => Sys2Proof.Machine.execMax d a b s
  | .maxScalar d a b => Sys2Proof.Machine.execMaxScalar d a b s
  | .and d a b => Sys2Proof.Machine.execAnd d a b s
  | .andScalar d a b => Sys2Proof.Machine.execAndScalar d a b s
  | .or d a b => Sys2Proof.Machine.execOr d a b s
  | .orScalar d a b => Sys2Proof.Machine.execOrScalar d a b s
  | .xor d a b => Sys2Proof.Machine.execXor d a b s
  | .xorScalar d a b => Sys2Proof.Machine.execXorScalar d a b s
  | .shl d a b => Sys2Proof.Machine.execShl d a b s
  | .shlScalar d a b => Sys2Proof.Machine.execShlScalar d a b s
  | .shr d a b => Sys2Proof.Machine.execShr d a b s
  | .shrScalar d a b => Sys2Proof.Machine.execShrScalar d a b s
  | .sar d a b => Sys2Proof.Machine.execSar d a b s
  | .sarScalar d a b => Sys2Proof.Machine.execSarScalar d a b s
  | .sel d a b => Sys2Proof.Machine.execSel d a b s
  | .selScalar d a b => Sys2Proof.Machine.execSelScalar d a b s
  | .abs d a => Sys2Proof.Machine.execAbs d a s
  | .neg d a => Sys2Proof.Machine.execNeg d a s
  | .not d a => Sys2Proof.Machine.execNot d a s
  | .clz d a => Sys2Proof.Machine.execClz d a s
  | .popc d a => Sys2Proof.Machine.execPopc d a s
  | .mov d b => Sys2Proof.Machine.execMov d b s
  | .movScalar d b => Sys2Proof.Machine.execMovScalar d b s
  | .lid d => Sys2Proof.Machine.execLid d s
  | .cvt d a t => Sys2Proof.Machine.execCvt d a t s
  | .rcp d a => Sys2Proof.Machine.execRcp d a s
  | .rsq d a => Sys2Proof.Machine.execRsq d a s
  | .sqrt d a => Sys2Proof.Machine.execSqrt d a s
  | .exp2 d a => Sys2Proof.Machine.execExp2 d a s
  | .log2 d a => Sys2Proof.Machine.execLog2 d a s
  | .sinp d a => Sys2Proof.Machine.execSinp d a s
  | .cosp d a => Sys2Proof.Machine.execCosp d a s
  | .rint d a => Sys2Proof.Machine.execRint d a s
  | .addi d a im => Sys2Proof.Machine.execAddi d a im s
  | .andi d a im => Sys2Proof.Machine.execAndi d a im s
  | .shli d a im => Sys2Proof.Machine.execShli d a im s
  | .shri d a im => Sys2Proof.Machine.execShri d a im s
  | .sari d a im => Sys2Proof.Machine.execSari d a im s
  | .muli d a im => Sys2Proof.Machine.execMuli d a im s
  | .cmp m c a b => Sys2Proof.Machine.execCmp m c a b s
  | .cmpScalar m c a b => Sys2Proof.Machine.execCmpScalar m c a b s
  | .cmpi m c a im => Sys2Proof.Machine.execCmpi m c a im s
  | .mand d a b => Sys2Proof.Machine.execMand d a b s
  | .mor d a b => Sys2Proof.Machine.execMor d a b s
  | .mxor d a b => Sys2Proof.Machine.execMxor d a b s
  | .mandn d a b => Sys2Proof.Machine.execMandn d a b s
  | .mnot d a => Sys2Proof.Machine.execMnot d a s
  | .mset k a => Sys2Proof.Machine.execMset k a s
  | .mget d k => Sys2Proof.Machine.execMget d k s
  | .mpop d k => Sys2Proof.Machine.execMpop d k s
  | .mfst d k => Sys2Proof.Machine.execMfst d k s
  | .shfl d a b => Sys2Proof.Machine.execShfl d a b s
  | .shflScalar d a b => Sys2Proof.Machine.execShflScalar d a b s
  | .shflx d a im => Sys2Proof.Machine.execShflx d a im s
  | .shflu d a im => Sys2Proof.Machine.execShflu d a im s
  | .shfld d a im => Sys2Proof.Machine.execShfld d a im s
  | .bcast d a im => Sys2Proof.Machine.execBcast d a im s
  | .rsum d a => Sys2Proof.Machine.execRsum d a s
  | .rmin d a => Sys2Proof.Machine.execRmin d a s
  | .rmax d a => Sys2Proof.Machine.execRmax d a s
  | .rand d a => Sys2Proof.Machine.execRand d a s
  | .ror d a => Sys2Proof.Machine.execRor d a s
  | .rxor d a => Sys2Proof.Machine.execRxor d a s
  | .psum d a => Sys2Proof.Machine.execPsum d a s
  | .psumx d a => Sys2Proof.Machine.execPsumx d a s
  | .pmin d a => Sys2Proof.Machine.execPmin d a s
  | .pmax d a => Sys2Proof.Machine.execPmax d a s
  | .sort d a => Sys2Proof.Machine.execSort d a s
  | .sorti d a => Sys2Proof.Machine.execSorti d a s
  | .mrglo d a b => Sys2Proof.Machine.execMrglo d a b s
  | .mrghi d a b => Sys2Proof.Machine.execMrghi d a b s
  | .mrgi d a b => Sys2Proof.Machine.execMrgi d a b s
  | .lds d a z o => Sys2Proof.Machine.execLds d a z o s
  | .sts d a z o => Sys2Proof.Machine.execSts d a z o s
  | .ldaq d a c w o => Sys2Proof.Machine.execLdaq d a c w o s
  | .strl d a c w o => Sys2Proof.Machine.execStrl d a c w o s
  | .ldc d a o z => Sys2Proof.Machine.execLdc d a o z s
  | .stc d a o z => Sys2Proof.Machine.execStc d a o z s
  | .ldv d b a z h => Sys2Proof.Machine.execLdv d b a z h s
  | .stv d b a z h => Sys2Proof.Machine.execStv d b a z h s
  | .pref a l o => Sys2Proof.Machine.execPref a l o s
  | .atadd d a b h => Sys2Proof.Machine.execAtadd d a b h s
  | .atmin d a b h => Sys2Proof.Machine.execAtmin d a b h s
  | .atmax d a b h => Sys2Proof.Machine.execAtmax d a b h s
  | .atand d a b h => Sys2Proof.Machine.execAtand d a b h s
  | .ator d a b h => Sys2Proof.Machine.execAtor d a b h s
  | .atxor d a b h => Sys2Proof.Machine.execAtxor d a b h s
  | .atxch d a b h => Sys2Proof.Machine.execAtxch d a b h s
  | .atcas d a b h => Sys2Proof.Machine.execAtcas d a b h s
  | .impreciseTrapDelivery => Sys2Proof.Machine.execImpreciseTrapDelivery s
  | .memoryResponse => Sys2Proof.Machine.execMemoryResponse s
  | .storeAck => Sys2Proof.Machine.execStoreAck s
  | .frespWrite => Sys2Proof.Machine.execFrespWrite s
  | .faultReplay => Sys2Proof.Machine.execFaultReplay s
  | .faultDoorbellRepeat => Sys2Proof.Machine.execFaultDoorbellRepeat s
  | .faultRingRetry => Sys2Proof.Machine.execFaultRingRetry s
  | .epochTick => Sys2Proof.Machine.execEpochTick s
  | .pinRelease => Sys2Proof.Machine.execPinRelease s
  | .nearAtomicService => Sys2Proof.Machine.execNearAtomicService s
  | .atomicServiceRestart => Sys2Proof.Machine.execAtomicServiceRestart s
  | .copyExecute => Sys2Proof.Machine.execCopyExecute s
  | .copyComplete => Sys2Proof.Machine.execCopyComplete s
  | .followOnMma => Sys2Proof.Machine.execFollowOnMma s
  | .cplLaneLand => Sys2Proof.Machine.execCplLaneLand s
  | .tileOpStart => Sys2Proof.Machine.execTileOpStart s
  | .mmaComplete => Sys2Proof.Machine.execMmaComplete s
  | .adrnComplete => Sys2Proof.Machine.execAdrnComplete s
  | .sketchCounterStep => Sys2Proof.Machine.execSketchCounterStep s
  | .skopCounterStep => Sys2Proof.Machine.execSkopCounterStep s
  | .skqryResponse => Sys2Proof.Machine.execSkqryResponse s
  | .dieLastingFault => Sys2Proof.Machine.execDieLastingFault s
  | .errorWindowBoundary => Sys2Proof.Machine.execErrorWindowBoundary s
  | .rowGroupRetire => Sys2Proof.Machine.execRowGroupRetire s
  | .wavelengthRetire => Sys2Proof.Machine.execWavelengthRetire s
  | .bankAcknowledge => Sys2Proof.Machine.execBankAcknowledge s
  | .sequencerStart => Sys2Proof.Machine.execSequencerStart s
  | .tailWrite => Sys2Proof.Machine.execTailWrite s
  | .launchTake => Sys2Proof.Machine.execLaunchTake s
  | .recordAdmit => Sys2Proof.Machine.execRecordAdmit s
  | .stookEnd => Sys2Proof.Machine.execStookEnd s
  | .sheafSwap => Sys2Proof.Machine.execSheafSwap s
  | .sheafDisplace => Sys2Proof.Machine.execSheafDisplace s
  | .preemptRequest => Sys2Proof.Machine.execPreemptRequest s
  | .preemptDeadline => Sys2Proof.Machine.execPreemptDeadline s
  | .preemptResume => Sys2Proof.Machine.execPreemptResume s
  | .flitBoundary => Sys2Proof.Machine.execFlitBoundary s
  | .flitReceive => Sys2Proof.Machine.execFlitReceive s
  | .retry => Sys2Proof.Machine.execRetry s
  | .berThreshold => Sys2Proof.Machine.execBerThreshold s
  | .retrain => Sys2Proof.Machine.execRetrain s
  | .traindone => Sys2Proof.Machine.execTraindone s
  | .trainingTimeout => Sys2Proof.Machine.execTrainingTimeout s
  | .berWindow => Sys2Proof.Machine.execBerWindow s
  | .linkTrain => Sys2Proof.Machine.execLinkTrain s
  | .linkPark => Sys2Proof.Machine.execLinkPark s
  | .parkset => Sys2Proof.Machine.execParkset s
  | .wake => Sys2Proof.Machine.execWake s
  | .aligned => Sys2Proof.Machine.execAligned s
  | .wakeComplete => Sys2Proof.Machine.execWakeComplete s
  | .beacon => Sys2Proof.Machine.execBeacon s
  | .fabricRequest => Sys2Proof.Machine.execFabricRequest s
  | .granaryRequest => Sys2Proof.Machine.execGranaryRequest s
  | .xmemResult => Sys2Proof.Machine.execXmemResult s
  | .responseTimeout => Sys2Proof.Machine.execResponseTimeout s
  | .granaryLost => Sys2Proof.Machine.execGranaryLost s
  | .firstPacket => Sys2Proof.Machine.execFirstPacket s
  | .collectiveAbort => Sys2Proof.Machine.execCollectiveAbort s
  | .pause => Sys2Proof.Machine.execPause s
  | .resume => Sys2Proof.Machine.execResume s
  | .pauseQuotaRelease => Sys2Proof.Machine.execPauseQuotaRelease s
  | .pauseBudgetExpire => Sys2Proof.Machine.execPauseBudgetExpire s
  | .slotOccurrence => Sys2Proof.Machine.execSlotOccurrence s
  | .collectiveComplete => Sys2Proof.Machine.execCollectiveComplete s
  | .groupTableWrite => Sys2Proof.Machine.execGroupTableWrite s
  | .graticuleWrite => Sys2Proof.Machine.execGraticuleWrite s
  | .loaderRequest => Sys2Proof.Machine.execLoaderRequest s
  | .contextRegister => Sys2Proof.Machine.execContextRegister s
  | .readbackRegister => Sys2Proof.Machine.execReadbackRegister s
  | .reset => Sys2Proof.Machine.execReset s
  | .powerCap => Sys2Proof.Machine.execPowerCap s
  | .idleEntry => Sys2Proof.Machine.execIdleEntry s
  | .idleExit => Sys2Proof.Machine.execIdleExit s
  | .thermalTrip => Sys2Proof.Machine.execThermalTrip s
  | .reservedEncoding => Sys2Proof.Machine.execReservedEncoding s
  | .fetchFault => Sys2Proof.Machine.execFetchFault s
  | .hostAccess => Sys2Proof.Machine.execHostAccess s
  | .collectiveContribution => Sys2Proof.Machine.execCollectiveContribution s
  | .aclrComplete => Sys2Proof.Machine.execAclrComplete s
  | .chinjComplete => Sys2Proof.Machine.execChinjComplete s
  | .remapComplete => Sys2Proof.Machine.execRemapComplete s
  | .readbackRequest => Sys2Proof.Machine.execReadbackRequest s
  | .quoteRequest => Sys2Proof.Machine.execQuoteRequest s

end Sys2Proof.Machine
end

