-- ==== Sys2Proof/Machine/Sched.lean ====
section
/-!
DEFINITION. What the next step of the machine is: the fetch and decoding of the instruction at a slot's program counter (02
R42 to R44, 07 R150), the choice of slot (22 R365), the part's own events in a canonical order, and the choices of the
world outside.
-/
namespace Sys2Proof.Machine

open Sys2Proof

/-! ### Fetch and decode (R42 to R44, R150, R375) -/

/-- The state with the data of an event.
Log 21: DESIGN CHOICE. -/
def withInp (s : State) (x : Inp) : State := { s with inp := x }

/-- The instruction of a word pair, or ILLEGAL for a word that is none (R42), with the state that it runs in. -/
def wordInstr (s : State) (w0 w1 : Nat) : Instr × State :=
  match decodeWord w0 w1 with
  | .ok i => (i, s)
  | .error _ => (.reservedEncoding, withInp s ⟨[w0], [], []⟩)

/-- The first word of a long instruction is none whatever its second word is (R42). -/
def badFirst (w0 : Nat) : Bool :=
  match decodeWord w0 0 with
  | .ok _ => false
  | .error _ => true

/-- What the slot in focus fetches, with the state that it runs in: the first word is judged before a second one is fetched
(R43). -/
def fetched (s : State) : Instr × State :=
  let pc := pcOf s
  let fails : State → Word → List Nat → Instr × State := fun t va l => (.fetchFault, withInp (walkRead t (whoOf t.cur) va) ⟨l, [], []⟩)
  if pc.toNat % 4 ≠ 0 then (.fetchFault, withInp s ⟨[0, 0], [], []⟩)
  else match fetchWord s pc with
    | none => fails s pc [0, 0]
    | some (w0, t) =>
      if isLong w0 = true ∧ badFirst w0 = false then
        match fetchWord t (pc + 4) with
        | none => fails t (pc + 4) [1, w0]
        | some (w1, t) => wordInstr t w0 w1
      else wordInstr t w0 0

/-- The instruction in the state leaves it as it is. -/
def stallsIn (i : Instr) (s : State) : Bool :=
  match exec i s with
  | .next t => decide (t = s)
  | _ => false

/-! ### The choice of slot (R26, R154, R365, R366) -/

/-- An agent's slot comes into focus; the agent that was there goes to the end of the others. -/
def focusOn (s : State) (id : Nat) (sec : Bool) : Option State :=
  if s.cur.kind ≠ .none ∧ s.cur.id = id then some { s with slot := sec }
  else match s.agents.find? (fun a => a.id == id) with
    | none => none
    | some a =>
      let rest := s.agents.filter (fun b => b.id ≠ id)
      some { s with cur := a, slot := sec, agents := if s.cur.kind = .none then rest else rest ++ [s.cur] }

/-- Sheaves in a core's active set (R365: at most 8). -/
def activeCount (s : State) (core : Nat) : Nat := (activeOn s core).length

/-- An imprecise trap is to be delivered to the slot before it issues again (R374). -/
def trapDue (s : State) (a : Agent) (sec : Bool) : Bool :=
  match findStook s a.stook with
  | some t => !t.held.isEmpty && t.abort.isNone && (firstLive s t.id).any (fun b => b.id == a.id) && (sec == !a.pri.live) && atBoundary s a sec
  | none => false

/-- The slot can issue: its sheaf is in the active set, and the cores are clocked (R409).
Log 125: DESIGN CHOICE. -/
def issuable (s : State) (a : Agent) (sec : Bool) : Bool :=
  slotGoes s a sec && !a.ended && !s.halted && s.power ≠ 2 && a.kind ≠ .none && (a.stopPt.isNone || a.saving) &&
  (a.kind ≠ .sheaf || a.active) && !trapDue s a sec &&
  (match findStook s a.stook with
   | some t => t.abort.isNone && t.pre.stage ≠ 3
   | none => false)

/-- The slot that an agent issues from next: its two slots take turns (R154). -/
def pickSlot (s : State) (a : Agent) : Option Bool :=
  if issuable s a a.turn then some a.turn else if issuable s a (!a.turn) then some (!a.turn) else none

/-- The active sheaf of a core that goes first: the one whose last issue is oldest, ties to the lower sheaf slot (R366). -/
def firstSheaf (s : State) (core : Nat) : Option Agent :=
  ((activeOn s core).filter (fun a => (pickSlot s a).isSome)).foldl (fun (m : Option Agent) a => match m with
    | none => some a
    | some b => some (if a.last < b.last ∨ (a.last = b.last ∧ a.slotNo < b.slotNo) then a else b)) none

/-- The agent goes next among those of its core; engine programs have issue slots of their own (R262). -/
def goesFirst (s : State) (a : Agent) : Bool := a.kind ≠ .sheaf || (firstSheaf s a.core).any (fun b => b.id == a.id)

/-- The next slot in round-robin order over the cores and engines. -/
def nextSlot (s : State) : List Agent → Option (Nat × Bool)
  | [] => none
  | a :: r => match (if goesFirst s a then pickSlot s a else none) with
    | some x => some (a.id, x)
    | none => nextSlot s r

/-- The focused slot issues: the sheaf's slots take turns, and its issue is the latest. -/
def readyFocus (s : State) : State :=
  { onCur s (fun a => { a with turn := !s.slot, last := s.issues + 1 }) with issues := s.issues + 1 }

/-- An instruction that stalls in a state is held by one of the causes of R367: it is a BARW, a BARS, a QPUSH, a QPOP, a FORK, a WAIT
or an RDV, or it would go on if no result were pending. -/
def waitsIn (i : Instr) (s : State) : Bool :=
  match i with
  | .barw _ _ _ | .bars _ _ _ | .qpush _ _ _ | .qpop _ _ _ | .fork _ _ | .wait _ _ _ _ | .rdv => true
  | _ => !stallsIn i (onCur s (fun a => { a with sPend := [], vPend := [] }))

/-- A slot has not been able to issue since now, or since it is noted. -/
def markStall (s : State) (id : Nat) (sec waits : Bool) : State :=
  if (stallOf s id sec).isSome then s else { s with stalls := s.stalls ++ [⟨id, sec, s.time, waits⟩] }

/-- After an attempt to issue an instruction in the state u: one that stalls leaves the state before it, but for the note of it.
Log 100: DESIGN CHOICE. -/
def afterIssue (s u : State) (i : Instr) (id : Nat) (sec : Bool) : Out → Out
  | .next t => .next (if t = u then markStall s id sec (waitsIn i u) else t)
  | .fault f => .fault f
  | .refused r => .refused r

/-- A plain access, and LDAQ: nothing that a party did before it is ordered before another party's reads by it (R276). -/
def plainAccess (i : Instr) : Bool :=
  match i with
  | .lds _ _ _ _ | .sts _ _ _ _ | .ldaq _ _ _ _ _ | .ldc _ _ _ _ | .stc _ _ _ _ | .ldv _ _ _ _ _ | .stv _ _ _ _ _ | .nop => true
  | _ => false

/-- What issues next: with any other instruction than a plain access every core's reads are current again (R276, R278). -/
def orderedBy (i : Instr) (s : State) : State := if plainAccess i then s else dropLags s

/-- A slot issues its next instruction, where it is the one that goes next (R154, R366). -/
def issueAt (s : State) (id : Nat) (sec : Bool) : Out :=
  match focusOn s id sec with
  | none => .next s
  | some t =>
    if goesFirst t t.cur && pickSlot t t.cur == some sec then
      let (i, u) := fetched (readyFocus t)
      afterIssue s (orderedBy i u) i id sec (exec i (orderedBy i u))
    else .next s

/-! ### The part's own events -/

/-- An event with its data. -/
abbrev Ev := Instr × Inp

/-- An event with numbers. -/
def ev (i : Instr) (a : List Nat) : Ev := (i, ⟨a, [], []⟩)

/-- The switches that a request waits for, or that stand before the peers that it waits for. -/
def waitsFor (s : State) (r : Req) : List Nat :=
  ((waitingWire r (fun _ => true)).map (fun a => if 240 ≤ nodeOf a.loc then nodeOf a.loc - 240 else pairFor s a.loc)).eraseDups

/-- The events that carry a request on: this device's own lanes, the switches, and 10 ms without a response. -/
def reqEvents (s : State) (r : Req) : List Ev :=
  (match r.op with
   | .sketch _ _ _ => [ev .sketchCounterStep [r.id, 0]]
   | .query _ _ _ _ _ _ => [ev .skqryResponse [r.id, 0]]
   | _ => [ev .memoryResponse [r.id, 1], ev .storeAck [r.id, 1]]) ++
  (waitsFor s r).map (fun w => (.granaryRequest, ⟨[w, s.node], [r.id], []⟩)) ++
  (if r.remote && overdue s r.since then [ev .responseTimeout [r.id, 0]] else [])

/-- The event that completes a tile operation. -/
def tileEvent (o : TileOp) : List Ev :=
  [ev .tileOpStart [o.core],
   match o.kind with
   | .mma _ _ _ _ => ev .mmaComplete [o.id]
   | .aclr _ => ev .aclrComplete [o.id]
   | .adrn _ _ _ _ _ _ => ev .adrnComplete [o.id]
   | .chinj _ _ _ => ev .chinjComplete [o.id]]

/-- The events of stooks and their sheaves. -/
def stookEvents (s : State) : List Ev :=
  s.stooks.flatMap (fun t =>
    (if t.held.isEmpty then [] else [ev .impreciseTrapDelivery [t.id]]) ++
    (if t.pre.stage = 1 ∨ t.pre.stage = 2 then [ev .preemptRequest [t.id, 0]] else []) ++
    (if 0 < t.pre.stage ∧ lateFor s t = true then [ev .preemptDeadline [t.id]] else []) ++ [ev .stookEnd [t.id]])

/-- The events of the launch queues and records. -/
def launchEvents (s : State) : List Ev :=
  (if s.power = 2 then [ev .idleExit []] else []) ++
  (if s.lqueues.isEmpty then [] else [ev .launchTake [0]]) ++
  (s.launches.filter (fun l => l.stage ≠ .run)).map (fun l => ev .launchTake [l.pool]) ++
  ((s.recQ.map (·.cluster)).eraseDups).map (fun g => ev .recordAdmit [g])

/-- The events of engines. -/
def engineEvents (s : State) : List Ev :=
  s.atomQ.map (fun q => ev .nearAtomicService [q.cluster]) ++
  s.copies.flatMap (fun c => [ev .copyExecute [c.id], ev .followOnMma [c.id], ev .copyComplete [c.id]]) ++
  s.cpls.map (fun c => ev .cplLaneLand [c.id]) ++ s.tileOps.flatMap tileEvent ++
  s.skops.map (fun o => ev .skopCounterStep [o.id]) ++
  s.xmems.flatMap (fun x => [(.granaryRequest, ⟨[0, s.node], [x.id], []⟩), ev .xmemResult [x.id]]) ++
  s.forkQ.map (fun f => ev .sequencerStart [f.core, if f.mat then 0 else 1]) ++
  s.calls.flatMap (fun c => [ev .collectiveComplete [c.id], ev .pauseQuotaRelease [c.id], ev .pauseBudgetExpire [c.id]]) ++
  ((s.asks.filter (fun a => overdue s a.since && !a.dead && a.val.isNone)).map (·.id) ++
    (s.xmems.filter (fun x => overdue s x.since)).map (·.id) ++ (s.calls.filter (fun c => overdue s c.since)).map (·.id)).map
      (fun n => ev .responseTimeout [n, 0]) ++
  (if s.calls.isEmpty && s.relays.isEmpty then [] else
    match occNow s with
    | some (_, j) => [ev .slotOccurrence [j]]
    | none => [])

/-- A port has a flit to send other than an idle one. -/
def portBusy (s : State) (p : Nat) (x : Port) : Bool :=
  if x.st = 2 then
    !x.ctlq.isEmpty || !x.resend.isEmpty || x.txNext ≠ x.txMask || (dataFlit s p x false).isSome || (dataFlit s p x true).isSome
  else x.st = 1 && x.ctlq.any (fun f => f.code == 3)

/-- The events of error windows, lasting faults and links. -/
def unitEvents (s : State) : List Ev :=
  (s.wcfg.filter (fun p => decide (smGet 0 s.winAt p.1 + winLen s p.1 ≤ s.time))).map (fun p => ev .errorWindowBoundary [p.1]) ++
  (s.dieWin.filter (fun p => decide (32 ≤ p.1))).map (fun p => ev .dieLastingFault [p.1 - 32]) ++
  (if s.remap.isSome then [ev .remapComplete [1]] else []) ++
  (s.rowWin.filter (fun p => decide (p.1 < 32 * 2 ^ 40) && decide (winLimit s (p.1 / 2 ^ 40) ≤ p.2))).map
    (fun p => ev .rowGroupRetire [p.1 / 2 ^ 40, p.1 % 2 ^ 40]) ++
  (s.rowWin.filter (fun p => decide (112 * 2 ^ 40 ≤ p.1) && decide (winLimit s (p.1 / 2 ^ 40) ≤ p.2))).map
    (fun p => ev .wavelengthRetire [p.1 % 2 ^ 40 / 8, p.1 % 8]) ++
  s.ports.flatMap (fun p => (List.range 8).map (fun k => ev .berThreshold [p.1, k]) ++ [ev .wakeComplete [p.1]] ++
    (p.2.trainAt.filter (fun t => trainDue p.2 s.time t.1)).map (fun t => ev .trainingTimeout [p.1, t.1]) ++
    (if p.2.berAt < berWindow s.time then [ev .berWindow [p.1]] else []) ++
    (if portBusy s p.1 p.2 then [ev .flitBoundary [p.1, 0]] else [])) ++
  ([32, 33].filter (fun p => s.sent.any (fun q => q.port = p))).map (fun p => ev .flitBoundary [p, 0])

/-- Events that time brings. -/
def timeEvents (s : State) : List Ev :=
  (if 0 < epochPeriods s then [ev .epochTick []] else []) ++
  s.rings.flatMap (fun r => [ev .faultDoorbellRepeat [r.1], ev .faultRingRetry [r.1]]) ++
  (if s.busyAt + 1000000 ≤ s.time then [ev .idleEntry []] else [])

/-- The sets of sheaves: a sheaf that waits swaps with a ready pending one, and one that has waited long displaces another
(R367, R368). -/
def sheafEvents (s : State) : List Ev :=
  ((allAgents s).filter (fun a => a.kind = .sheaf && a.active && longWaiting s a)).map
    (fun a => ev .sheafSwap [a.id]) ++
  (((allAgents s).filter (fun a => a.kind = .sheaf && !a.active && sheafReady s a)).map (fun a => a.core)).eraseDups.map
    (fun c => ev .sheafDisplace [c])

/-- Everything that may happen inside the part, in a canonical order. -/
def candidates (s : State) : List Ev :=
  (s.faults.filter (fun f => f.fate ≠ 0)).map (fun f => ev .faultReplay [f.id]) ++ s.reqs.flatMap (reqEvents s) ++
  engineEvents s ++ stookEvents s ++ launchEvents s ++ unitEvents s ++ timeEvents s ++ sheafEvents s ++
  (s.pins.filter (·.going)).map (fun p => ev .pinRelease [p.slice, p.frame]) ++
  (if s.imageDue then [ev .readbackRequest []] else [])

/-- An event changes the state. -/
def happens (s : State) (e : Ev) : Bool :=
  match exec e.1 (withInp (dropLags s) e.2) with
  | .next t => decide (withInp t s.inp ≠ dropLags s)
  | _ => false

/-- The first event that changes anything. -/
def nextEvent (s : State) : Option Ev := (candidates s).find? (happens s)

/-! ### Choices of the world outside -/

/-- An instruction that a slot fetches, or an entry that only a fetch brings: no event. -/
def isEvent (i : Instr) : Bool :=
  (encode i).isEmpty && (match i with
    | .reservedEncoding => false
    | .fetchFault => false
    | .linkTrain => false
    | .linkPark => false
    | .chmapWrite _ => false
    | _ => true)

/-- A residue is struck (R222): the value added to it, modulo its channel's. -/
def strike (s : State) (core tile elem ch delta : Nat) : State :=
  let t := tileGet s core tile
  let e := smGet Elem.zero t.elems elem
  let r := (e.res.getD ch 0 + delta) % modulus ch
  tilePut s core tile { t with elems := smPut Elem.zero t.elems elem { e with res := e.res.set ch r } }

/-- An error arises in a stored sector; one that cannot be corrected stays so. -/
def upset (s : State) (e : Nat) (correctable : Bool) : State :=
  { s with latent := smPut 0 s.latent e (max (smGet 0 s.latent e) (if correctable then 1 else 2)) }

/-- The host writes its own memory: the sectors leave the caches first (R99). -/
def hostWrite (s : State) (pa : Nat) (bs : List Byte) : State :=
  wrBytes ((List.range ((pa + bs.length + 31) / 32 - pa / 32)).foldl (fun s j => writeBack s (pa / 32 + j)) s) false pa bs none

/-- A core goes on reading a sector as it is now (R278). -/
def lagBehind (s : State) (core k : Nat) : State :=
  let s := eccRead s true (32 * k) 32
  let x := rdSector s true k
  { s with l1 := smPut none (smPut none s.l1 (l1Key core k) none) (l1Key (core + 128) k) (some x) }

/-- A choice is carried out.
Log 19: DESIGN CHOICE.
Log 53: DESIGN CHOICE. -/
def choose (s : State) (c : Choice) : Out :=
  match c with
  | .issue a sec => issueAt s a sec
  | .event i x => if isEvent i then exec i (withInp (dropLags s) x) else .next s
  | .tick n adj => .next (passTime s n adj)
  | .upset k ok => .next (if 32 * k < hbmEnd ∨ locClass (32 * k) = 3 ∨ locClass (32 * k) = 4 then upset s k ok else s)
  | .upsetCopy k ok => .next (if locClass (32 * k) = 0 ∧ (smGet none s.cached k).isSome = true then upset s (copyErr k) ok else s)
  | .fill k => .next (if (List.range 4).any (fun j => (smGet none s.cached (k / 4 * 4 + j)).isSome) then fillCached s k else s)
  | .l1Fill c k =>
    .next (if c < 128 ∧ locClass (32 * k) ≤ 1 ∧ (List.range 4).any (fun j => (smGet none s.l1 (l1Key c (k / 4 * 4 + j))).isSome) = true
      then fillL1 s c k else s)
  | .lag c k =>
    .next (if c < 128 ∧ locClass (32 * k) ≤ 1 ∧ s.reqs.any (fun r => isStoreOp r.op && r.accs.any (fun a => a.loc / 32 == k)) = false
      then lagBehind s c k else s)
  | .evict k => .next (if pinnedSec s k then s else writeBack s k)
  | .mmaFetch op b k => .next (mmaFetch s op b k)
  | .copyFetch c k j i => .next (copyFetch s c k j i)
  | .l1Drop c k => .next (if c < 128 then { s with l1 := smPut none s.l1 (l1Key c k) none } else s)
  | .tlbDrop u l v => .next { s with tlb := s.tlb.filter (fun t => t.unit ≠ u || t.level ≠ l || t.vpn ≠ v) }
  | .hostStore pa bs => .next (if locClass pa = 1 then hostWrite (dropLags s) pa (asBytes bs) else s)
  | .residueHit c t e k d => .next (if c < 128 ∧ t < 8 ∧ e < 4096 ∧ k < 10 then strike s c t e k d else s)
  | .switchGroup g => .next { s with swGroups := g :: s.swGroups.filter (fun h => h.sw ≠ g.sw || h.handle ≠ g.handle) }
  | .switchQuota w j n => .next { s with quota := smPut 0 s.quota (quotaKey w j) n }

/-! ### One step -/

/-- Whether the next instruction of a slot that was noted as held still stalls, and by a cause of R367. -/
def stallsYet (s : State) (id : Nat) (sec : Bool) : Option Bool :=
  match focusOn s id sec with
  | none => none
  | some t =>
    let (i, u) := fetched (onCur t (fun a => { a with active := true }))
    if stallsIn i u then some (waitsIn i u) else none

/-- What holds a slot now: what it waits for, or, where it was noted as held, its next instruction. -/
def holdsNow (s : State) (a : Agent) (sec : Bool) : Option Bool :=
  if a.ended || !slotOpen a sec then none
  else if !waitDone a sec then some true
  else if (stallOf s a.id sec).isSome then stallsYet s a.id sec
  else none

/-- Which slots cannot issue, since when and why (R367): those that wait, and those noted as held whose instruction still stalls. -/
def noteStalls (s : State) : State :=
  { s with stalls := (allAgents s).flatMap (fun a => [false, true].filterMap (fun sec =>
      (holdsNow s a sec).map (fun w =>
        ⟨a.id, sec, (((stallOf s a.id sec).filter (fun t => t.waits == w)).map (·.since)).getD s.time, w⟩))) }

/-- A pending sheaf that has become ready is ready from now (R365), and a busy device notes the time (R409). -/
def noteReady (old new : State) : State :=
  let was : Nat → Bool := fun id => (allAgents old).any (fun a => a.id == id && sheafReady old a)
  let s := mapAgents new (fun a => if a.active = false ∧ sheafReady new a = true ∧ was a.id = false then { a with since := new.time } else a)
  if idle s then s else { s with busyAt := s.time }

/-- A free place in a core's active set is taken by the first ready sheaf of its pending order (R365).
Log 99: DEDUCED. -/
def fillActive (s : State) : State :=
  (((allAgents s).filter (fun a => a.kind = .sheaf && !a.active && sheafReady s a)).map (·.core)).foldl (fun s c =>
    if activeCount s c < 8 then
      match nextPending s c with
      | some a => activate s a.id
      | none => s
    else s) s

/-- At most so many elements for each key, the first ones kept. -/
def firstOf {α : Type} (key : α → Nat) (cap : Nat) : List (Nat × Nat) → List α → List α
  | _, [] => []
  | n, a :: r =>
    if smGet 0 n (key a) < cap then a :: firstOf key cap (smPut 0 n (key a) (smGet 0 n (key a) + 1)) r
    else firstOf key cap n r

/-- The TLBs hold 512 leaf entries for each core and 16,384 for each cluster, the newest (R103). -/
def capTlb (l : List TlbEnt) : List TlbEnt :=
  if l.length ≤ 512 then l
  else
    let leaf : TlbEnt → Bool := fun t => t.entry.getLsbD 1
    l.filter (fun t => !leaf t) ++ firstOf (·.unit) 512 [] (l.filter (fun t => leaf t && decide (t.unit < 128))) ++
      firstOf (·.unit) 16384 [] (l.filter (fun t => leaf t && decide (128 ≤ t.unit)))

/-- An L1 holds 1,024 lines (R17, R95). -/
def capL1 (l : List (Nat × Option Sector)) : List (Nat × Option Sector) :=
  if l.length ≤ 1024 then l
  else
    let lines := firstOf (fun n => n * 4 / 2 ^ 60) 1024 [] (l.map (fun p => p.1 / 4)).eraseDups
    l.filter (fun p => lines.contains (p.1 / 4))

/-- The sectors that one L2 slice or cluster cache of 2 MiB holds (R17). -/
def cachedCap : Nat := 65536

/-- The held sectors in the order in which they give way: those last used with the non-temporal hint first (R95), pinned ones not
(R97). -/
def evictOrder (s : State) : List Nat :=
  let l := (s.cached.map (·.1)).filter (fun k => !pinnedSec s k)
  l.filter (fun k => s.evictFirst.contains k) ++ l.filter (fun k => !s.evictFirst.contains k)

/-- The held sectors that the caches have no place for (R17): each slice holds so many of its own, pinned ones before the others,
and 16 cluster caches what is left and the host's lines. -/
def surplus (s : State) : List Nat :=
  if s.cached.length ≤ cachedCap then []
  else
    let l := evictOrder s
    let pinned := (s.cached.map (·.1)).filter (pinnedSec s)
    let slices := firstOf (sliceOf s) cachedCap [] (pinned ++ (l.filter (fun k => locClass (32 * k) = 0)).reverse)
    let out := l.filter (fun k => !slices.contains k)
    out.take (out.length - 16 * cachedCap)

/-- What the cluster caches and L2 slices cannot hold goes home (R17, R95). -/
def capCached (s : State) : State := (surplus s).foldl writeBack s

/-- What every step notes and keeps: held slots, readiness, the active sets, and the capacities of caches.
Log 98: DESIGN CHOICE. -/
def keep (old new : State) : State :=
  let s := fillActive (noteReady old (noteStalls new))
  capCached { s with tlb := capTlb s.tlb, l1 := capL1 s.l1 }

/-- The state after a step, with what it notes. -/
def finish (old : State) : Out → Out
  | .next t => .next (keep old t)
  | .fault f => .fault f
  | .refused r => .refused r

/-- The time that passes when nothing else happens, and with an instruction of the canonical order, in ns. -/
def idleNs : Nat := 100

/-- One step: the choice that is due; else the part's own first event; else the next slot's instruction; else time
passes.
Log 4: DESIGN CHOICE.
Log 18: DESIGN CHOICE. -/
def stepRaw (s : State) : Out :=
  match s.agenda with
  | c :: r => choose { s with agenda := r } c
  | [] =>
    match nextEvent s with
    | some e => exec e.1 (withInp (dropLags s) e.2)
    | none =>
      match nextSlot s (s.agents ++ [s.cur]) with
      | some (id, sec) => issueAt (passTime s 1 1) id sec
      | none => .next (passTime s idleNs idleNs)

end Sys2Proof.Machine
end

