-- ==== Sys2Proof/Machine/Fetch.lean ====
section
/-!
DEFINITION. Placing an instruction where the machine fetches its next one: the words go where the next slot fetches; a
machine in which no slot can fetch gets a context, a measured frame and a stook of one SYSTEM sheaf.
-/
namespace Sys2Proof.Machine

open Sys2Proof

/-- The location that a fetch at an address reads, where it may (R89). -/
def fetchLoc (s : State) (va : Word) : Option Nat :=
  match translate s (whoOf s.cur) va with
  | .bad _ _ _ => none
  | .ok pg pa _ => if (fetchWord s va).isSome then some (pageLoc s pg pa) else none

/-- The slot that issues next, with the locations of its next two words. -/
def fetchPlace (s : State) : Option (Nat × Bool × Nat × Nat) :=
  match nextSlot s (s.agents ++ [s.cur]) with
  | none => none
  | some (id, sec) =>
    match focusOn s id sec with
    | none => none
    | some t =>
      if (pcOf t).toNat % 4 ≠ 0 ∨ (slotOf t).wait ≠ .ready then none
      else match fetchLoc t (pcOf t), fetchLoc t (pcOf t + 4) with
        | some a, some b => some (id, sec, a, b)
        | _, _ => none

/-- Put the bytes of a word at a location, in memory and in no cache. -/
def putCode (s : State) (loc : Nat) (bs : List Byte) : State :=
  let s := writeBack s (loc / 32)
  { s with mem := smPutList 0 s.mem loc bs }

/-- The kernel of the sheaf that fetches a placed word. -/
def bootKernel : Kernel :=
  { Kernel.none with
    w := 64, vregs := 256, tiles := [0, 1, 2, 3, 4, 5, 6, 7], nBar := 4, nQ := 4, nSafe := 256, ctx := 255, sys := true,
    hx := [0, 0, 0, 0, 0, 0, 0, 0], hn := [64, 1, 1, 1, 1, 1, 1, 1] }

/-- Page tables that map VA 0 to the frame at 0x60000: readable, writable, executable, for USER too (R83, R84). -/
def bootTables : List (Nat × Nat) :=
  [(0x20000, 0x40001), (0x40000, 0x50001), (0x50000, 0x51001), (0x51000, 0x6043B)]

/-- A machine with one SYSTEM sheaf at VA 0 of a measured frame: what a loaded and launched program stands on. -/
def bootSheaf (s : State) : Nat × State :=
  let (t, s) := freshId s
  let (a, s) := freshId s
  let c : Ctx := ⟨0x20000, 0, 0, 4, 0, 0, 0x3000000000, 0, true⟩
  let s := bootTables.foldl (fun s p => putCode s p.1 (leBytes 8 p.2)) s
  let s := startResources s 127 bootKernel
  let sheaf : Agent :=
    { Agent.none with
      kind := .sheaf, id := a, stook := t, core := 127, slotNo := 0, k := bootKernel, priv := true, ended := false, active := true,
      pri := { Slot.free with live := true, mask := allLanes 64 } }
  (a, { s with
    halted := false, ctxs := smPut none s.ctxs 255 (some c), measured := smPut false s.measured 6 true,
    tlb := s.tlb.filter (fun t => t.ctx ≠ 255),
    stooks := s.stooks ++ [⟨t, 127, bootKernel, ⟨0, 1, 0, 0, 0, 0, true, false, 0, 0, []⟩, [], 0, none, ⟨0, 0, 0, 0, false⟩, [], false, none⟩],
    agents := s.agents ++ [sheaf] })

/-- The next step issues from a slot. -/
def issueNext (s : State) (id : Nat) (sec : Bool) : State := { s with agenda := .issue id sec :: s.agenda }

/-- Place the words of an instruction where the next step fetches. -/
def placeWord (s : State) (nbits w : Nat) : State :=
  let bs := leBytes 8 (w % 2 ^ nbits)
  match fetchPlace s with
  | some (id, sec, a, b) => issueNext (putCode (putCode s a (bs.take 4)) b (bs.drop 4)) id sec
  | none =>
    let (id, s) := bootSheaf s
    issueNext (putCode (putCode s 0x60000 (bs.take 4)) 0x60004 (bs.drop 4)) id false

end Sys2Proof.Machine
end

