-- ==== Sys2Proof/Machine/Step.lean ====
section
/-!
DEFINITION. One step of the machine, and the placing of an instruction where the next step fetches it.
-/
namespace Sys2Proof.Machine

open Sys2Proof

/-- One step: what Machine/Sched.lean chooses, and what every step notes. -/
def step (s : State) : Host.Outcome State Fault Refusal := finish s (stepRaw s)

/-- The state with an instruction stored where the next step fetches (log 14).
Log 14: DESIGN CHOICE. -/
def State.withFetchWord (s : State) (nbits w : Nat) : State := placeWord s nbits w

end Sys2Proof.Machine
end

