-- ==== Sys2Proof/Safety.lean ====
section
/-!
DEFINITION. The terms that claims use: when the slot in focus may issue an instruction, what an instruction leaves as it
was, what a lane-wise instruction writes, and the invariant of memory.
-/
namespace Sys2Proof.Machine

open Sys2Proof

/-- The slot in focus may issue an instruction that touches `u`, and no check of R43, R111, R126 or R265 holds it back: it
is live and waits for nothing, no pending POISON trap is met, a SYSTEM instruction runs at SYSTEM, every V register it
names is below the sheaf's count (R43), the scoreboard is clear and its class has room. -/
def ready (u : Use) (s : State) : Bool :=
  decide (s.cur.kind ≠ .none) && !notForEngine s.cur u && canIssue s && decide ((slotOf s).wait = .ready) &&
  (poisonHit (slotOf s) u).isNone && (!u.sys || s.cur.priv) &&
  (u.vr ++ u.vw).all (fun n => decide (n < s.cur.k.vregs)) && !interlocked s.cur u && !classFull s.cur u

/-- The first word is of an instruction that an engine program may hold (R264): the SALU, the immediate forms and SLI and SLIW
(majors 0x01 to 0x0B), BRA, BC, WAIT, BAR, CPB, MMA, ACLR, ADRN, QPUSH and QPOP of major 0x20, and EEND of SYS. -/
def engineWord (w : Nat) : Bool :=
  let m := fld w 31 25
  (decide (1 ≤ m) && decide (m ≤ 11)) || [0x10, 0x14, 0x1E, 0x1F, 0x21, 0x23, 0x24, 0x25].contains m ||
  (m == 0x1A && fld w 24 20 == 6) || (m == 0x20 && (fld w 24 22 == 1 || fld w 24 22 == 2))

/-- Memory is in its one canonical form: addresses strictly rising, and no byte listed that equals what an unlisted one
reads as. -/
def memOk (s : State) : Prop := smWf 0 s.mem = true

/-- Every byte of every location reads as before. -/
def sameBytes (s t : State) : Prop := ∀ coh loc, rdByte t coh loc = rdByte s coh loc

/-- Every V register but those listed holds what it held. -/
def sameV (s t : State) (but : List Nat) : Prop := ∀ n l, n ∉ but → l < 64 → getV t n l = getV s n l

/-- Every S register but those listed holds what it held. -/
def sameS (s t : State) (but : List Nat) : Prop := ∀ n, n ∉ but → getS t n = getS s n

/-- Every M register but those listed holds what it held. -/
def sameM (s t : State) (but : List Nat) : Prop := ∀ n, n ∉ but → getM t n = getM s n

/-- An agent without its V, S and M registers and its slots' program counters: its mode, its flags, its special,
accumulator and trap registers, and what its slots wait for. -/
def sansRegs (a : Agent) : Agent :=
  { a with v := [], s := [], m := [], pri := { a.pri with pc := 0 }, sec := { a.sec with pc := 0 } }

/-- The frame of an instruction that writes registers of the slot in focus and nothing else: only the listed registers may
differ, and the program counter of the slot in issue; memory and the rest of the machine are as before. -/
def regFrame (s t : State) (vs ss ms : List Nat) : Prop :=
  sameV s t vs ∧ sameS s t ss ∧ sameM s t ms ∧ sansRegs t.cur = sansRegs s.cur ∧
  (getSlot t.cur (!s.slot)).pc = (getSlot s.cur (!s.slot)).pc ∧ { t with cur := s.cur } = s ∧ sameBytes s t

/-- No trap that MD enables follows the lane results: no divide fault under MD.DZT, no invalid operation under MD.FPT
(R162, R169). -/
def noLaneTrap (s : State) (act : List Nat) (f : Nat → LRes) : Bool :=
  (!dztOf s || act.all (fun l => !(f l).div)) && (!fptOf s || act.all (fun l => !(f l).inv))

/-- A lane, or a pair, holds an element's register form (R22, R53). -/
def holds (t : State) (et d l : Nat) (x : Word) : Prop :=
  if is64 et then getV2 t d l = x else getV t d l = x.setWidth 32

/-- `t` is `s` after a lane-wise instruction of type et that wrote Vd in the lanes `act` with the results f (R53, R160 to
R162, R169): each such lane holds its result, every other lane and register is as before, SSTAT gathers the lanes' flags,
DIVMASK becomes the lanes that met a divide fault where one did, the slot goes on, and nothing else of the agent and
nothing of the machine but the core's converter counts changes. -/
structure LanesWritten (s t : State) (et d : Nat) (act : List Nat) (f : Nat → LRes) : Prop where
  result : ∀ l ∈ act, holds t et d l (f l).val
  other : ∀ n l, l < 64 → (n ∉ regs (is64 et) d ∨ l ∉ act) → getV t n l = getV s n l
  flags : t.cur.sstat = act.foldl (fun g l => g ||| (f l).flags) s.cur.sstat
  divmask : t.cur.divmask = if act.any (fun l => (f l).div) then maskList (act.filter (fun l => (f l).div)) else s.cur.divmask
  next : pcOf t = pcOf s + 4
  agent : sansRegs { t.cur with sstat := s.cur.sstat, divmask := s.cur.divmask } = sansRegs s.cur
  sregs : sameS s t []
  mregs : sameM s t []
  device : { t with cur := s.cur, cvstat := s.cvstat } = s
  bytes : sameBytes s t

/-- How a lane-wise instruction ends, its lanes being written (R162, R169): the DIVZ trap of the lanes that met a divide
fault where MD.DZT is set, else the FPINV trap of those that raised invalid where MD.FPT is set, else on; the trap shows the
following word, the instruction's address and word, and those lanes. -/
def lanesOut (s t : State) (i : Instr) (act : List Nat) (f : Nat → LRes) : State :=
  let div := act.filter (fun l => (f l).div)
  let inv := act.filter (fun l => (f l).inv)
  if dztOf s = true ∧ div ≠ [] then raiseTrap t ⟨DIVZ, pcOf s + 4, pcOf s, wd (word0 i), maskList div⟩
  else if fptOf s = true ∧ inv ≠ [] then raiseTrap t ⟨FPINV, pcOf s + 4, pcOf s, wd (word0 i), maskList inv⟩
  else t

/-- The n bytes from a location, little-endian, of bytes given one by one. -/
def valueAt (n : Nat) (m : Nat → Byte) (loc : Nat) : Word := wd (leNat ((List.range n).map (fun j => m (loc + j))))

/-- Bytes after lanes of n bytes have been performed one after another (R120): each finds the value that stands at its place and
leaves there what `new` makes of it. -/
def afterLanes (n : Nat) (new : Word → Acc → Word) : List Acc → (Nat → Byte) → Nat → Byte
  | [], m => m
  | a :: r, m => afterLanes n new r (fun j =>
      if a.loc ≤ j ∧ j < a.loc + n then (leBytes n (new (valueAt n m a.loc) a).toNat).getD (j - a.loc) 0 else m j)

/-- Instruction i completes, its lane results being f: it writes them, and a trap that MD enables follows. -/
def completesLanes (s : State) (i : Instr) (et d : Nat) (act : List Nat) (f : Nat → LRes) : Prop :=
  ∃ t, exec i s = .next (lanesOut s t i act f) ∧ LanesWritten s t et d act f

/-- Nothing is in flight or asked of another node, no L1 holds a copy, no error lies in a sector, no remap runs, no granary is
lost, and the state chooses to perform each access as it issues: what an access finds then is its home and the coherent caches. -/
def calm (s : State) : Prop :=
  s.reqs = [] ∧ s.asks = [] ∧ s.defer = [] ∧ s.l1 = [] ∧ s.latent = [] ∧ s.remap = none ∧ s.lost = []

/-- An address of the agent in focus passes R110's steps 2 to 4 for an access of kind k: it is canonical, it translates to
page pg at pa, the page's directory takes it, and its permission bits allow it. -/
def reaches (s : State) (k : AccKind) (va : Word) (pg : Page) (pa : Nat) : Prop :=
  canonical va = true ∧ permitted (whoOf s.cur) k pg = true ∧
  ∃ new pins, translate s (whoOf s.cur) va = .ok pg pa new ∧ pinTake s.pins s.cur.k.ctx va pg = some pins

/-- A location of this device's own memories that stores keep: no other node's, no barrier file's, not beyond the plane
stores. -/
def ownLoc (loc : Nat) : Prop := locClass loc ≠ 2 ∧ locClass loc ≠ 5 ∧ locClass loc ≠ 6 ∧ barFile loc = none

/-- The registers of the agent in focus, its mode and its flags are as before; its slot goes on after one word. -/
def onlyAdvanced (s t : State) : Prop :=
  t.cur.v = s.cur.v ∧ t.cur.s = s.cur.s ∧ t.cur.m = s.cur.m ∧ t.cur.md = s.cur.md ∧ t.cur.sstat = s.cur.sstat ∧
  t.cur.divmask = s.cur.divmask ∧ t.cur.priv = s.cur.priv ∧ pcOf t = pcOf s + 4

/-- The instruction has handed an operation over: no register, flag or mode of the agent in focus changes, its slot goes
on, and its outstanding counts have grown by `up` and no more. -/
def issued (s t : State) (up : Cls → Nat) : Prop :=
  onlyAdvanced s t ∧ ∀ c, cntOf t.cur c = cntOf s.cur c + up c

/-- One more operation of a class. -/
def one (c : Cls) : Cls → Nat := fun d => if d = c then 1 else 0

/-- A barrier after the completion check (R253): a full one starts its next phase. -/
def phaseDone (x : Barrier) : Barrier :=
  if x.exp.toNat ≤ x.arr.toNat ∧ (x.pend = 0 ∨ x.err = true) then { x with phcnt := x.phcnt + 1, arr := 0, pend := 0 } else x

/-- A barrier after n landed bytes are credited, PEND inside its limits, and the completion check (R253). -/
def credited (x : Barrier) (n : Nat) : Barrier := phaseDone { x with pend := BitVec.ofInt 48 (x.pend.toInt - n) }

/-- The credit of n bytes stays inside PEND's limits. -/
def creditFits (x : Barrier) (n : Nat) : Prop := -(2 ^ 47) ≤ x.pend.toInt - n ∧ x.pend.toInt - n < 2 ^ 47

/-- Every byte outside n bytes from a location reads as before. -/
def sameBytesBut (s t : State) (loc n : Nat) : Prop :=
  ∀ c j, ¬(loc ≤ j ∧ j < loc + n) → rdByte t c j = rdByte s c j

end Sys2Proof.Machine
end

