-- ==== Sys2Proof/Certificates/Slice0/Obligations.lean ====
section
/-!
DEFINITION. What is claimed of the model, each as a proposition. Where a statement says how an instruction ends under the
hypothesis `ready u s` (Sys2Proof/Safety.lean), `u` names what the instruction touches: the V registers it reads and
writes, the S registers it reads and writes, whether it is SYSTEM only, whether the engine subset of R264 holds it, and its
completion class.
-/

open Sys2Proof Sys2Proof.Machine

/-! ### Words (02) -/

/-- The decoder gives back every well-formed instruction from its bytes, with every operand at every value that its
encoding admits, and leaves the bytes after it. -/
def Obligations.DecodeInvertsEncode : Prop :=
  ∀ (i : Instr) (rest : List Byte), i.WellFormed = true → encode i ≠ [] →
    decode (encodeBytes i ++ rest) = .ok (i, rest)

/-- Every word, or pair of words, that the decoder accepts is the encoding of a well-formed instruction: no two words mean
one instruction, and no bit of an accepted word is dropped. -/
def Obligations.EncodeInvertsDecode : Prop :=
  ∀ (w w1 : Nat) (i : Instr), w < 2 ^ 32 → w1 < 2 ^ 32 → decodeWord w w1 = .ok i →
    i.WellFormed = true ∧ encode i = if isLong w then [w, w1] else [w]

/-- Words that the spec writes out beside their assembly decode to the instructions they stand for. No word of a
reserved major opcode is an instruction (R42). -/
def Obligations.SpecWordsDecode : Prop :=
  (decodeWord 0x02188280 0 = .ok (.sadd 3 4 5) ∧ decodeWord 0x14101F9C 0 = .ok (.sli 2 (-100)) ∧
   decodeWord 0x16380000 0x12345678 = .ok (.sliw 7 0x12345678) ∧ decodeWord 0x23FFFFF0 0 = .ok (.call (-16)) ∧
   decodeWord 0x2A200C06 0 = .ok (.split 1 0 3 6) ∧ decodeWord 0x28217FFF 0 = .ok (.bc 1 0 5 (-1)) ∧
   decodeWord 0x3200C021 0 = .ok (.mtc 6 0x21) ∧ decodeWord 0x34D00004 0 = .ok (.fence 0 4) ∧
   decodeWord 0x3E401001 0 = .ok (.bara 1 0 1) ∧ decodeWord 0x43024400 0 = .ok (.cpbStatus 9 4) ∧
   decodeWord 0x46441 0 = .ok (.trap 0x46441) ∧ decodeWord 0x4644140C 0 = .ok (.mmaClr 1 4 5 0 0 2) ∧
   decodeWord 0x4A8A2C43 0 = .ok (.adrn 2 10 11 1 3) ∧ decodeWord 0x4E080C29 0 = .ok (.skupd 4 6 5 1) ∧
   decodeWord 0x5B034200 0 = .ok (.ccallStatus 13 2) ∧ decodeWord 0x6018080F 0 = .ok (.addScalar 12 4 7) ∧
   decodeWord 0x9644101B 0 = .ok (.cmpScalar 2 2 8 13) ∧ decodeWord 0xC0313602 0 = .ok (.ldaq 6 9 5 1 2) ∧
   decodeWord 0xCA10161E 0 = .ok (.stv 8 11 3 3 0) ∧ decodeWord 0xCE04101B 0 = .ok (.atadd 2 8 13 1)) ∧
  (∀ (w w1 : Nat), (fld w 31 25 = 0x26 ∨ (0x6F ≤ fld w 31 25 ∧ fld w 31 25 ≤ 0x7F)) →
     decodeWord w w1 = .error .reservedOpcode)

/-! ### One step -/

/-- A step runs the instruction that the words at the program counter decode to. When the slot that the agenda names
comes into focus, is the one that issues next of its core (R154, R366), and the word fetched at its program counter
decodes, the step is that instruction's exec in the state that the fetch leaves, and what every step notes (`finish`);
for a long form both words are fetched. The same holds where the agenda is empty, no event of the part is due, and the
slot is the next in turn. Before any instruction but a plain access, LDAQ or NOP, the sectors that cores go on reading as they
were are dropped (`orderedBy`; R276, R278, log 111). An instruction that leaves that state as it is stalls: the step is then the
state before it, with the slot noted as held (log 100). What a step notes beside the choice it carries out changes no register, no memory
and no device state: which slots are held and since when, which sheaves are active and since when they are ready, when the
device was last busy, and which entries the TLBs and the L1s keep, those held before and no others; where the caches hold
more than their capacity, sectors go home (log 98).
Which slot or event a step takes is the model's own choice of state (logs 4, 14, 18). -/
def Obligations.StepRunsDecodedInstruction : Prop :=
  (∀ (s s' f t : State) (a : Nat) (sec : Bool) (w : Nat) (i : Instr),
     ((∃ r, s.agenda = .issue a sec :: r ∧ s' = { s with agenda := r }) ∨
      (s.agenda = [] ∧ nextEvent s = none ∧ nextSlot s (s.agents ++ [s.cur]) = some (a, sec) ∧ s' = passTime s 1 1)) →
     focusOn s' a sec = some f → goesFirst f f.cur = true → pickSlot f f.cur = some sec → (pcOf f).toNat % 4 = 0 →
     fetchWord (readyFocus f) (pcOf f) = some (w, t) →
     (isLong w = false → decodeWord w 0 = .ok i →
       step s = finish s (afterIssue s' (orderedBy i t) i a sec (exec i (orderedBy i t)))) ∧
     (∀ (w1 : Nat) (t1 : State), isLong w = true → fetchWord t (pcOf f + 4) = some (w1, t1) → decodeWord w w1 = .ok i →
       step s = finish s (afterIssue s' (orderedBy i t1) i a sec (exec i (orderedBy i t1))))) ∧
  (∀ (i : Instr) (t : State), plainAccess i = true → orderedBy i t = t) ∧
  (∀ (i : Instr) (t : State), ∃ l, orderedBy i t = { t with l1 := l } ∧ ∀ e ∈ l, e ∈ t.l1) ∧
  (∀ (s' u t : State) (i : Instr) (a : Nat) (sec : Bool),
     afterIssue s' u i a sec (.next t) = .next (if t = u then markStall s' a sec (waitsIn i u) else t)) ∧
  (∀ (old t : State), t.cached.length ≤ cachedCap → ∃ t', finish old (.next t) = .next t' ∧
     { t' with cur := t.cur, agents := t.agents, busyAt := t.busyAt, stalls := t.stalls, tlb := t.tlb, l1 := t.l1 } = t ∧
     { t'.cur with since := t.cur.since, active := t.cur.active } = t.cur ∧
     t'.agents.map (fun a => { a with since := 0, active := false }) =
       t.agents.map (fun a => { a with since := 0, active := false }) ∧
     (∀ e ∈ t'.tlb, e ∈ t.tlb) ∧ (∀ e ∈ t'.l1, e ∈ t.l1))

/-- A fetch gives the four bytes at the translated address, little-endian, and only from a page that is executable, that
the issuer's privilege may use, and whose frame is HBM4 marked measured-code (R34, R89). A fetched word that is no
instruction traps ILLEGAL with the word in TINFO and no other effect (R42). A fetch that fails traps FETCH at the
fetched address; FETCH2 where a long form's second word fails, TADDR that word's address and TINFO the first word (R44);
ALIGN where the program counter is no multiple of 4 (R375). The data are those that the fetch brings.
A fetch checks no poison, and whatever stands between a PC and its word is FETCH: logs 54, 101. -/
def Obligations.InstructionFetch : Prop :=
  (∀ (s t : State) (va : Word) (w : Nat), fetchWord s va = some (w, t) →
     ∃ pg pa new, translate s (whoOf s.cur) va = .ok pg pa new ∧ pg.x = true ∧ (s.cur.priv = true ∨ pg.u = true) ∧
       locClass (pageLoc s pg pa) = 0 ∧ smGet false s.measured (pageLoc s pg pa / 65536) = true ∧
       w = leNat (rdBytes s (pageCoh pg pa) (pageLoc s pg pa) 4)) ∧
  (∀ (s : State), ready { eng := true } s = true → s.cur.kind = .sheaf →
     exec .reservedEncoding s = .next (raiseTrap s ⟨ILLEGAL, pcOf s, 0, wd (inA s 0), 0⟩) ∧
     (inA s 0 = 1 → exec .fetchFault s = .next (raiseTrap s ⟨FETCH2, pcOf s, pcOf s + 4, wd (inA s 1), 0⟩)) ∧
     (inA s 0 ≠ 1 → (pcOf s).toNat % 4 ≠ 0 → exec .fetchFault s = .next (raiseTrap s ⟨ALIGN, pcOf s, pcOf s, 0, 0⟩)) ∧
     (inA s 0 ≠ 1 → (pcOf s).toNat % 4 = 0 → exec .fetchFault s = .next (raiseTrap s ⟨FETCH, pcOf s, pcOf s, 0, 0⟩)))

/-- The registers of the device right after reset hold the values that the register tables give (R31, R296, R391, R395):
containment off, no corrections, no matrix or converter events, every bank empty, the windows at their defaults, the
ports' registers at theirs; and no sheaf, stook, launch or request exists. Memory right after reset is in canonical
form.
That reset memory lists nothing is the model's choice: log 1. -/
def Obligations.ResetState : Prop :=
  (State.reset.chcon = 0 ∧ (∀ d, smGet 0 State.reset.chcnt d = 0) ∧ (∀ c, smGet 0 State.reset.mxstat c = 0) ∧
   (∀ c, smGet 0 State.reset.cvstat c = 0) ∧ (∀ u, smGet Bank.empty State.reset.banks u = Bank.empty) ∧
   (∀ u, u < 32 → smGet 0 State.reset.wcfg u = BitVec.ofNat 64 (10000 * 2 ^ 32 + 32)) ∧
   (∀ p, (portGet State.reset p).ctl = 5 ∧ (portGet State.reset p).park = 0 ∧ (portGet State.reset p).qthr = 64 ∧
     (portGet State.reset p).thr = 4096) ∧
   State.reset.cur.kind = .none ∧ State.reset.agents = [] ∧ State.reset.stooks = [] ∧ State.reset.launches = [] ∧
   State.reset.reqs = []) ∧
  (memOk State.reset)

/-! ### Memory -/

/-- Every step keeps memory in its canonical form, from any state that has it. -/
def Obligations.StepKeepsMemoryCanonical : Prop :=
  ∀ (s t : State), memOk s → step s = .next t → memOk t

/-- Bytes written at a location read back, in order, and every other location of the same view, the coherent one or the
home arrays', reads what it read before; for locations that hold bytes of memory, which a barrier file and the space beyond
the plane stores do not. -/
def Obligations.ReadAfterWrite : Prop :=
  ∀ (s : State) (coh : Bool) (loc : Nat) (bs : List Byte) (tag : Option (BitVec 12)) (j : Nat),
    (∀ k, loc ≤ k → k < loc + bs.length → locClass k ≠ 5 ∧ barFile k = none) →
    rdByte (wrBytes s coh loc bs tag) coh j =
      if h : loc ≤ j ∧ j < loc + bs.length then bs[j - loc] else rdByte s coh j

/-! ### Registers and lanes (02) -/

/-- Scalar and mask registers (R23, R24): S0 reads zero and a write to it is discarded; a write to any other S register
is what is read, and no other register changes; M0 reads as the lanes that exist, 2^W - 1, and a write to it is
discarded; every M register reads zero at and above bit W, and a write to one is what is read below W. The active lanes
(R27): a lane is active when the slot's mask holds it and the guard mask register's bit is set, or is clear under MD.GN;
a lane of a sheaf narrower than 64 is active only below W. An instruction that names a V register at or beyond the
sheaf's count traps ILLEGAL from state with its own address and word, before its own rule, whatever the rule is (R22,
R43 step 5). -/
def Obligations.RegistersAndLanes : Prop :=
  ((∀ (s : State) (n m : Nat) (v : Word),
      getS s 0 = 0 ∧ setS s 0 v = s ∧ getS (setS s n v) m = (if m = n ∧ n ≠ 0 then v else getS s m) ∧
      getM s 0 = wd (2 ^ wOf s - 1) ∧ setM s 0 v = s ∧
      (∀ l, wOf s ≤ l → l < 64 → bit (getM s n) l = false) ∧
      (n ≠ 0 → ∀ l, l < wOf s → l < 64 → bit (getM (setM s n v) n) l = bit v l) ∧
      (m ≠ n → getM (setM s n v) m = getM s m)) ∧
   (∀ (s : State) (l : Nat),
      (l ∈ activeLanes s ↔ l < wOf s ∧ bit (slotOf s).mask l = true ∧
        (bit (getM s (fld s.cur.md.toNat 3 0)) l != s.cur.md.getLsbD 4) = true))) ∧
  (∀ (i : Instr) (u : Use) (f : State → Issue) (s : State),
     ready { u with vr := [], vw := [] } s = true → poisonHit (slotOf s) u = none →
     s.cur.kind = .sheaf → (∃ n ∈ u.vr ++ u.vw, s.cur.k.vregs ≤ n) →
     run i u f s = .next (raiseTrap s ⟨ILLEGAL, pcOf s, 0, wd (word0 i), 0⟩))

/-! ### Traps (25) -/

/-- Trap entry of a sheaf with a handler (R372): where THND is not 0, TSLOT.MASKED is 0 and the trap is not a FETCH at THND,
the trap registers hold what the trap shows with a new ESEQ value, TSLOT the trapping slot, whether the other slot was live,
the privilege before, and MASKED; the privilege is SYSTEM; the trapping slot goes on at THND with its mask and record; the
other slot cannot issue. V, S and M registers, MD, the flags, memory, and everything else of the machine are as before, but that
what the slot had asked of other nodes for the instruction is forgotten (log 123). -/
def Obligations.TrapEntry : Prop :=
  ∀ (s : State) (x : TrapInfo), s.cur.kind = .sheaf → s.cur.thnd ≠ 0 → masked s.cur = false → (slotOf s).wait = .ready →
    ¬ (x.cause = FETCH ∧ x.taddr = s.cur.thnd) →
    ∃ t, raiseTrap s x = t ∧
      t.cur.tcause = wd x.cause ∧ t.cur.tpc = x.tpc ∧ t.cur.taddr = x.taddr ∧ t.cur.tinfo = x.tinfo ∧
      t.cur.tmask = x.tmask ∧ t.cur.tseq = s.eseq + 1 ∧ t.eseq = s.eseq + 1 ∧
      t.cur.tslot = wd ((if s.slot then 1 else 0) + (if (getSlot s.cur (!s.slot)).live then 2 else 0) +
        (if s.cur.priv then 4 else 0) + 8) ∧
      t.cur.priv = true ∧ pcOf t = s.cur.thnd ∧ (slotOf t).mask = (slotOf s).mask ∧ (slotOf t).inner = (slotOf s).inner ∧
      getSlot t.cur (!s.slot) = getSlot s.cur (!s.slot) ∧ canIssue { t with slot := !s.slot } = false ∧
      t.cur.v = s.cur.v ∧ t.cur.s = s.cur.s ∧ t.cur.m = s.cur.m ∧ t.cur.md = s.cur.md ∧ t.cur.sstat = s.cur.sstat ∧
      t.asks = (forgetAsks s s.cur.id s.slot).asks ∧
      { t with cur := s.cur, eseq := s.eseq, asks := s.asks } = s ∧ sameBytes s t

/-- A trap that meets no handler aborts its stook (R373): where THND is 0, or TSLOT.MASKED is 1, or FETCH arises at THND
itself, the trap registers hold what the trap shows, the stook is marked with the trap's ESEQ, no slot of the sheaf in
focus issues again, and bank 107 has counted one KIND 8 event of the core, the slot and the cause. An instruction
outside the engine subset, or one that names S16 to S63, stops an engine program before any other check (R265), and
the cause is the one that the same instruction would have raised in a sheaf, by the checks that every instruction meets
and then by its own rule, 0 where it would have raised none. So stops every instruction whose first word is not one of R264's
list: the SALU and its immediate forms, SLI, SLIW, BRA, BC, MMA, ACLR, ADRN, CPB, the BAR operations, QPUSH, QPOP, WAIT and EEND.
An engine program that meets a trap condition stops (R265): it ends, nothing of the instruction takes effect, and its stook, where it has not aborted and
holds fewer than 16, holds ENGERR with the instruction's address, the sequencer in TINFO[0] and the cause in TINFO[5:1].
-/
def Obligations.UnhandledTraps : Prop :=
  (∀ (s : State) (x : TrapInfo) (k : Stook), s.cur.kind = .sheaf →
     (s.cur.thnd = 0 ∨ masked s.cur = true ∨ (x.cause = FETCH ∧ x.taddr = s.cur.thnd)) →
     findStook s s.cur.stook = some k → k.abort = none →
     ∃ t, raiseTrap s x = t ∧ t.cur.tcause = wd x.cause ∧ t.cur.tpc = x.tpc ∧ t.cur.tseq = s.eseq + 1 ∧
       findStook t s.cur.stook = some { k with abort := some (s.eseq + 1) } ∧
       (∀ sec, canIssue { t with slot := sec } = false) ∧
       smGet Bank.empty t.banks 107 = bankEvent (smGet Bank.empty s.banks 107) 8 2
         (wd (s.cur.core + s.cur.slotNo * 2 ^ 7 + x.cause * 2 ^ 13 + min k.dropped 65535 * 2 ^ 48)) (wd (2 ^ 56)) (s.eseq + 1)) ∧
  ((∀ (i : Instr) (u : Use) (f : State → Issue) (s : State), (s.cur.kind = .matSeq ∨ s.cur.kind = .copySeq) →
      canIssue s = true → (u.eng = false ∨ ∃ n ∈ u.sr ++ u.sw, 16 ≤ n) → run i u f s = .next (stopEngine s (trapCause ((precheck i u s).getD (f s))))) ∧
   (∀ (i : Instr) (s : State) (w : Nat), (s.cur.kind = .matSeq ∨ s.cur.kind = .copySeq) → canIssue s = true →
      i.WellFormed = true → (encode i).head? = some w → engineWord w = false → ∃ c, exec i s = .next (stopEngine s c)) ∧
   (∀ (s : State) (x : TrapInfo) (k : Stook), (s.cur.kind = .matSeq ∨ s.cur.kind = .copySeq) → s.cur.pri.wait = .ready →
      findStook s s.cur.stook = some k → k.abort = none → k.held.length < 16 →
      ∃ t, raiseTrap s x = t ∧ t.cur = { s.cur with ended := true, pri := Slot.free } ∧ t.eseq = s.eseq + 1 ∧
        findStook t s.cur.stook = some { k with held := k.held ++
          [⟨ENGERR, s.cur.pri.pc, wd ((if s.cur.kind = .copySeq then 1 else 0) + x.cause * 2), s.eseq + 1⟩] } ∧
        sameBytes s t))

/-- RFT at SYSTEM with TSLOT.MASKED = 1 (R375): the privilege becomes PPRIV, MASKED becomes 0, the issuing slot goes on
at TPC, and nothing else changes; with MASKED = 0 it traps ILLEGAL. At USER every SYSTEM instruction traps PRIV with its
own address and no other effect, whatever its operands (R41, R31): HALT, RFT, TLBI, CINV, CHINJ, and MFC and MTC of a
register whose access is SRW or SRO. The program traps (R377): TRAP and SYSC raise TRAPI and BRK raises BRKPT, with TPC
the following word, TADDR 0, TMASK 0 and the code in TINFO, whatever the masks hold; TRAP 0 traps ILLEGAL. Their words
are those of the table, and a word of BRK or SYSC with a nonzero sa field is no instruction. -/
def Obligations.TrapsAndPrivilege : Prop :=
  ((∀ (s : State), ready { sys := true } s = true →
      (masked s.cur = true → exec .rft s =
        .next (setPc (onCur s (fun a => { a with priv := a.tslot.getLsbD 2, tslot := a.tslot &&& 7 })) s.cur.tpc)) ∧
      (masked s.cur = false → s.cur.kind = .sheaf → exec .rft s =
        .next (raiseTrap s ⟨ILLEGAL, pcOf s, 0, wd 0x34800000, 0⟩))) ∧
   (∀ (s : State) (a d c : Nat), ready { sr := [a] } s = true → s.cur.kind = .sheaf → s.cur.priv = false →
      (let t : Out := .next (raiseTrap s ⟨PRIV, pcOf s, 0, 0, 0⟩)
       exec .halt s = t ∧ exec .rft s = t ∧ exec (.tlbi a) s = t ∧ exec .tlbiAll s = t ∧ exec (.cinv a) s = t ∧
       exec (.chinj a) s = t ∧ (cregSys c = true → exec (.mfc d c) s = t ∧ exec (.mtc a c) s = t)))) ∧
  (∀ (s : State) (n : Nat), ready {} s = true → s.cur.kind = .sheaf →
     (n ≠ 0 → exec (.trap n) s = .next (raiseTrap s ⟨TRAPI, pcOf s + 4, 0, wd n, 0⟩)) ∧
     exec (.trap 0) s = .next (raiseTrap s ⟨ILLEGAL, pcOf s, 0, 0, 0⟩) ∧
     exec (.brk n) s = .next (raiseTrap s ⟨BRKPT, pcOf s + 4, 0, wd n, 0⟩) ∧
     exec (.sysc n) s = .next (raiseTrap s ⟨TRAPI, pcOf s + 4, 0, wd (2 ^ 25 + n), 0⟩) ∧
     (n < 2 ^ 25 → encode (.trap n) = [n]) ∧ (n < 2 ^ 14 → encode (.brk n) = [0x34E00000 + n]) ∧
     (n < 2 ^ 14 → encode (.sysc n) = [0x34F00000 + n]) ∧
     (∀ w w1, fld w 31 25 = 0x1A → (fld w 24 20 = 14 ∨ fld w 24 20 = 15) → fld w 19 14 ≠ 0 →
       decodeWord w w1 = .error .mustBeZero))

/-! ### The scalar unit (07) -/

/-- The scalar operations of two registers (R142), MD and SSTAT playing no part: Sd takes the value of the table, on 64
bits modulo 2^64, and the slot goes on at PC + 4. The words of major opcode 0x01 are these. Sub-operations 25 to 127, and an sb field of SCLZ or SPOPC that is not
zero, are no instructions. The four scalar divisions (R143): an ordinary division writes the quotient
rounded toward zero or the remainder of the dividend's sign and sets no flag; a division by zero writes all ones or the
dividend and sets SSTAT.DZ; the signed division of -2^63 by -1 writes -2^63 or 0 and sets SSTAT.DOV. Either event writes
DIVMASK := 0, and where MD.DZT is set the DIVZ trap follows the write, with TPC the following word, TADDR the divide,
TINFO its word and TMASK 0; an engine program stops there with that cause, nothing of the division taking effect (R265). -/
def Obligations.ScalarOperations : Prop :=
  ((∀ (s : State) (d a b : Nat), ready { sr := [a, b], sw := [d], eng := true } s = true →
     let x := getS s a
     let y := getS s b
     let k := y.toNat % 64
     let put : Word → Out := fun v => .next (advance (setS s d v))
     exec (.sadd d a b) s = put (x + y) ∧ exec (.ssub d a b) s = put (x - y) ∧ exec (.smul d a b) s = put (x * y) ∧
     exec (.smulh d a b) s = put (BitVec.ofInt 64 (x.toInt * y.toInt / 2 ^ 64)) ∧
     exec (.smulhu d a b) s = put (BitVec.ofNat 64 (x.toNat * y.toNat / 2 ^ 64)) ∧
     exec (.sand d a b) s = put (x &&& y) ∧ exec (.sor d a b) s = put (x ||| y) ∧ exec (.sxor d a b) s = put (x ^^^ y) ∧
     exec (.sshl d a b) s = put (x <<< k) ∧ exec (.sshr d a b) s = put (x >>> k) ∧
     exec (.ssar d a b) s = put (x.sshiftRight k) ∧
     exec (.smin d a b) s = put (if x.toInt ≤ y.toInt then x else y) ∧
     exec (.sminu d a b) s = put (if x.toNat ≤ y.toNat then x else y) ∧
     exec (.smax d a b) s = put (if x.toInt ≤ y.toInt then y else x) ∧
     exec (.smaxu d a b) s = put (if x.toNat ≤ y.toNat then y else x) ∧
     exec (.sseq d a b) s = put (if x = y then 1 else 0) ∧ exec (.ssne d a b) s = put (if x = y then 0 else 1) ∧
     exec (.sslt d a b) s = put (if x.toInt < y.toInt then 1 else 0) ∧
     exec (.ssltu d a b) s = put (if x.toNat < y.toNat then 1 else 0)) ∧
   (∀ (s : State) (d a : Nat), ready { sr := [a], sw := [d], eng := true } s = true →
     (∃ n, exec (.sclz d a) s = .next (advance (setS s d (BitVec.ofNat 64 n))) ∧ n ≤ 64 ∧
       (∀ i, 64 - n ≤ i → i < 64 → bit (getS s a) i = false) ∧ (n < 64 → bit (getS s a) (63 - n) = true)) ∧
     exec (.spopc d a) s =
       .next (advance (setS s d (BitVec.ofNat 64 ((List.range 64).filter (bit (getS s a))).length)))) ∧
   (∀ w w1, fld w 31 25 = 0x01 →
     let d := fld w 24 19
     let a := fld w 18 13
     let b := fld w 12 7
     (∀ i, [Instr.sadd d a b, .ssub d a b, .smul d a b, .smulh d a b, .smulhu d a b, .sdiv d a b, .sdivu d a b, .srem d a b,
       .sremu d a b, .sand d a b, .sor d a b, .sxor d a b, .sshl d a b, .sshr d a b, .ssar d a b, .smin d a b, .sminu d a b,
       .smax d a b, .smaxu d a b, .sseq d a b, .ssne d a b, .sslt d a b, .ssltu d a b][fld w 6 0]? = some i → decodeWord w w1 = .ok i) ∧
     (b = 0 → (fld w 6 0 = 23 → decodeWord w w1 = .ok (.sclz d a)) ∧ (fld w 6 0 = 24 → decodeWord w w1 = .ok (.spopc d a)))) ∧
   (∀ w w1, fld w 31 25 = 0x01 → 25 ≤ fld w 6 0 → decodeWord w w1 = .error .reservedCode) ∧
   (∀ w w1, fld w 31 25 = 0x01 → (fld w 6 0 = 23 ∨ fld w 6 0 = 24) → fld w 12 7 ≠ 0 →
     decodeWord w w1 = .error .mustBeZero)) ∧
  (∀ (s : State) (d a b : Nat), ready { sr := [a, b], sw := [d], eng := true } s = true →
     let x := getS s a
     let y := getS s b
     let tops := x.toInt = -2 ^ 63 ∧ y.toInt = -1
     let ok : Word → Out := fun q => .next (advance (setS s d q))
     let ev : Instr → Word → BitVec 8 → Out := fun i q f =>
       let t := onCur (advance (setS s d q)) (fun a => { a with sstat := a.sstat ||| f, divmask := 0 })
       .next (if s.cur.md.getLsbD 14 = false then t
         else if s.cur.kind = .sheaf then raiseTrap t ⟨DIVZ, pcOf s + 4, pcOf s, wd (word0 i), 0⟩ else stopEngine s DIVZ)
     exec (.sdiv d a b) s = (if y = 0 then ev (.sdiv d a b) (BitVec.allOnes 64) 1
       else if tops then ev (.sdiv d a b) (BitVec.ofInt 64 (-2 ^ 63)) 2 else ok (BitVec.ofInt 64 (x.toInt.tdiv y.toInt))) ∧
     exec (.srem d a b) s = (if y = 0 then ev (.srem d a b) x 1
       else if tops then ev (.srem d a b) 0 2 else ok (BitVec.ofInt 64 (x.toInt.tmod y.toInt))) ∧
     exec (.sdivu d a b) s = (if y = 0 then ev (.sdivu d a b) (BitVec.allOnes 64) 1
       else ok (BitVec.ofNat 64 (x.toNat / y.toNat))) ∧
     exec (.sremu d a b) s = (if y = 0 then ev (.sremu d a b) x 1 else ok (BitVec.ofNat 64 (x.toNat % y.toNat))))

/-- The immediate forms (R144): Sd := Sa op the immediate, which the decoder sign-extends from 13 bits; the slot goes on at
PC + 4. A shift immediate outside 0 to 63 is no instruction. The constant loads (R145): SLI and SLIW write
their immediate sign-extended from 13 and 32 bits; SLIH replaces the high half of Sd and keeps the low half; SLI goes on
at PC + 4, the long forms at PC + 8 (R34). SLIW of the low word and then SLIH of the high word leave a 64-bit constant.
-/
def Obligations.ImmediatesAndConstants : Prop :=
  ((∀ (s : State) (d a k : Nat) (n : Int), ready { sr := [a], sw := [d], eng := true } s = true →
     let x := getS s a
     let i := BitVec.ofInt 64 n
     let put : Word → Out := fun v => .next (advance (setS s d v))
     exec (.saddi d a n) s = put (x + i) ∧ exec (.sandi d a n) s = put (x &&& i) ∧ exec (.sori d a n) s = put (x ||| i) ∧
     exec (.sxori d a n) s = put (x ^^^ i) ∧ exec (.sslti d a n) s = put (if x.toInt < n then 1 else 0) ∧
     exec (.sshli d a k) s = put (x <<< k) ∧ exec (.sshri d a k) s = put (x >>> k) ∧
     exec (.ssari d a k) s = put (x.sshiftRight k)) ∧
   (∀ w w1,
     let d := fld w 24 19
     let a := fld w 18 13
     let n := sx 13 (fld w 12 0)
     let k := fld w 12 0
     (∀ p ∈ [(0x02, Instr.saddi d a n), (0x03, .sandi d a n), (0x04, .sori d a n), (0x05, .sxori d a n), (0x09, .sslti d a n)],
       fld w 31 25 = p.1 → decodeWord w w1 = .ok p.2) ∧
     (∀ p ∈ [(0x06, Instr.sshli d a k), (0x07, .sshri d a k), (0x08, .ssari d a k)],
       fld w 31 25 = p.1 → k < 64 → decodeWord w w1 = .ok p.2)) ∧
   (∀ w w1, (fld w 31 25 = 0x06 ∨ fld w 31 25 = 0x07 ∨ fld w 31 25 = 0x08) → 64 ≤ fld w 12 0 →
     decodeWord w w1 = .error .excluded)) ∧
  (∀ (s : State) (d : Nat) (n m : Int) (h : Nat),
     (ready { sw := [d], eng := true } s = true →
       exec (.sli d n) s = .next (setPc (setS s d (BitVec.ofInt 64 n)) (pcOf s + 4)) ∧
       exec (.sliw d m) s = .next (setPc (setS s d (BitVec.ofInt 64 m)) (pcOf s + 8))) ∧
     (ready { sr := [d], sw := [d] } s = true → h < 2 ^ 32 →
       exec (.slih d h) s = .next (setPc (setS s d (BitVec.ofNat 32 h ++ (getS s d).extractLsb' 0 32)) (pcOf s + 8))) ∧
     (∀ w w1, fld w 31 25 = 0x0C → fld w 18 0 = 0 → decodeWord w w1 = .ok (.slih (fld w 24 19) (fld w1 31 0))) ∧
     (∀ w w1, fld w 31 25 = 0x0A → fld w 18 13 = 0 → decodeWord w w1 = .ok (.sli (fld w 24 19) (sx 13 (fld w 12 0)))) ∧
     (∀ w w1, fld w 31 25 = 0x0B → fld w 18 0 = 0 → decodeWord w w1 = .ok (.sliw (fld w 24 19) (sx 32 (fld w1 31 0)))))

/-- SGET and VSET (R146): the lane is bits 5 to 0 of Sb, whatever the masks hold. SGET reads a pair for I64 and N64, the
32-bit lane sign-extended for I32, I16 and I8 and zero-extended for every other code, and 0 at a lane that the sheaf has
not; VSET writes the pair or the lane, and nothing at a lane that the sheaf has not. An odd register of a pair is
ILLEGAL. The mask instructions (R184, R185), for the whole mask whatever the slot's mask and guard: the five logical
operations, Sa's low W bits into Mk, and from Mk its value, its number of ones, and the index of its lowest one, or W.
-/
def Obligations.LaneAndMaskAccess : Prop :=
  (∀ (s : State) (r a b : Nat),
     let wide := etOf s = 2 ∨ etOf s = 3
     let l := (getS s b).toNat % 64
     (ready { vr := if wide then [a, a + 1] else [a], sr := [b], sw := [r] } s = true →
       let put : Word → Out := fun v => .next (advance (setS s r v))
       (wide → a % 2 = 1 → exec (.sget r a b) s = .next (raiseTrap s (illegalTrap s (word0 (.sget r a b))))) ∧
       ((wide → a % 2 = 0) → wOf s ≤ l → exec (.sget r a b) s = put 0) ∧
       (wide → a % 2 = 0 → l < wOf s → exec (.sget r a b) s = put (getV s (a + 1) l ++ getV s a l)) ∧
       (¬wide → l < wOf s → etOf s = 0 ∨ etOf s = 4 ∨ etOf s = 6 →
         exec (.sget r a b) s = put ((getV s a l).signExtend 64)) ∧
       (¬wide → l < wOf s → ¬(etOf s = 0 ∨ etOf s = 4 ∨ etOf s = 6) →
         exec (.sget r a b) s = put ((getV s a l).setWidth 64))) ∧
     (ready { vw := if wide then [r, r + 1] else [r], sr := [a, b] } s = true →
       (wide → r % 2 = 1 → exec (.vset r a b) s = .next (raiseTrap s (illegalTrap s (word0 (.vset r a b))))) ∧
       ((wide → r % 2 = 0) → wOf s ≤ l → exec (.vset r a b) s = .next (advance s)) ∧
       (wide → r % 2 = 0 → l < wOf s → exec (.vset r a b) s =
         .next (advance (setV (setV s r l ((getS s a).extractLsb' 0 32)) (r + 1) l ((getS s a).extractLsb' 32 32)))) ∧
       (¬wide → l < wOf s → exec (.vset r a b) s = .next (advance (setV s r l ((getS s a).extractLsb' 0 32)))))) ∧
  (∀ (s : State) (d a b r : Nat),
     let x := getM s a
     let y := getM s b
     (ready {} s = true →
       exec (.mand d a b) s = .next (advance (setM s d (x &&& y))) ∧ exec (.mor d a b) s = .next (advance (setM s d (x ||| y))) ∧
       exec (.mxor d a b) s = .next (advance (setM s d (x ^^^ y))) ∧
       exec (.mandn d a b) s = .next (advance (setM s d (x &&& ~~~y))) ∧
       exec (.mnot d a) s = .next (advance (setM s d (~~~x)))) ∧
     (ready { sr := [r] } s = true → exec (.mset d r) s = .next (advance (setM s d (getS s r)))) ∧
     (ready { sw := [r] } s = true →
       exec (.mget r a) s = .next (advance (setS s r x)) ∧
       exec (.mpop r a) s = .next (advance (setS s r (BitVec.ofNat 64 ((List.range 64).filter (bit x)).length))) ∧
       ∃ j, exec (.mfst r a) s = .next (advance (setS s r (BitVec.ofNat 64 j))) ∧ j ≤ wOf s ∧
         (j < wOf s → bit x j = true) ∧ ∀ i, i < j → bit x i = false))

/-- The frame of the scalar instructions that write one S register: nothing but Sd and the program counter of the slot in
issue changes; no V or M register, no flag, no special or trap register, no byte of memory, and nothing of the machine. The
scalar divisions, where no DIVZ trap follows, write SSTAT and DIVMASK besides. The first list is in the engine subset. -/
def Obligations.ScalarFrame : Prop :=
  ∀ (s t : State) (d a b k : Nat) (n : Int) (i : Instr), exec i s = .next t →
    (ready { sr := [a, b], sw := [d], eng := true } s = true →
      i ∈ [Instr.sadd d a b, .ssub d a b, .smul d a b, .smulh d a b, .smulhu d a b, .sand d a b, .sor d a b, .sxor d a b,
        .sshl d a b, .sshr d a b, .ssar d a b, .smin d a b, .sminu d a b, .smax d a b, .smaxu d a b, .sseq d a b,
        .ssne d a b, .sslt d a b, .ssltu d a b, .sclz d a, .spopc d a, .saddi d a n, .sandi d a n, .sori d a n, .sxori d a n,
        .sslti d a n, .sshli d a k, .sshri d a k, .ssari d a k, .sli d n, .sliw d n] → regFrame s t [] [d] []) ∧
    (ready { sr := [d], sw := [d] } s = true → i ∈ [Instr.slih d k, .clk d, .mget d k, .mpop d k, .mfst d k] →
      regFrame s t [] [d] []) ∧
    (ready { sr := [a, b], sw := [d], eng := true } s = true → dztOf s = false →
      i ∈ [Instr.sdiv d a b, .sdivu d a b, .srem d a b, .sremu d a b] →
      regFrame s (onCur t (fun g => { g with sstat := s.cur.sstat, divmask := s.cur.divmask })) [] [d] [])

/-! ### The mode, the control registers and control flow (02, 07) -/

/-- MODE (R147, R29): fields with no reserved ET or RM code and bit 23 clear become MD, whole; any other traps ILLEGAL
at the MODE with MD unchanged. MTC to MD behaves as MODE. MTC (R31, R4, R148): SSTAT's bits are cleared by ones; the
sheaf's other registers take the value, TCAUSE and TSLOT in their fields; THND takes a multiple of 4 and no other value;
a declared bound entry takes each of its four words and an undeclared one keeps none; CHCON, MXSTAT, CVSTAT and the
registers of a port take theirs, LNK.PARK only where it leaves a wavelength (R299); a write of CHMAP starts the remap of the
one channel that it moves to the spare, or is its own value, or traps ILLEGAL, and waits while a remap runs or a lasting die
fault is declared (R231); a write of a register that is read only is discarded and the slot goes on. So an MTC of every
assigned register completes but for MD, THND, LNK.PARK and CHMAP with a value that they refuse. A number that is not
assigned traps ILLEGAL in both instructions (R32).
Reserved count bits, undeclared bounds and LNK.BER: logs 17, 61, 62. That LNK.CTL keeps bits 2 to 0 as written, TRAIN with them, is
the model's choice: log 37. -/
def Obligations.ControlRegisterWrites : Prop :=
  (∀ (s : State) (m a : Nat),
     (ready {} s = true →
       (m < 2 ^ 23 → fld m 9 5 ≤ 14 → fld m 12 10 ≤ 5 →
         exec (.mode m) s = .next (advance (onCur s (fun g => { g with md := BitVec.ofNat 24 m })))) ∧
       (s.cur.kind = .sheaf → (2 ^ 23 ≤ m ∨ 14 < fld m 9 5 ∨ 5 < fld m 12 10) →
         exec (.mode m) s = .next (raiseTrap s ⟨ILLEGAL, pcOf s, 0, wd (word0 (.mode m)), 0⟩))) ∧
     (ready { sr := [a] } s = true →
       let x := (getS s a).toNat
       (x < 2 ^ 23 → fld x 9 5 ≤ 14 → fld x 12 10 ≤ 5 →
         exec (.mtc a 0) s = .next (advance (onCur s (fun g => { g with md := BitVec.ofNat 24 x })))) ∧
       (s.cur.kind = .sheaf → (2 ^ 23 ≤ x ∨ 14 < fld x 9 5 ∨ 5 < fld x 12 10) →
         exec (.mtc a 0) s = .next (raiseTrap s ⟨ILLEGAL, pcOf s, 0, wd (word0 (.mtc a 0)), 0⟩)))) ∧
  (∀ (s : State) (a d c : Nat), ready { sr := [a], sw := [d], sys := cregSys c } s = true →
     let x := getS s a
     let put : (Agent → Agent) → Out := fun f => .next (advance (onCur s f))
     (c = 1 → exec (.mtc a c) s = put (fun g => { g with sstat := g.sstat &&& ~~~(x.setWidth 8) })) ∧
     (c = 2 → exec (.mtc a c) s = put (fun g => { g with divmask := x })) ∧
     (c = 0x20 → exec (.mtc a c) s = put (fun g => { g with srkey := x })) ∧
     (c = 0x21 → exec (.mtc a c) s = put (fun g => { g with srseq := x })) ∧
     (c = 0x24 → exec (.mtc a c) s = put (fun g => { g with rngstream := x })) ∧
     (c = 0x30 → exec (.mtc a c) s = put (fun g => { g with tcause := x &&& 0x1FF })) ∧
     (c = 0x31 → exec (.mtc a c) s = put (fun g => { g with tpc := x })) ∧
     (c = 0x32 → exec (.mtc a c) s = put (fun g => { g with taddr := x })) ∧
     (c = 0x33 → exec (.mtc a c) s = put (fun g => { g with tinfo := x })) ∧
     (c = 0x34 → exec (.mtc a c) s = put (fun g => { g with tmask := x })) ∧
     (c = 0x35 → exec (.mtc a c) s = put (fun g => { g with tslot := x &&& 0xF })) ∧
     (c = 0x36 → x.toNat % 4 = 0 → exec (.mtc a c) s = put (fun g => { g with thnd := x })) ∧
     (c = 0x36 → x.toNat % 4 ≠ 0 → s.cur.kind = .sheaf →
       exec (.mtc a c) s = .next (raiseTrap s ⟨ILLEGAL, pcOf s, 0, wd (word0 (.mtc a c)), 0⟩)) ∧
     (c = 0x37 → exec (.mtc a c) s = put (fun g => { g with tseq := x })) ∧
     (c = 0x220 → exec (.mtc a c) s = .next (advance { s with mxstat := smPut 0 s.mxstat s.cur.core (countFields x) })) ∧
     (c = 0x221 → exec (.mtc a c) s = .next (advance { s with cvstat := smPut 0 s.cvstat s.cur.core (countFields x) })) ∧
     (∀ n, 1 ≤ n → n < 64 → boundDeclared s s.cur.core n = true →
       (c = 0x100 + 4 * n →
         exec (.mtc a c) s = .next (advance (boundPut s s.cur.core n { boundGet s s.cur.core n with lo := x }))) ∧
       (c = 0x101 + 4 * n →
         exec (.mtc a c) s = .next (advance (boundPut s s.cur.core n { boundGet s s.cur.core n with hi := x }))) ∧
       (c = 0x102 + 4 * n → exec (.mtc a c) s =
         .next (advance (boundPut s s.cur.core n { boundGet s s.cur.core n with act := x.toNat % 4 }))) ∧
       (c = 0x103 + 4 * n → exec (.mtc a c) s =
         .next (advance (boundPut s s.cur.core n { boundGet s s.cur.core n with cnt := x.setWidth 32 })))) ∧
     (c = 0x200 → ∃ v, exec (.mtc a c) s = .next (advance { s with chcon := v }) ∧ ∀ i < 64, bit v i =
       if i = 4 ∨ i = 5 ∨ (36 ≤ i ∧ i ≤ 51) then bit x i
       else if i = 0 ∨ i = 2 ∨ i = 3 then bit s.chcon i && !bit x i else bit s.chcon i) ∧
     (∀ n, n < 64 → boundDeclared s s.cur.core n = false → 0x100 + 4 * n ≤ c → c < 0x104 + 4 * n →
       exec (.mtc a c) s = .next (advance s)) ∧
     (∀ p, p < 32 →
       let q := portNow s p
       let put : Port → Out := fun y => .next (advance (portPut s p y))
       (c = 0x1000 + 32 * p → exec (.mtc a c) s = put (if bit x 1 then startFull { q with ctl := x &&& 7 } s.time true
         else { q with ctl := x &&& 7 })) ∧
       (c = 0x1002 + 32 * p →
         (∀ y, writePark q (x.setWidth 8) = some y → exec (.mtc a c) s = put y) ∧
         (writePark q (x.setWidth 8) = none → s.cur.kind = .sheaf →
           exec (.mtc a c) s = .next (raiseTrap s ⟨ILLEGAL, pcOf s, 0, wd (word0 (.mtc a c)), 0⟩))) ∧
       (c = 0x1003 + 32 * p → exec (.mtc a c) s = put { q with qthr := x.setWidth 16 }) ∧
       (c = 0x1004 + 32 * p → exec (.mtc a c) s = put { q with thr := x.setWidth 32 }) ∧
       (∀ k, k < 8 → c = 0x1008 + 32 * p + k → exec (.mtc a c) s = put { q with ber := q.ber.set k (x.toNat % 2 ^ 32) }) ∧
       (c = 0x1001 + 32 * p ∨ (0x1005 + 32 * p ≤ c ∧ c ≤ 0x1007 + 32 * p) → exec (.mtc a c) s = put q)) ∧
     (c = 0x201 →
       (s.remap.isSome = true ∨ (∃ d < 11, dieDeclared s d = true) → exec (.mtc a c) s = .next s) ∧
       (s.remap = none → (∀ d, d < 11 → dieDeclared s d = false) →
         (x.toNat = chmapWord s.chmap → exec (.mtc a c) s = .next (advance s)) ∧
         (x.toNat ≠ chmapWord s.chmap →
           (∀ k, oneMove s x = some k →
             exec (.mtc a c) s = .next (advance { s with remap := some ⟨k, s.chmap.getD k 0, false⟩ })) ∧
           (oneMove s x = none → s.cur.kind = .sheaf →
             exec (.mtc a c) s = .next (raiseTrap s ⟨ILLEGAL, pcOf s, 0, wd (word0 (.mtc a c)), 0⟩))))) ∧
     (cregAssigned c = true → c ≠ 0 → c ≠ 0x36 → c ≠ 0x201 → ¬(0x1000 ≤ c ∧ c < 0x1400 ∧ c % 32 = 2) →
       ∃ t, exec (.mtc a c) s = .next t ∧ pcOf t = pcOf s + 4) ∧
     ((c = 3 ∨ (0x10 ≤ c ∧ c ≤ 0x1F) ∨ c = 0x22 ∨ c = 0x23 ∨ (0x210 ≤ c ∧ c ≤ 0x21A) ∨ (0x400 ≤ c ∧ c ≤ 0x48F) ∨
         (0x1800 ≤ c ∧ c ≤ 0x1BFF ∧ c % 8 < 6) ∨ c = 0x1C00 ∨ c = 0x1C01) →
       exec (.mtc a c) s = .next (advance s)) ∧
     (cregAssigned c = false → s.cur.kind = .sheaf →
       exec (.mtc a c) s = .next (raiseTrap s ⟨ILLEGAL, pcOf s, 0, wd (word0 (.mtc a c)), 0⟩) ∧
       exec (.mfc d c) s = .next (raiseTrap s ⟨ILLEGAL, pcOf s, 0, wd (word0 (.mfc d c)), 0⟩)))

/-- MFC (R31, R148): the register's value, zero-extended, goes to Sd, for every assigned number: the sheaf's own registers,
its place, its coordinates, the trap registers, the bound table of its core, the containment register, the channel map, the
correction counts, the event counts of its core, the queue and barrier windows of its stook, the port registers, the error
records, QUIESCE, whose epochs are one while nothing is in flight (R107), and ESEQ. Nothing but Sd and the PC changes. MFC of
SSTAT, DIVMASK, MXSTAT or CVSTAT waits, with no effect, while a vector instruction of the sheaf has events to come. LNK.BER shows
the window of now. The exact value of QUIESCE's DRAIN is the model's choice: log 65. -/
def Obligations.ControlRegisterReads : Prop :=
  ∀ (s : State) (d c : Nat), ready { sw := [d], sys := cregSys c } s = true →
    let a := s.cur
    let put : Word → Out := fun x => .next (advance (setS s d x))
    ((c = 1 ∨ c = 2 ∨ c = 0x220 ∨ c = 0x221) → vectorPending s = true → exec (.mfc d c) s = .next s) ∧
    (vectorPending s = false →
      (c = 1 → exec (.mfc d c) s = put (a.sstat.setWidth 64)) ∧ (c = 2 → exec (.mfc d c) s = put a.divmask) ∧
      (c = 0x220 → exec (.mfc d c) s = put (smGet 0 s.mxstat a.core)) ∧
      (c = 0x221 → exec (.mfc d c) s = put (smGet 0 s.cvstat a.core))) ∧
    (∀ x, (c, x) ∈ [(0, a.md.setWidth 64), (3, wd (a.core + a.core / 8 * 2 ^ 7 + a.slotNo * 2 ^ 11)),
        (0x10, wd (a.k.hx.getD 0 0)), (0x11, wd a.hx1), (0x12, wd (a.k.hx.getD 2 0)), (0x13, wd (a.k.hx.getD 3 0)),
        (0x14, wd (a.k.hx.getD 4 0)), (0x15, wd (a.k.hx.getD 5 0)), (0x16, wd (a.k.hx.getD 6 0)), (0x17, wd (a.k.hx.getD 7 0)),
        (0x18, wd (a.k.hn.getD 0 1)), (0x19, wd (a.k.hn.getD 1 1)), (0x1A, wd (a.k.hn.getD 2 1)), (0x1B, wd (a.k.hn.getD 3 1)),
        (0x1C, wd (a.k.hn.getD 4 1)), (0x1D, wd (a.k.hn.getD 5 1)), (0x1E, wd (a.k.hn.getD 6 1)), (0x1F, wd (a.k.hn.getD 7 1)),
        (0x20, a.srkey), (0x21, a.srseq), (0x22, a.k.grp.setWidth 64), (0x23, a.k.jobkey), (0x24, a.rngstream),
        (0x30, a.tcause), (0x31, a.tpc), (0x32, a.taddr), (0x33, a.tinfo), (0x34, a.tmask), (0x35, a.tslot),
        (0x36, a.thnd), (0x37, a.tseq), (0x100, 0), (0x101, 0), (0x102, 0), (0x103, 0), (0x200, s.chcon),
        (0x201, wd (chmapWord s.chmap)), (0x1C00, drainEpoch s ++ s.epoch), (0x1C01, s.eseq)] → exec (.mfc d c) s = put x) ∧
    (stamps s = [] → drainEpoch s = s.epoch) ∧
    (∀ n x, 1 ≤ n → n < 64 → (c, x) ∈ [(0x100 + 4 * n, (boundGet s a.core n).lo), (0x101 + 4 * n, (boundGet s a.core n).hi),
        (0x102 + 4 * n, wd (boundGet s a.core n).act), (0x103 + 4 * n, (boundGet s a.core n).cnt.setWidth 64)] →
      exec (.mfc d c) s = put x) ∧
    (∀ n x, n < 64 → (c, x) ∈ [(0x400 + 2 * n, queueWord (queueOf s a.stook n)),
        (0x401 + 2 * n, ((queueOf s a.stook n).map (·.base)).getD 0)] → exec (.mfc d c) s = put x) ∧
    (∀ n, n < 16 → c = 0x480 + n → ∃ x, exec (.mfc d c) s = put x ∧ ∀ i < 64, bit x i =
      (decide (64 * n + i < a.k.nBar) && (barGet s a.core (pbOf a.k (64 * n + i))).err)) ∧
    (∀ n, n < 11 → c = 0x210 + n → exec (.mfc d c) s = put ((smGet 0 s.chcnt n).setWidth 64)) ∧
    (∀ p x, p < 32 → (c, x) ∈ [(0x1000 + 32 * p, (portGet s p).ctl), (0x1001 + 32 * p, (portGet s p).stat),
        (0x1002 + 32 * p, (portGet s p).park.setWidth 64), (0x1003 + 32 * p, (portGet s p).qthr.setWidth 64),
        (0x1004 + 32 * p, (portGet s p).thr.setWidth 64), (0x1006 + 32 * p, (portGet s p).fecUnc ++ (portGet s p).fecCor),
        (0x1007 + 32 * p, (portGet s p).rxCount ++ (portGet s p).txCount)] → exec (.mfc d c) s = put x) ∧
    (∀ p, p < 32 → c = 0x1005 + 32 * p → ∃ x, exec (.mfc d c) s = put x ∧
      ∀ k < 8, (x.extractLsb' (8 * k) 8).toNat = (portGet s p).rtcnt.getD k 0 % 256) ∧
    (∀ p k, p < 32 → k < 8 → c = 0x1008 + 32 * p + k → exec (.mfc d c) s = put (wd ((portNow s p).ber.getD k 0))) ∧
    (∀ u x, u < 128 → (c, x) ∈ [(0x1801 + 8 * u, (smGet Bank.empty s.banks u).addr),
        (0x1802 + 8 * u, (smGet Bank.empty s.banks u).synd), (0x1803 + 8 * u, (smGet Bank.empty s.banks u).reseq),
        (0x1804 + 8 * u, smGet 0 s.wcfg u), (0x1805 + 8 * u, wcnt (rollWin s u) u),
        (0x1800 + 8 * u, wd ((smGet Bank.empty s.banks u).count.toNat * 2 ^ 48 + (smGet Bank.empty s.banks u).ovf.toNat * 2 ^ 40 +
          (smGet Bank.empty s.banks u).gen.toNat * 2 ^ 35 + (smGet Bank.empty s.banks u).sev * 2 ^ 32 +
          (smGet Bank.empty s.banks u).kind * 2 ^ 24))] → exec (.mfc d c) s = put x) ∧
    (cregAssigned c = true → ¬((c = 1 ∨ c = 2 ∨ c = 0x220 ∨ c = 0x221) ∧ vectorPending s = true) →
      ∃ x, exec (.mfc d c) s = put x)

/-- The branches (R38, R150 to R153): BRA goes to PC + 4 o; CALL writes S62 := PC + 4 first; JMP and CALLR go to Sa + 4 o,
CALLR computing it before it writes S62, and an unaligned target traps ALIGN with the target in TADDR and writes nothing; BC
branches where Sa, signed, meets the condition, ANYB where the mask register shares a lane with the slot's mask, ALLB where
it holds all of it, and each goes on at PC + 4 otherwise. Nothing but the PC, and S62 of a call, changes. A BC with condition
6 to 15 is no instruction. -/
def Obligations.Branches : Prop :=
  ∀ (s : State) (a k h : Nat) (o : Int),
    let dest : Word := pcOf s + BitVec.ofInt 64 (4 * o)
    let jt : Word := getS s a + BitVec.ofInt 64 (4 * o)
    let go : Bool → Out := fun b => .next (setPc s (if b then dest else pcOf s + 4))
    let m := (slotOf s).mask
    (ready { sw := [62] } s = true → exec (.call o) s = .next (setPc (setS s 62 (pcOf s + 4)) dest)) ∧
    (ready {} s = true → exec (.anyb k h o) s = go (getM s k &&& m ≠ 0) ∧ exec (.allb k h o) s = go (getM s k &&& m = m)) ∧
    (ready { sr := [a], eng := true } s = true → exec (.bra o) s = go true ∧
      exec (.bc 0 h a o) s = go (getS s a = 0) ∧ exec (.bc 1 h a o) s = go (getS s a ≠ 0) ∧
      exec (.bc 2 h a o) s = go ((getS s a).toInt < 0) ∧ exec (.bc 3 h a o) s = go (0 ≤ (getS s a).toInt) ∧
      exec (.bc 4 h a o) s = go (0 < (getS s a).toInt) ∧ exec (.bc 5 h a o) s = go ((getS s a).toInt ≤ 0)) ∧
    (ready { sr := [a], sw := [62] } s = true →
      (jt.toNat % 4 = 0 → exec (.jmp a o) s = .next (setPc s jt) ∧
        exec (.callr a o) s = .next (setPc (setS s 62 (pcOf s + 4)) jt)) ∧
      (jt.toNat % 4 ≠ 0 → s.cur.kind = .sheaf → exec (.jmp a o) s = .next (raiseTrap s ⟨ALIGN, pcOf s, jt, 0, 0⟩) ∧
        exec (.callr a o) s = .next (raiseTrap s ⟨ALIGN, pcOf s, jt, 0, 0⟩))) ∧
    (∀ w w1,
      let n := sx 13 (fld w 12 0)
      (fld w 31 25 = 0x10 → decodeWord w w1 = .ok (.bra (sx 25 (fld w 24 0)))) ∧
      (fld w 31 25 = 0x11 → decodeWord w w1 = .ok (.call (sx 25 (fld w 24 0)))) ∧
      (fld w 31 25 = 0x12 → fld w 24 19 = 0 → decodeWord w w1 = .ok (.jmp (fld w 18 13) n)) ∧
      (fld w 31 25 = 0x13 → fld w 24 19 = 0 → decodeWord w w1 = .ok (.callr (fld w 18 13) n)) ∧
      (fld w 31 25 = 0x14 → fld w 24 21 < 6 →
        decodeWord w w1 = .ok (.bc (fld w 24 21) (fld w 20 20) (fld w 19 14) (sx 14 (fld w 13 0)))) ∧
      (fld w 31 25 = 0x14 → 6 ≤ fld w 24 21 → decodeWord w w1 = .error .reservedCode))

/-- SPLIT (R155): with no lane for the target, or none for the fall-through, the slot goes on whole and no record is
made. Otherwise, where the stack has the entries it needs, the slot goes on at PC + 4 with the lanes that fall through,
a join record holds the join point, the lanes that were there and the record before, and the target's lanes go to the
other slot where it is free, which then issues next (R154), or to a parked path. Without the entries a SPLIT that diverges
traps DIVSPILL with no effect. JOIN (R157): a JOIN in a slot without a record, or whose record names another join point, only
goes on; the last lanes to arrive complete the record, which is consumed, and the slot goes on at the join point with
all of its lanes and the record around it; earlier lanes wait in the record, and the slot becomes free, or takes the
newest parked path. EXIT (R158) removes the slot's lanes from every record and walks outward: an emptied record is consumed
and the walk goes on with the record around it; one whose lanes have all arrived completes; else the slot becomes free or
takes the newest parked path, and the sheaf ends where no slot is live. Nothing else of the sheaf and nothing of the machine
changes. That SPLIT takes the lowest free indexes of the stack for its record and its path is the model's choice: log 58. -/
def Obligations.Divergence : Prop :=
  let alone : State → State → Prop := fun s t =>
    { t with cur := s.cur } = s ∧
    { t.cur with pri := s.cur.pri, sec := s.cur.sec, stack := s.cur.stack, turn := s.cur.turn, ended := s.cur.ended,
                 active := s.cur.active } = s.cur
  (∀ (s : State) (k n : Nat) (tg jo : Int), ready {} s = true →
     let m := (slotOf s).mask
     let t := m &&& (if n = 1 then ~~~(getM s k) else getM s k)
     let f := m &&& ~~~t
     let tpc : Word := pcOf s + BitVec.ofInt 64 (4 * tg)
     let jpc : Word := pcOf s + BitVec.ofInt 64 (4 * jo)
     (t = 0 → exec (.split k n tg jo) s = .next (advance s)) ∧
     (t ≠ 0 → f = 0 → exec (.split k n tg jo) s = .next (setPc s tpc)) ∧
     (t ≠ 0 → f ≠ 0 → s.cur.kind = .sheaf →
       (freeIdx s.cur.stack = [] ∨ ((otherSlot s).live = true ∧ (freeIdx s.cur.stack).length = 1)) →
       exec (.split k n tg jo) s = .next (raiseTrap s ⟨DIVSPILL, pcOf s, 0, 0, 0⟩)) ∧
     (∀ r more, t ≠ 0 → f ≠ 0 → freeIdx s.cur.stack = r :: more → ((otherSlot s).live = true → more ≠ []) →
       let rec_ : StackEnt := ⟨r, true, jpc, 0, m, (slotOf s).inner⟩
       ∃ u, exec (.split k n tg jo) s = .next u ∧ alone s u ∧ pcOf u = pcOf s + 4 ∧ (slotOf u).mask = f ∧
         (slotOf u).inner = some r ∧ (slotOf u).live = true ∧ u.cur.ended = s.cur.ended ∧ u.cur.active = s.cur.active ∧
         ((otherSlot s).live = false → (otherSlot u).live = true ∧ (otherSlot u).pc = tpc ∧ (otherSlot u).mask = t ∧
           (otherSlot u).inner = some r ∧ (otherSlot u).wait = .ready ∧ u.cur.turn = !s.slot ∧
           u.cur.stack = rec_ :: s.cur.stack) ∧
         ((otherSlot s).live = true → ∃ p, more.head? = some p ∧ otherSlot u = otherSlot s ∧
           u.cur.stack = ⟨p, false, tpc, 0, t, some r⟩ :: rec_ :: s.cur.stack))) ∧
  (∀ (s : State), ready {} s = true →
     let x := slotOf s
     ((x.inner = none ∨ (∃ r, x.inner = some r ∧ joinRec s.cur r = none) ∨
         ∃ r e, x.inner = some r ∧ joinRec s.cur r = some e ∧ e.pc ≠ x.pc) →
       exec .join s = .next (advance s)) ∧
     (∀ r e, x.inner = some r → joinRec s.cur r = some e → e.pc = x.pc →
       ∃ t, exec .join s = .next t ∧ alone s t ∧ otherSlot t = otherSlot s ∧ t.cur.ended = s.cur.ended ∧
         (e.arr ||| x.mask = e.mask → (slotOf t).live = true ∧ pcOf t = e.pc ∧ (slotOf t).mask = e.mask ∧
           (slotOf t).inner = e.par ∧ joinRec t.cur r = none) ∧
         (e.arr ||| x.mask ≠ e.mask →
           (s.cur.stack.find? (fun g => !g.join) = none → (slotOf t).live = false ∧
             joinRec t.cur r = some { e with arr := e.arr ||| x.mask }) ∧
           (∀ p, s.cur.stack.find? (fun g => !g.join) = some p → p.idx ≠ r →
             (slotOf t).live = true ∧ pcOf t = p.pc ∧ (slotOf t).mask = p.mask ∧ (slotOf t).inner = p.par ∧
             joinRec t.cur r = some { e with arr := e.arr ||| x.mask } ∧ (∀ g ∈ t.cur.stack, g.idx ≠ p.idx))))) ∧
  (∀ (s : State), ready {} s = true →
     let x := slotOf s
     (∃ t, exec .exit s = .next t ∧ alone s t ∧ otherSlot t = otherSlot s ∧
       (∀ g ∈ t.cur.stack, ∃ h ∈ s.cur.stack, g = if h.join then { h with mask := h.mask &&& ~~~x.mask } else h) ∧
       ((x.inner = none ∨ (∃ r, x.inner = some r ∧ joinRec s.cur r = none) ∨
           ∃ r e, x.inner = some r ∧ joinRec s.cur r = some e ∧ e.mask &&& ~~~x.mask ≠ 0 ∧
           e.arr ≠ e.mask &&& ~~~x.mask) →
         (s.cur.stack.find? (fun g => !g.join) = none → (slotOf t).live = false ∧
           ((otherSlot s).live = true → t.cur.ended = s.cur.ended) ∧ ((otherSlot s).live = false → t.cur.ended = true)) ∧
         (∀ p, s.cur.stack.find? (fun g => !g.join) = some p →
           (slotOf t).live = true ∧ pcOf t = p.pc ∧ (slotOf t).mask = p.mask ∧ (slotOf t).inner = p.par ∧
           t.cur.ended = s.cur.ended ∧ ∀ g ∈ t.cur.stack, g.idx ≠ p.idx)) ∧
       (∀ r e, x.inner = some r → joinRec s.cur r = some e → e.mask &&& ~~~x.mask ≠ 0 → e.arr = e.mask &&& ~~~x.mask →
         (slotOf t).live = true ∧ pcOf t = e.pc ∧ (slotOf t).mask = e.arr ∧ (slotOf t).inner = e.par ∧
         t.cur.ended = s.cur.ended ∧ joinRec t.cur r = none)) ∧
     (∀ r e, x.inner = some r → joinRec s.cur r = some e → e.mask &&& ~~~x.mask = 0 → s.cur.stack.length ≤ 64 →
       exec .exit s = exec .exit (onCur s (fun a => putSlot { a with stack := a.stack.filter (fun g => g.idx ≠ r) } s.slot
         { x with inner := e.par }))))

/-! ### Instructions of the system opcode (07, 14, 22, 25) -/

/-- NOP changes nothing but the PC, and CLK writes the device time (R149). YIELD (R378) ends a save routine, and else swaps
the sheaf with the first ready sheaf of its core's pending order, or acts as NOP where there is none; SAFEPT traps ILLEGAL at
a number that the kernel does not declare, stops the sheaf where a pre-emption is asked of its stook and it has one live slot
and no stack entry, and else goes on (R381); RDV goes on once no engine program of the sheaf is live or has an
operation of its own to finish, and waits before (R267); HALT stops the device (R376). WAIT (R127), FENCE and PREF (R125, R117): WAIT goes on once every count that it names
is at or below its field and waits before, and an all-ones field names no count; FENCE waits while an earlier access that it
orders is in flight to another node (`canOrder`), and else goes on, with no line left in its core's L1 where it is an acquire
at CORE or wider; with nothing in flight it changes no register and no byte; PREF has no effect that a register or a byte
shows: it traps nothing. Which accesses FENCE waits for is the model's choice (logs 36, 107), and so is that PREF does no more
(log 24). -/
def Obligations.SystemEffects : Prop :=
  (∀ (s : State) (d n : Nat),
     (ready {} s = true →
       exec .nop s = .next (advance s) ∧
       (s.cur.saving = true →
         exec .yield s = .next (preemptGo (onCur (advance s) (fun a => { a with saving := false })) s.cur.stook)) ∧
       (s.cur.saving = false →
         (nextPending (advance s) s.cur.core = none → exec .yield s = .next (advance s)) ∧
         (∀ b, nextPending (advance s) s.cur.core = some b →
           exec .yield s = .next (activate (deactivate (advance s) s.cur.id) b.id))) ∧
       (let stops := ((findStook s s.cur.stook).map (fun k => k.pre.stage)).getD 0 = 1 ∧ s.cur.pri.live ≠ s.cur.sec.live ∧
          s.cur.stack = []
        (s.cur.k.nSafe ≤ n → s.cur.kind = .sheaf →
          exec (.safept n) s = .next (raiseTrap s ⟨ILLEGAL, pcOf s, 0, wd (word0 (.safept n)), 0⟩)) ∧
        (n < s.cur.k.nSafe → stops →
          exec (.safept n) s = .next (onCur (advance s) (fun a => { a with stopPt := some n }))) ∧
        (n < s.cur.k.nSafe → ¬stops → exec (.safept n) s = .next (advance s))) ∧
       exec .rdv s = .next (if forkedLive s s.cur.id then s else advance s)) ∧
     (ready { sw := [d] } s = true → exec (.clk d) s = .next (advance (setS s d (wd s.time)))) ∧
     (ready { sys := true } s = true → ∃ t, exec .halt s = .next t ∧ pcOf t = pcOf s + 4 ∧ t.halted = true ∧ t.imageDue = true ∧
       (∀ sec, canIssue { t with slot := sec } = false) ∧ sameBytes s t ∧
       { t with cur := s.cur, halted := s.halted, imageDue := s.imageDue, calls := s.calls } = s)) ∧
  (∀ (s : State) (l st c t a k sc : Nat) (o : Int),
     (ready { eng := true } s = true →
       exec (.wait l st c t) s = .next (if (l = 63 ∨ s.cur.cntLd ≤ l) ∧ (st = 63 ∨ s.cur.cntSt ≤ st) ∧ (c = 63 ∨ s.cur.cntCp ≤ c) ∧
         (t = 63 ∨ s.cur.cntTl ≤ t) then advance s else s)) ∧
     (ready {} s = true →
       (canOrder s sc (decide (k ≠ 1)) (decide (k = 3)) = false → exec (.fence k sc) s = .next s) ∧
       (canOrder s sc (decide (k ≠ 1)) (decide (k = 3)) = true →
         ∃ u, exec (.fence k sc) s = .next u ∧ (s.reqs = [] → pcOf u = pcOf s + 4 ∧ u.cur.s = s.cur.s ∧
           u.cur.v = s.cur.v ∧ u.cur.m = s.cur.m ∧ u.cur.md = s.cur.md ∧ u.cur.sstat = s.cur.sstat ∧ sameBytes s u ∧
           (k ≠ 0 → 2 ≤ sc → ∀ j < 2 ^ 60, smGet none u.l1 (l1Key s.cur.core j) = none)))) ∧
     (ready { sr := [a] } s = true → ∃ u, exec (.pref a l o) s = .next u ∧ pcOf u = pcOf s + 4 ∧ u.cur.s = s.cur.s ∧
       u.cur.v = s.cur.v ∧ u.cur.m = s.cur.m ∧ u.cur.md = s.cur.md ∧ u.cur.sstat = s.cur.sstat ∧ sameBytes s u))
/-! ### Vector arithmetic (03, 08) -/

/-- Integer elements (R53, R161): an element of an integer type lies in the type's range and is its low bits modulo 2^n;
a result is put in the register form of R53, which reads back as the result modulo 2^n, in range, and is the element's
sign or zero extension; under saturation it reads back as the nearest value of the range, SSTAT.SAT being set where that
differs. The special values of R177 in F32, by the rounding in force and the input's code: reciprocals and logarithms of
zeros and infinities, the invalid operations, and the exact points of the sine and cosine; a NaN gives the canonical
NaN, and a signalling one is invalid.
The form that SEL and an identical CVT leave is a reading: log 16. -/
def Obligations.ElementValues : Prop :=
  (∀ (et : Nat) (raw : Word) (v : Int), et < 8 →
     (etMin et ≤ elemInt et raw ∧ elemInt et raw ≤ etMax et ∧ elemInt et raw % 2 ^ etBits et = raw.toNat % 2 ^ etBits et) ∧
     elemInt et (formInt et v) % 2 ^ etBits et = v % 2 ^ etBits et ∧
     (is64 et = false → (formInt et v).setWidth 32 = BitVec.ofInt 32 (elemInt et (formInt et v))) ∧
     (etMin et ≤ v → v ≤ etMax et → elemInt et (formInt et v) = v) ∧
     elemInt et (intRes et true v).val = max (etMin et) (min (etMax et) v) ∧
     (intRes et true v).flags = (if etMin et ≤ v ∧ v ≤ etMax et then 0 else 0x40) ∧
     (intRes et false v).val = formInt et v ∧ (intRes et false v).flags = 0) ∧
  (∀ (r : Rnd) (x : Nat) (g : Bool),
     let v := fun fn (y : FV) => sfuVal r fn x y
     let z := fun neg => FV.fin neg 0 1
     let one := FV.fin false 1 1
     let bad := finvalid fF32
     v 0 (.inf true) = fexact 0x80000000 ∧ v 0 (.inf false) = fexact 0 ∧ v 0 (z true) = fexact 0xFF800000 ∧
     v 0 (z false) = fexact 0x7F800000 ∧ v 0 one = fexact 0x3F800000 ∧
     v 1 (.inf true) = bad ∧ v 1 (.inf false) = fexact 0 ∧ v 1 (z true) = fexact 0xFF800000 ∧
     v 1 (z false) = fexact 0x7F800000 ∧ v 1 one = fexact 0x3F800000 ∧ (∀ n d, n ≠ 0 → v 1 (.fin true n d) = bad) ∧
     v 3 (.inf true) = fexact 0 ∧ v 3 (.inf false) = fexact 0x7F800000 ∧ v 3 (z g) = fexact 0x3F800000 ∧
     v 3 one = fexact 0x40000000 ∧
     v 4 (.inf true) = bad ∧ v 4 (.inf false) = fexact 0x7F800000 ∧ v 4 (z g) = fexact 0xFF800000 ∧ v 4 one = fexact 0 ∧
     (∀ n d, n ≠ 0 → v 4 (.fin true n d) = bad) ∧
     v 5 (.inf g) = bad ∧ v 5 (z true) = fexact 0x80000000 ∧ v 5 (z false) = fexact 0 ∧ v 5 one = fexact 0 ∧
     v 6 (.inf g) = bad ∧ v 6 (z g) = fexact 0x3F800000 ∧ v 6 one = fexact 0xBF800000 ∧
     (∀ fn, v fn (.nan g) = ⟨0x7FC00000, g, false, false, false, false⟩))

/-- The integer instructions of two operands and of an immediate (R161, R164 to R167, R170, R173), the second operand a
register or a broadcast scalar: each active lane computes the exact result from the elements' values, wrapped, or
saturated where MD.SAT is set and the instruction saturates; shifts take the operand's low six bits; MULH gives the
product's high half; CLZ and POPC count within the width. Every other lane, register and flag is as before. Integer
division (R169): the quotient is rounded toward zero and the remainder has the dividend's sign; a division by zero gives
all ones and the dividend, and sets SSTAT.DZ; the most negative dividend by -1 gives the dividend and 0, and sets
SSTAT.DOV; DIVMASK takes the lanes that met either, and where MD.DZT is set the DIVZ trap follows once all lanes are
written (`completesLanes`). -/
def Obligations.VectorIntegerArithmetic : Prop :=
  (∀ (s : State) (d a b k : Nat) (n : Int) (sc : Bool),
     let et := etOf s
     let w := is64 et
     let y := if sc then Src.s b else Src.v b
     et < 8 → (w = true → d % 2 = 0 ∧ a % 2 = 0 ∧ oddSrc y = false) →
     ready { vr := regs w d ++ (regs w a ++ srcV w y), vw := regs w d, sr := srcS y } s = true →
     let X := fun l => elemInt et (rawV s et a l)
     let Y := fun l => elemInt et (srcRaw s et y l)
     let C := fun l => elemInt et (rawV s et d l)
     let bx := fun l => elemBits et (rawV s et a l)
     let bz := fun l => elemBits et (srcRaw s et y l)
     let K := fun l => (srcRaw s et y l).toNat % 64
     let sat : Int → LRes := intRes et (satOf s)
     let wrap : Int → LRes := intRes et false
     let asr := fun l (j : Nat) => wrap (sx (etBits et) (bx l) / 2 ^ j)
     let ok := fun i (f : Nat → LRes) => completesLanes s i et d (activeLanes s) f
     let op := fun i j => if sc then j else i
     ok (op (.add d a b) (.addScalar d a b)) (fun l => sat (X l + Y l)) ∧
     ok (op (.sub d a b) (.subScalar d a b)) (fun l => sat (X l - Y l)) ∧
     ok (op (.mul d a b) (.mulScalar d a b)) (fun l => sat (X l * Y l)) ∧
     ok (op (.mulh d a b) (.mulhScalar d a b)) (fun l => wrap (X l * Y l / 2 ^ etBits et)) ∧
     ok (op (.mad d a b) (.madScalar d a b)) (fun l => sat (X l * Y l + C l)) ∧
     ok (op (.min d a b) (.minScalar d a b)) (fun l => wrap (if X l ≤ Y l then X l else Y l)) ∧
     ok (op (.max d a b) (.maxScalar d a b)) (fun l => wrap (if X l ≤ Y l then Y l else X l)) ∧
     ok (op (.and d a b) (.andScalar d a b)) (fun l => wrap (bx l &&& bz l : Nat)) ∧
     ok (op (.or d a b) (.orScalar d a b)) (fun l => wrap (bx l ||| bz l : Nat)) ∧
     ok (op (.xor d a b) (.xorScalar d a b)) (fun l => wrap (bx l ^^^ bz l : Nat)) ∧
     ok (op (.shl d a b) (.shlScalar d a b)) (fun l => sat (X l * 2 ^ K l)) ∧
     ok (op (.shr d a b) (.shrScalar d a b)) (fun l => wrap (bx l / 2 ^ K l : Nat)) ∧
     ok (op (.sar d a b) (.sarScalar d a b)) (fun l => asr l (K l)) ∧
     ok (.addi d a n) (fun l => sat (X l + n)) ∧ ok (.muli d a n) (fun l => sat (X l * n)) ∧
     ok (.andi d a n) (fun l => wrap (bx l &&& toField (etBits et) n : Nat)) ∧
     ok (.shli d a k) (fun l => sat (X l * 2 ^ k)) ∧ ok (.shri d a k) (fun l => wrap (bx l / 2 ^ k : Nat)) ∧
     ok (.sari d a k) (fun l => asr l k) ∧
     ok (.abs d a) (fun l => sat ((X l).natAbs : Int)) ∧ ok (.neg d a) (fun l => sat (-X l)) ∧
     ok (.not d a) (fun l => wrap (2 ^ etBits et - 1 - bx l : Nat)) ∧
     ok (.clz d a) (fun l => { val := wd (clzN (etBits et) (bx l)) }) ∧
     ok (.popc d a) (fun l => { val := wd (popN (etBits et) (bx l)) })) ∧
  (∀ (s : State) (d a b : Nat) (sc : Bool),
     let et := etOf s
     let w := is64 et
     let y := if sc then Src.s b else Src.v b
     et < 8 → (w = true → d % 2 = 0 ∧ a % 2 = 0 ∧ oddSrc y = false) →
     ready { vr := regs w a ++ srcV w y, vw := regs w d, sr := srcS y } s = true →
     let X := fun l => elemInt et (rawV s et a l)
     let Y := fun l => elemInt et (srcRaw s et y l)
     let tops := fun l => et % 2 = 0 ∧ X l = -2 ^ (etBits et - 1) ∧ Y l = -1
     let ok := fun i (f : Nat → LRes) => completesLanes s i et d (activeLanes s) f
     ok (if sc then .divScalar d a b else .div d a b) (fun l =>
       if Y l = 0 then { val := formInt et (2 ^ etBits et - 1), flags := 1, div := true }
       else if tops l then { val := formInt et (X l), flags := 2, div := true }
       else { val := formInt et ((X l).tdiv (Y l)) }) ∧
     ok (if sc then .remScalar d a b else .rem d a b) (fun l =>
       if Y l = 0 then { val := formInt et (X l), flags := 1, div := true }
       else if tops l then { val := 0, flags := 2, div := true }
       else { val := formInt et ((X l).tmod (Y l)) }))

/-- The float instructions (R161, R162, R165, R167, R170, R173, R176): the exact sum, product, fused sum and quotient are
rounded once by MD.RM, STO with the lane's own draw; MIN and MAX round nothing; ABS, NEG, AND, OR, XOR and NOT act on the
code's bits, FP8 codes too; a special function gives the value that the part's function gives. Flags and the FPINV trap
follow from the lanes' conditions.
The open error of a special function is free within its bound, and its range and a negative draw are readings: logs 8, 59, 106. -/
def Obligations.VectorFloatArithmetic : Prop :=
  ∀ (s : State) (d a b : Nat) (n : Int) (sc : Bool) (f : Fmt),
    let et := etOf s
    let y := if sc then Src.s b else Src.v b
    ready { vr := [d] ++ ([a] ++ srcV false y), vw := [d], sr := srcS y } s = true → fmtOf et = some f →
    let bx := fun l => elemBits et (rawV s et a l)
    let bz := fun l => elemBits et (srcRaw s et y l)
    let X := fun l => fdecode f (bx l)
    let Y := fun l => fdecode f (bz l)
    let C := fun l => elemFV et (rawV s et d l)
    let R := fun l => laneRnd s d l false
    let N := signedV false n 1
    let top := 2 ^ (etBits et - 1)
    let ok := fun i (g : Nat → LRes) => completesLanes s i et d (activeLanes s) g
    let op := fun i j => if sc then j else i
    (et ≤ 10 →
      ok (op (.add d a b) (.addScalar d a b)) (fun l => floatRes (fadd f (R l) (X l) (Y l))) ∧
      ok (op (.sub d a b) (.subScalar d a b)) (fun l => floatRes (fadd f (R l) (X l) (fneg (Y l)))) ∧
      ok (op (.mul d a b) (.mulScalar d a b)) (fun l => floatRes (fmul f (R l) (X l) (Y l))) ∧
      ok (op (.mad d a b) (.madScalar d a b)) (fun l => floatRes (fmad f (R l) (X l) (Y l) (C l))) ∧
      ok (op (.div d a b) (.divScalar d a b)) (fun l => floatRes (fdiv f (R l) (X l) (Y l))) ∧
      ok (op (.min d a b) (.minScalar d a b)) (fun l => fminmax f false (bx l) (bz l) (X l) (Y l)) ∧
      ok (op (.max d a b) (.maxScalar d a b)) (fun l => fminmax f true (bx l) (bz l) (X l) (Y l)) ∧
      ok (.addi d a n) (fun l => floatRes (fadd f (R l) (X l) N)) ∧
      ok (.muli d a n) (fun l => floatRes (fmul f (R l) (X l) N)) ∧
      ok (.rcp d a) (fun l => sfuLane s 0 d (rawV s et a l) l) ∧ ok (.rsq d a) (fun l => sfuLane s 1 d (rawV s et a l) l) ∧
      ok (.exp2 d a) (fun l => sfuLane s 3 d (rawV s et a l) l) ∧ ok (.log2 d a) (fun l => sfuLane s 4 d (rawV s et a l) l) ∧
      ok (.sinp d a) (fun l => sfuLane s 5 d (rawV s et a l) l) ∧ ok (.cosp d a) (fun l => sfuLane s 6 d (rawV s et a l) l) ∧
      ok (.sqrt d a) (fun l => sqrtLane s d (rawV s et a l) l) ∧ ok (.rint d a) (fun l => rintLane s d (rawV s et a l) l)) ∧
    ok (op (.and d a b) (.andScalar d a b)) (fun l => { val := wd (bx l &&& bz l) }) ∧
    ok (op (.or d a b) (.orScalar d a b)) (fun l => { val := wd (bx l ||| bz l) }) ∧
    ok (op (.xor d a b) (.xorScalar d a b)) (fun l => { val := wd (bx l ^^^ bz l) }) ∧
    ok (.not d a) (fun l => { val := wd (2 ^ etBits et - 1 - bx l) }) ∧
    ok (.abs d a) (fun l => { val := wd (bx l % top) }) ∧ ok (.neg d a) (fun l => { val := wd (bx l ^^^ top) })

/-- Types and registers that an instruction does not take (R160, R22, R174): MD.ET codes 13 and 14 trap ILLEGAL in every
instruction of the family but LID and CVT, float types in MULH, REM, the shifts, CLZ and POPC, FP8 in the arithmetic,
integers and FP8 in the special functions, a pair of types that CVT does not convert; and so does an odd register of a
64-bit type. Nothing is written. MOV copies the lane or pair whole,
or broadcasts Sb (R171); SEL, over the slot's mask alone, takes Va where the guard's bit is set and the second operand
elsewhere (R168); LID writes the lane's index (R172); CVT copies a same type, wraps or saturates between integer types,
rounds into a float type, and rounds and bounds into an integer type (R174), and runs the Q4X and S8 conversions of R175
for the allowed pairs; that those set no flag of SSTAT is a reading: log 105. That SEL and an identical CVT give the
element in its register form is a reading too: log 16. -/
def Obligations.VectorMovesAndTypes : Prop :=
  (∀ (s : State) (d a b k t : Nat) (n : Int) (sc : Bool),
     let et := etOf s
     let w := is64 et
     let y := if sc then Src.s b else Src.v b
     let bad := fun i => exec i s = .next (raiseTrap s ⟨ILLEGAL, pcOf s, 0, wd (word0 i), 0⟩)
     let bits2 := if sc then [Instr.andScalar d a b, .orScalar d a b, .xorScalar d a b, .selScalar d a b]
       else [.and d a b, .or d a b, .xor d a b, .sel d a b]
     let bits1 := [Instr.abs d a, .neg d a, .not d a]
     let arith2 := if sc then [Instr.addScalar d a b, .subScalar d a b, .mulScalar d a b, .madScalar d a b, .divScalar d a b,
         .minScalar d a b, .maxScalar d a b]
       else [.add d a b, .sub d a b, .mul d a b, .mad d a b, .div d a b, .min d a b, .max d a b]
     let arith1 := [Instr.addi d a n, .muli d a n]
     let ints2 := if sc then [Instr.mulhScalar d a b, .remScalar d a b, .shlScalar d a b, .shrScalar d a b, .sarScalar d a b]
       else [.mulh d a b, .rem d a b, .shl d a b, .shr d a b, .sar d a b]
     let ints1 := [Instr.clz d a, .popc d a, .andi d a n, .shli d a k, .shri d a k, .sari d a k]
     let floats := [Instr.rcp d a, .rsq d a, .sqrt d a, .exp2 d a, .log2 d a, .sinp d a, .cosp d a, .rint d a]
     let mov := if sc then Instr.movScalar d b else .mov d b
     (ready { vr := regs w d ++ (regs w a ++ srcV w y), vw := regs w d, sr := srcS y } s = true →
       (13 ≤ et → ∀ i ∈ mov :: (bits2 ++ bits1), bad i) ∧ (11 ≤ et → ∀ i ∈ arith2 ++ arith1, bad i) ∧
       (8 ≤ et → ∀ i ∈ ints2 ++ ints1, bad i) ∧ (et < 8 ∨ 11 ≤ et → ∀ i ∈ floats, bad i) ∧
       (w = true → d % 2 = 1 ∨ a % 2 = 1 ∨ oddSrc y = true → ∀ i ∈ bits2 ++ (arith2 ++ ints2), bad i) ∧
       (w = true → d % 2 = 1 ∨ a % 2 = 1 → ∀ i ∈ bits1 ++ (arith1 ++ ints1), bad i) ∧
       (w = true → d % 2 = 1 ∨ oddSrc y = true → bad mov)) ∧
     (ready { vr := regs (is64 t) a, vw := regs w d } s = true → et ≤ 14 → t ≤ 14 →
       ((13 ≤ t ∧ ¬(8 ≤ et ∧ et ≤ 10)) ∨ (13 ≤ et ∧ ¬(8 ≤ t ∧ t ≤ 10)) ∨ (is64 t = true ∧ a % 2 = 1) ∨ (w = true ∧ d % 2 = 1) →
         bad (.cvt d a t)))) ∧
  (∀ (s : State) (d a b t : Nat) (sc : Bool),
     let et := etOf s
     let w := is64 et
     let y := if sc then Src.s b else Src.v b
     let op := fun i j => if sc then j else i
     (ready { vr := regs w a ++ srcV w y, vw := regs w d, sr := srcS y } s = true → et ≤ 12 →
       (w = true → d % 2 = 0 ∧ a % 2 = 0 ∧ oddSrc y = false) →
       completesLanes s (op (.mov d b) (.movScalar d b)) et d (activeLanes s) (fun l => { val := srcRaw s et y l }) ∧
       completesLanes s (op (.sel d a b) (.selScalar d a b)) et d (slotLanes s) (fun l =>
         { val := formBits et (elemBits et (if bit (guardOf s) l then rawV s et a l else srcRaw s et y l)) })) ∧
     (ready { vw := [d] } s = true → completesLanes s (.lid d) 1 d (activeLanes s) (fun l => { val := wd l })) ∧
     (ready { vr := regs (is64 t) a, vw := regs w d } s = true → (is64 t = true → a % 2 = 0) → (w = true → d % 2 = 0) →
       (t = et → t ≤ 12 →
         completesLanes s (.cvt d a t) et d (activeLanes s) (fun l => { val := formBits et (elemBits et (rawV s t a l)) })) ∧
       (t ≠ et → t < 8 → et < 8 →
         completesLanes s (.cvt d a t) et d (activeLanes s) (fun l => intRes et (satOf s) (elemInt t (rawV s t a l)))) ∧
       (t < 8 → 8 ≤ et → et ≤ 12 → completesLanes s (.cvt d a t) et d (activeLanes s) (fun l =>
         cvtFloat s et d l (signedV false (elemInt t (rawV s t a l)) 1))) ∧
       (t ≠ et → 8 ≤ t → t ≤ 12 → 8 ≤ et → et ≤ 12 → completesLanes s (.cvt d a t) et d (activeLanes s) (fun l =>
         cvtFloat s et d l (elemFV t (rawV s t a l)))) ∧
       (8 ≤ t → t ≤ 12 → et < 8 → completesLanes s (.cvt d a t) et d (activeLanes s) (fun l =>
         cvtInt s et d l (elemFV t (rawV s t a l)))) ∧
       (t = 13 → 8 ≤ et → et ≤ 10 → completesLanes s (.cvt d a t) et d (activeLanes s) (fun l =>
         cvtFromQ4X s d a (activeLanes s) l)) ∧
       (t = 14 → 8 ≤ et → et ≤ 10 → completesLanes s (.cvt d a t) et d (activeLanes s) (fun l => cvtFromS8 s d a l)) ∧
       (8 ≤ t → t ≤ 10 → et = 13 → completesLanes s (.cvt d a t) et d (activeLanes s) (fun l =>
         cvtToQ4X s t d a (activeLanes s) l)) ∧
       (8 ≤ t → t ≤ 10 → et = 14 → completesLanes s (.cvt d a t) et d (activeLanes s) (fun l => cvtToS8 s t a l))))

/-! ### Lanes and masks (09) -/

/-- Comparisons into a mask (R183): each active lane's bit of Md becomes the condition, signed or unsigned by the type and
unsigned for LTU to GEU on integers, by value and by the ordered and unordered rules on floats; every other bit is kept; a
write to M0 is discarded. A float comparison that raises invalid sets SSTAT.FINV and traps FPINV, after Md is written, where
MD.FPT is set. ORD and UNO of integers, the types Q4X and S8, and an odd register of a pair trap ILLEGAL.
The code of LE is that of the tables: log 60. -/
def Obligations.Comparisons : Prop :=
  ∀ (s : State) (m c a b : Nat) (n : Int) (k : Nat), k < 3 →
    let et := etOf s
    let w := is64 et
    let y := if k = 0 then Src.v b else if k = 1 then Src.s b else Src.s 0
    let i := if k = 0 then Instr.cmp m c a b else if k = 1 then .cmpScalar m c a b else .cmpi m c a n
    let bad := exec i s = .next (raiseTrap s ⟨ILLEGAL, pcOf s, 0, wd (word0 i), 0⟩)
    ready { vr := regs w a ++ srcV w y, sr := srcS y } s = true →
    let z := fun l => if k = 2 then wi n else srcRaw s et y l
    let X := fun l => elemInt et (rawV s et a l)
    let Y := fun l => elemInt et (z l)
    let bx := fun l => elemBits et (rawV s et a l)
    let bz := fun l => elemBits et (z l)
    let fx := fun l => elemFV et (rawV s et a l)
    let fz := fun l => if k = 2 then signedV false n 1 else elemFV et (z l)
    let I := fun l => [decide (X l = Y l), decide (X l ≠ Y l), decide (X l < Y l), decide (X l ≤ Y l), decide (Y l < X l),
      decide (Y l ≤ X l), decide (bx l < bz l), decide (bx l ≤ bz l), decide (bz l < bx l), decide (bz l ≤ bx l)]
    let act := activeLanes s
    let written := fun t (P : Nat → Bool) => regFrame s t [] [] [m] ∧ pcOf t = pcOf s + 4 ∧
      ∀ l, l < 64 → bit (getM t m) l = if m ≠ 0 ∧ l ∈ act then P l else bit (getM s m) l
    let even := w = true → a % 2 = 0 ∧ oddSrc y = false
    (¬even → bad) ∧
    (et < 8 → c < 10 → even → ∃ t, exec i s = .next t ∧ written t (fun l => (I l).getD c false)) ∧
    (et < 8 → c = 10 ∨ c = 11 → bad) ∧ (13 ≤ et → bad) ∧
    (8 ≤ et → et ≤ 12 → c < 12 →
      let inv := act.filter (fun l => (condFlt c (fx l) (fz l)).2)
      ∃ t, written t (fun l => (condFlt c (fx l) (fz l)).1) ∧
        exec i s = .next (if inv = [] then t else
          let u := setFlags t 4
          if fptOf s then raiseTrap u ⟨FPINV, pcOf s + 4, pcOf s, wd (word0 i), maskList inv⟩ else u))

/-- Shuffles (R186): each active lane receives, bit for bit, the source lane that the rule gives, or its own where that
is outside the sheaf; the sources are read before any lane is written; Q4X and S8, and an odd register of a pair, trap
ILLEGAL; of a 64-bit type SHFL's index pair holds its index in the low register. RNG (R179, R180): the four words of Culm-10 at
the lane's counter, lane number, stream and key go to Vd to Vd+3 in each active lane, whatever MD holds but the guard;
every other lane and register is as before, RNGSTREAM too; an odd va traps ILLEGAL. The generator of a zero counter and
key gives zeros, and its first round is the one that R180 works out.
SHFL's index register is a reading: log 20. -/
def Obligations.ShufflesAndRandomNumbers : Prop :=
  (∀ (s : State) (d a b : Nat) (k : Int),
     let et := etOf s
     let w := is64 et
     let even := w = true → d % 2 = 0 ∧ a % 2 = 0
     let bad := fun i => exec i s = .next (raiseTrap s ⟨ILLEGAL, pcOf s, 0, wd (word0 i), 0⟩)
     let at_ := fun (l : Nat) (j : Int) => if 0 ≤ j ∧ j < wOf s then j.toNat else l
     let ok := fun i (src : Nat → Nat) => completesLanes s i et d (activeLanes s) (fun l => { val := rawV s et a (src l) })
     (ready { vr := regs w a ++ regs w b, vw := regs w d } s = true →
       (13 ≤ et ∨ ¬even ∨ (w = true ∧ b % 2 = 1) → bad (.shfl d a b)) ∧
       (et ≤ 12 → even → (w = true → b % 2 = 0) → ok (.shfl d a b) (fun l => at_ l (getV s b l).toNat))) ∧
     (ready { vr := regs w a, vw := regs w d, sr := [b] } s = true → -256 ≤ k → k < 256 →
       (13 ≤ et ∨ ¬even → ∀ i ∈ [Instr.shflScalar d a b, .shflx d a k, .shflu d a k, .shfld d a k, .bcast d a k], bad i) ∧
       (et ≤ 12 → even →
       ok (.shflScalar d a b) (fun l => at_ l (((getS s b).extractLsb' 0 32).toNat : Nat)) ∧
       ok (.shflx d a k) (fun l => if k < 0 then l else at_ l ((l ^^^ k.toNat : Nat) : Int)) ∧
       ok (.shflu d a k) (fun l => at_ l (l - k)) ∧ ok (.shfld d a k) (fun l => at_ l (l + k)) ∧
       ok (.bcast d a k) (fun l => at_ l k)))) ∧
  ((∀ (s : State) (d a b : Nat), ready { vr := [a, a + 1], vw := [d, d + 1, d + 2, d + 3], sr := [b] } s = true →
     (a % 2 = 1 → exec (.rng d a b) s = .next (raiseTrap s ⟨ILLEGAL, pcOf s, 0, wd (word0 (.rng d a b)), 0⟩)) ∧
     (a % 2 = 0 → ∃ t, exec (.rng d a b) s = .next t ∧ regFrame s t [d, d + 1, d + 2, d + 3] [] [] ∧ pcOf t = pcOf s + 4 ∧
       ∀ l, l < 64 →
         (l ∈ activeLanes s → (getV t d l, getV t (d + 1) l, getV t (d + 2) l, getV t (d + 3) l) =
           culm10 (getV s a l) (getV s (a + 1) l) (BitVec.ofNat 32 l) (s.cur.rngstream.extractLsb' 0 32)
             ((getS s b).extractLsb' 0 32) ((getS s b).extractLsb' 32 32)) ∧
         (l ∉ activeLanes s → ∀ j, getV t j l = getV s j l))) ∧
   culm10 0 0 0 0 0 0 = (0, 0, 0, 0) ∧ culmRound 13 16 0 (0, 0, 1, 0) = (0x3C6D2C1B, 0x2C1B3C6D, 0, 0))

/-- SORT and SORTI (R190, R191): there is an order π of the W lanes of Va, by key, and by lane among equal keys, such
that active lane p of Vd takes the key of lane π(p), or the number π(p). MRGLO, MRGHI and MRGI (R192, R193): the
sequence of 2 W source indices is the one that R192's procedure gives, which takes Va's key at a tie; MRGLO writes its
first W keys to the active lanes, MRGHI its last W, and MRGI the indices of both halves to Vd and Vd+1. A type that is no
key's, an odd register of a pair, and an odd vd of MRGI trap ILLEGAL. -/
def Obligations.SortingAndMerging : Prop :=
  (∀ (s : State) (d a : Nat),
     let et := etOf s
     let w := is64 et
     let key := fun l => keyOrd et (rawV s et a l)
     let bad := fun i => exec i s = .next (raiseTrap s ⟨ILLEGAL, pcOf s, 0, wd (word0 i), 0⟩)
     let keyed := okKey et = true ∧ (w = true → a % 2 = 0)
     (ready { vr := regs w a, vw := regs w d } s = true → ¬(keyed ∧ (w = true → d % 2 = 0)) → bad (.sort d a)) ∧
     (ready { vr := regs w a, vw := [d] } s = true → ¬keyed → bad (.sorti d a)) ∧
     (keyed → ∃ π : Nat → Nat, (∀ p, p < wOf s → π p < wOf s) ∧
       (∀ p q, p < q → q < wOf s → key (π p) < key (π q) ∨ (key (π p) = key (π q) ∧ π p < π q)) ∧
       (ready { vr := regs w a, vw := regs w d } s = true → (w = true → d % 2 = 0) →
         completesLanes s (.sort d a) et d (activeLanes s) (fun p => { val := rawV s et a (π p) })) ∧
       (ready { vr := regs w a, vw := [d] } s = true →
         completesLanes s (.sorti d a) 1 d (activeLanes s) (fun p => { val := wd (π p) })))) ∧
  (∀ (s : State) (d a b : Nat),
     let et := etOf s
     let w := is64 et
     let W := wOf s
     let key := fun r l => keyOrd et (rawV s et r l)
     let bad := fun i => exec i s = .next (raiseTrap s ⟨ILLEGAL, pcOf s, 0, wd (word0 i), 0⟩)
     let keyed := okKey et = true ∧ (w = true → a % 2 = 0 ∧ b % 2 = 0)
     let half := ready { vr := regs w a ++ regs w b, vw := regs w d } s = true
     let pair := ready { vr := regs w a ++ regs w b, vw := [d, d + 1] } s = true
     (half → ¬(keyed ∧ (w = true → d % 2 = 0)) → bad (.mrglo d a b) ∧ bad (.mrghi d a b)) ∧
     (pair → ¬(keyed ∧ d % 2 = 0) → bad (.mrgi d a b)) ∧
     (keyed → ∃ (src ia ib : Nat → Nat), ia 0 = 0 ∧ ib 0 = 0 ∧
       (∀ p, p < 2 * W →
         if ib p = W ∨ (ia p < W ∧ ¬ key b (ib p) < key a (ia p)) then src p = ia p ∧ ia (p + 1) = ia p + 1 ∧ ib (p + 1) = ib p
         else src p = W + ib p ∧ ia (p + 1) = ia p ∧ ib (p + 1) = ib p + 1) ∧
       (let elem := fun p => if src p < W then rawV s et a (src p) else rawV s et b (src p - W)
        (half → (w = true → d % 2 = 0) →
          completesLanes s (.mrglo d a b) et d (activeLanes s) (fun p => { val := elem p }) ∧
          completesLanes s (.mrghi d a b) et d (activeLanes s) (fun p => { val := elem (W + p) })) ∧
        (pair → d % 2 = 0 →
          completesLanes s (.mrgi d a b) 3 d (activeLanes s) (fun p => { val := wd (src p + 2 ^ 32 * src (W + p)) }))))) ∧
  (∀ w w1,
     let d := fld w 24 17
     let a := fld w 16 9
     let b := fld w 8 1
     (fld w 31 25 = 0x59 → fld w 8 0 = 0 → decodeWord w w1 = .ok (.sort d a)) ∧
     (fld w 31 25 = 0x5A → fld w 8 0 = 0 → decodeWord w w1 = .ok (.sorti d a)) ∧
     (fld w 31 25 = 0x5B → fld w 0 0 = 0 → decodeWord w w1 = .ok (.mrglo d a b)) ∧
     (fld w 31 25 = 0x5C → fld w 0 0 = 0 → decodeWord w w1 = .ok (.mrghi d a b)) ∧
     (fld w 31 25 = 0x5D → fld w 0 0 = 0 → decodeWord w w1 = .ok (.mrgi d a b)))

/-- Reductions and scans of integers (R187 to R189): the exact total, the least, the greatest, or the bitwise combination
of the active lanes' elements, or its identity where none is active, goes to Sd, or that of the active lanes up to each
active lane, or before it, to that lane; a total wraps, or saturates under MD.SAT with SSTAT.SAT, whatever the tree. Other
types than the operation's, and an odd register of a pair, trap ILLEGAL. Reductions and scans of floats (R187 to R189): the
lanes combine over the fixed tree, and the prefix of n lanes over its aligned blocks, largest first, an inactive lane taking
no part; each combination rounds once, at its own draw. The root goes to Sd, the prefixes to the active lanes, the identity
where no lane is covered; the steps' conditions set the flags, and where MD.FPT is set and a step raised invalid FPINV
follows, with the lanes beneath every such step. -/
def Obligations.Reductions : Prop :=
  (∀ (s : State) (d a : Nat),
     let et := etOf s
     let w := is64 et
     let bad := fun i => exec i s = .next (raiseTrap s ⟨ILLEGAL, pcOf s, 0, wd (word0 i), 0⟩)
     (ready { vr := regs w a, sw := [d] } s = true →
       (11 ≤ et ∨ (w = true ∧ a % 2 = 1) → bad (.rsum d a) ∧ bad (.rmin d a) ∧ bad (.rmax d a)) ∧
       (8 ≤ et ∨ (w = true ∧ a % 2 = 1) → bad (.rand d a) ∧ bad (.ror d a) ∧ bad (.rxor d a))) ∧
     (ready { vr := regs w a, vw := regs w d } s = true → 11 ≤ et ∨ (w = true ∧ (a % 2 = 1 ∨ d % 2 = 1)) →
       bad (.psum d a) ∧ bad (.psumx d a) ∧ bad (.pmin d a) ∧ bad (.pmax d a)) ∧
     (et < 8 → (w = true → a % 2 = 0) →
     let X := fun l => elemInt et (rawV s et a l)
     let total := fun op (ls : List Nat) => intRes et (op = RedOp.sum && satOf s)
       ((ls.map X).foldl (redInt op et) (redIdent op et).int)
     let act := activeLanes s
     (ready { vr := regs w a, sw := [d] } s = true →
       ∀ p ∈ [(Instr.rsum d a, RedOp.sum), (.rmin d a, .min), (.rmax d a, .max), (.rand d a, .and), (.ror d a, .or),
         (.rxor d a, .xor)],
         exec p.1 s = .next (advance (setFlags (setS s d (total p.2 act).val) (total p.2 act).flags))) ∧
     (ready { vr := regs w a, vw := regs w d } s = true → (w = true → d % 2 = 0) →
       (∀ p ∈ [(Instr.psum d a, RedOp.sum), (.pmin d a, .min), (.pmax d a, .max)],
         completesLanes s p.1 et d act (fun l => total p.2 (act.filter (fun j => decide (j ≤ l))))) ∧
       completesLanes s (.psumx d a) et d act (fun l => total .sum (act.filter (fun j => decide (j < l))))))) ∧
  (∀ (s : State) (d a : Nat), 8 ≤ etOf s → etOf s ≤ 10 →
     let et := etOf s
     let out := fun i t (inv : Word) =>
       if fptOf s = true ∧ inv ≠ 0 then raiseTrap t ⟨FPINV, pcOf s + 4, pcOf s, wd (word0 i), inv⟩ else t
     (∀ op va l j, treeNode s op a va (l + 1) j =
       comb s op va (64 * (l + 1) + j) (treeNode s op a va l (2 * j)) (treeNode s op a va l (2 * j + 1))) ∧
     (ready { vr := [a], sw := [d] } s = true →
       ∀ p ∈ [(Instr.rsum d a, RedOp.sum), (.rmin d a, .min), (.rmax d a, .max)],
         let n := treeNode s p.2 a (256 + d) (wOf s).log2 0
         exec p.1 s = .next (out p.1 (advance (setFlags (setS s d (wd (n.val.getD (redIdent p.2 et)).code)) n.flags)) n.inv)) ∧
     (ready { vr := [a], vw := [d] } s = true →
       ∀ p ∈ [(Instr.psum d a, RedOp.sum, 1), (.psumx d a, .sum, 0), (.pmin d a, .min, 1), (.pmax d a, .max, 1)],
         let n := fun l => if l + p.2.2 = 0 then ⟨none, 0, 0⟩
           else prefixNode s p.2.1 a d (512 + (l + p.2.2 - 1)) (l + p.2.2) 6 0 ⟨none, 0, 0⟩
         ∃ t, LanesWritten s t et d (activeLanes s)
             (fun l => { val := wd ((n l).val.getD (redIdent p.2.1 et)).code, flags := (n l).flags }) ∧
           exec p.1 s = .next (out p.1 t ((activeLanes s).foldl (fun m l => m ||| (n l).inv) 0))))

/-! ### Loads, stores and atomics (04, 05, 25) -/

/-- The checks of a scalar load or store (R110): an address that is no multiple of the size traps ALIGN, a non-canonical
one PERM; one that does not translate parks the slot, the instruction undone, under a fault record that holds its
address and kind (R104); one whose page forbids the access traps PERM. TADDR is the address; no register of the sheaf
changes, and nothing but the errors that the walk's reads detect, where one lies in a sector (R98). LDS and LDAQ (R113): the bytes at the address, little-endian and zero-extended, go to Sd; no other register and
no byte of memory changes. The data come from the access's own location; a poisoned sector, or a page marked poisoned,
makes a POISON trap pending on the slot instead, Sd unwritten (R111), and the load stays counted until that trap is
raised (R126). STS and STRL (R113): the low bytes of Sd go to the
address, little-endian; every other byte, as any view has it, and every register is as before. A byte of a live barrier
traps BARWIN (R251). That poisoned data which fill no register, those of a load into S0, raise nothing is the model's choice:
log 109. -/
def Obligations.ScalarLoadsAndStores : Prop :=
  (∀ (s : State) (d a c z : Nat) (o : Int) (j : Nat), j < 4 →
     let wide : Nat := if z = 0 then 4 else 8
     let size : Nat := if j < 2 then 2 ^ z else wide
     let va := getS s a + BitVec.ofInt 64 (if j < 2 then o else o * size)
     let i := if j = 0 then Instr.lds d a z o else if j = 1 then .sts d a z o else if j = 2 then .ldaq d a c z o else .strl d a c z o
     let k := if j % 2 = 0 then AccKind.rd else .wr
     ready { sr := if j % 2 = 0 then [a] else [a, d], sw := if j % 2 = 0 then [d] else [],
             cls := some (if j % 2 = 0 then .ld else .st) } s = true →
     (va.toNat % size ≠ 0 → exec i s = .next (raiseTrap s ⟨ALIGN, pcOf s, va, 0, 0⟩)) ∧
     (va.toNat % size = 0 → canonical va = false → exec i s = .next (raiseTrap s ⟨PERM, pcOf s, va, 0, 0⟩)) ∧
     (∀ kd lv e, va.toNat % size = 0 → canonical va = true → translate s (whoOf s.cur) va = .bad kd lv e →
       ∃ t n, exec i s = .next t ∧ (slotOf t).wait = .parked n ∧ pcOf t = pcOf s ∧ t.cur.s = s.cur.s ∧ t.cur.v = s.cur.v ∧
         ∃ f ∈ t.faults, f.id = n ∧ f.va = va ∧ f.kind = kd ∧ f.level = lv ∧ f.entry = e ∧ (s.latent = [] → f.eseq = s.eseq)) ∧
     (∀ pg pa new pins, va.toNat % size = 0 → canonical va = true → translate s (whoOf s.cur) va = .ok pg pa new →
       pinTake s.pins s.cur.k.ctx va pg = some pins → permitted (whoOf s.cur) k pg = false →
       ∃ u, exec i s = .next (raiseTrap u ⟨PERM, pcOf s, va, 0, 0⟩) ∧ u.cur = s.cur ∧ (s.latent = [] → u = s))) ∧
  ((∀ (s : State) (d a c z : Nat) (o : Int) (acq : Bool) (pg : Page) (pa : Nat),
      let size : Nat := if acq then (if z = 0 then 4 else 8) else 2 ^ z
      let va := getS s a + BitVec.ofInt 64 (if acq then o * size else o)
      let i := if acq then Instr.ldaq d a c z o else .lds d a z o
      let loc := pageLoc s pg pa
      let coh := pageCoh pg pa
      let tag := if pg.pr then some 0xD80 else rdTags s coh loc size
      let data : Word := wd (leNat (rdBytes s coh loc size))
      ready { sr := [a], sw := [d], cls := some .ld } s = true → calm s → va.toNat % size = 0 → reaches s .rd va pg pa →
      locClass loc ≠ 2 → locClass loc ≠ 6 →
      (tag = none ∨ d = 0 → ∃ t, exec i s = .next t ∧ t.cur.s = (setS s d data).cur.s ∧
        onlyAdvanced (setS s d data) t ∧ sameBytes s t ∧ t.cur.cntLd = s.cur.cntLd ∧ (slotOf t).poison = (slotOf s).poison) ∧
      (∀ x, tag = some x → d ≠ 0 → ∃ t, exec i s = .next t ∧ onlyAdvanced s t ∧ sameBytes s t ∧
        t.cur.cntLd = s.cur.cntLd + 1 ∧ (slotOf t).poison = (slotOf s).poison ++ [⟨[], [d], va, 0, x⟩])) ∧
   (∀ (s : State) (d a c z : Nat) (o : Int) (rel : Bool) (pg : Page) (pa : Nat),
      let size : Nat := if rel then (if z = 0 then 4 else 8) else 2 ^ z
      let va := getS s a + BitVec.ofInt 64 (if rel then o * size else o)
      let i := if rel then Instr.strl d a c z o else .sts d a z o
      let loc := pageLoc s pg pa
      let coh := pageCoh pg pa
      z ≤ 3 → ready { sr := [a, d], cls := some .st } s = true → calm s → va.toNat % size = 0 → reaches s .wr va pg pa →
      (liveBar s loc = true → exec i s = .next (raiseTrap s ⟨BARWIN, pcOf s, va, 0, 0⟩)) ∧
      (ownLoc loc → loc % 32 + size ≤ 32 →
        ∃ t, exec i s = .next t ∧ onlyAdvanced s t ∧ rdBytes t coh loc size = leBytes size (getS s d).toNat ∧
          sameBytesBut s t loc size)))

/-- LDC and LDV (R115): with no active lane the slot goes on; an odd Vd of 8-byte elements traps ILLEGAL; otherwise each
active lane, at Sa + imm W s + l s or at Sa + Vb's lane, takes its element: a pair, a word, or a narrow value extended
as the type in force says. Inactive lanes, other registers and memory are as before. STC and STV (R115, R116): each
active lane stores the low bytes of its element at its address, a pair for 8 bytes; where lanes share bytes the highest
lane's remain (R112); every other byte and every register is as before. With MD.BND, an entry that traps stores nothing
where a lane is out of range: BOUND shows the lanes, the entry, and the lowest one's address (R233).
That the check's flag stays with the trap is a reading: log 90. -/
def Obligations.VectorLoadsAndStores : Prop :=
  (∀ (s : State) (d a b z h : Nat) (o : Int) (idx : Bool) (accs : List (Acc × Page)) (u : State), z ≤ 3 →
     let size := 2 ^ z
     let i := if idx then Instr.ldv d b a z h else .ldc d a o z
     let addr := fun l => if idx then indexedAddr s a b l else contigAddr s a o size l
     let sg := etOf s = 0 ∨ etOf s = 2 ∨ etOf s = 4 ∨ etOf s = 6
     let dst := if z = 3 then [d, d + 1] else [d]
     ready { sr := [a], vr := [b], vw := dst, cls := some .ld } s = true →
     (z = 3 → d % 2 = 1 → exec i s = .next (raiseTrap s ⟨ILLEGAL, pcOf s, 0, wd (word0 i), 0⟩)) ∧
     ((z = 3 → d % 2 = 0) → activeLanes s = [] → exec i s = .next (advance s)) ∧
     ((z = 3 → d % 2 = 0) → activeLanes s ≠ [] → calm s →
       checkAccs s (whoOf s.cur) .rd size size ((activeLanes s).map (fun l => (l, addr l, 0, 0))) = .ok accs u →
       (∀ p ∈ accs, isRemote p.1 = false ∧ p.1.pr = false ∧ rdTags s p.1.coh p.1.loc size = none) →
       ∃ t, exec i s = .next t ∧ onlyAdvanced { s with cur := { s.cur with v := t.cur.v } } t ∧ sameBytes s t ∧
         accs.map (fun p => (p.1.lane, p.1.va)) = (activeLanes s).map (fun l => (l, addr l)) ∧
         (∀ n l, l < 64 → n ∉ dst ∨ l ∉ activeLanes s → getV t n l = getV s n l) ∧
         ∀ p ∈ accs,
           let x : Word := wd (leNat (rdBytes s p.1.coh p.1.loc size))
           (z = 3 → getV2 t d p.1.lane = x) ∧ (z = 2 → getV t d p.1.lane = x.setWidth 32) ∧
           (z = 1 → getV t d p.1.lane = if sg then (x.setWidth 16).signExtend 32 else x.setWidth 32) ∧
           (z = 0 → getV t d p.1.lane = if sg then (x.setWidth 8).signExtend 32 else x.setWidth 32))) ∧
  (∀ (s : State) (d a b z h : Nat) (o : Int) (idx : Bool) (accs : List (Acc × Page)) (u : State), z ≤ 3 →
     let size := 2 ^ z
     let i := if idx then Instr.stv d b a z h else .stc d a o z
     let addr := fun l => if idx then indexedAddr s a b l else contigAddr s a o size l
     let val := fun l => if z = 3 then getV2 s d l else (getV s d l).setWidth 64
     let src := if z = 3 then [d, d + 1] else [d]
     let ok := fun (vals : List (Nat × Word)) =>
       checkAccs s (whoOf s.cur) .wr size size (vals.map (fun p => (p.1, addr p.1, p.2, 0))) = .ok accs u ∧
       ∀ p ∈ accs, ownLoc p.1.loc ∧ p.1.loc % 32 + size ≤ 32
     ready { sr := [a], vr := b :: src, cls := some .st } s = true → (z = 3 → d % 2 = 0) →
     (bndOf s = false ∨ bxOf s = 0 → activeLanes s = [] → exec i s = .next (advance s)) ∧
     (bndOf s = false ∨ bxOf s = 0 → activeLanes s ≠ [] → calm s → ok ((activeLanes s).map (fun l => (l, val l))) →
       ∃ t, exec i s = .next t ∧ onlyAdvanced s t ∧
         accs.map (fun p => (p.1.lane, p.1.va, p.1.data)) = (activeLanes s).map (fun l => (l, addr l, val l)) ∧
         (∀ c j, (∀ p ∈ accs, ¬(p.1.loc ≤ j ∧ j < p.1.loc + size)) → rdByte t c j = rdByte s c j) ∧
         ∀ p ∈ accs, (∀ q ∈ accs, p.1.lane < q.1.lane → q.1.loc + size ≤ p.1.loc ∨ p.1.loc + size ≤ q.1.loc) →
           rdBytes t p.1.coh p.1.loc size = leBytes size p.1.data.toNat) ∧
     (bndOf s = true → bxOf s ≠ 0 → is64 (etOf s) = false → calm s →
       let e := boundGet s s.cur.core (bxOf s)
       let outs := (activeLanes s).filter (fun l => outOfRange (elemB (etOf s) (rawV s (etOf s) d l)) e)
       e.act = 3 → outs ≠ [] → ok ((activeLanes s).map (fun l => (l, val l))) →
       ∃ t, exec i s = .next (raiseTrap t ⟨BOUND, pcOf s, addr (outs.headD 0), wd (bxOf s), maskList outs⟩) ∧
         sameBytes s t ∧ t.cur.sstat = s.cur.sstat ||| 0x80 ∧ t.cur.v = s.cur.v ∧ t.cur.s = s.cur.s))

/-- Atomics (R118 to R121, R124): the type and the register rules trap ILLEGAL; with no active lane the slot goes on. Lanes at
this device that the cluster's service does not serve are performed one after another in lane order: each finds what the lower
lanes left, its Vd lane takes that old value, and memory the new one, by the operation, wrapped integers, signed or unsigned
order, the compared exchange; nothing else changes. A lane of HBM4 that the service serves enters its queue, Vd pending, memory
as before (R123). Lanes of an operation other than ATXCH and ATCAS at one fabric address leave as one atomic of their total, and
of the old value that comes back each lane takes what it would have found after the lower lanes (R124). -/
def Obligations.Atomics : Prop :=
  (∀ (s : State) (d a b h l : Nat) (pg : Page) (x : Acc) (accs : List (Acc × Page)) (u : State) (c : Bool),
    let et := etOf s
    let w := is64 et
    let n := atSize et
    let mask := wd (2 ^ (8 * n) - 1)
    ready { vr := a :: (a + 1) :: (regs w b ++ regs w d), vw := regs w d, cls := some .ld } s = true →
    ∀ p ∈ [(AtOp.add, Instr.atadd d a b h), (.min, .atmin d a b h), (.max, .atmax d a b h), (.and, .atand d a b h),
        (.or, .ator d a b h), (.xor, .atxor d a b h), (.xch, .atxch d a b h), (.cas, .atcas d a b h)],
      let bad := exec p.2 s = .next (raiseTrap s ⟨ILLEGAL, pcOf s, 0, wd (word0 p.2), 0⟩)
      let typed := et ≤ 3 ∨ (p.1 = .add ∧ (et = 8 ∨ et = 9))
      let even := a % 2 = 0 ∧ (w = true → d % 2 = 0 ∧ b % 2 = 0)
      (¬(typed ∧ even) → bad) ∧
      (typed → even → activeLanes s = [] → exec p.2 s = .next (advance s)) ∧
      (typed → even → activeLanes s ≠ [] → calm s →
        checkAccs s (whoOf s.cur) .at n n ((activeLanes s).map (atLane s et d a b)) (atLimit p.1 et) = .ok accs u →
        (∀ q ∈ accs, q.1.coh = c ∧ ownLoc q.1.loc ∧ q.1.loc % 32 + n ≤ 32 ∧ q.1.pr = false ∧ rdTags s c q.1.loc n = none ∧
          (c = false ∨ h ≠ 0 ∨ locClass q.1.loc = 1)) →
        let new : Word → Acc → Word := fun old x => match p.1 with
          | .add => match fmtOf et with
            | some f => wd (fadd f ⟨0, 0⟩ (elemFV et old) (elemFV et x.data)).code
            | none => wd ((old.toNat + x.data.toNat) % 2 ^ (8 * n))
          | .min => if elemInt et x.data < elemInt et old then x.data else old
          | .max => if elemInt et old < elemInt et x.data then x.data else old
          | .and => old &&& x.data
          | .or => old ||| x.data
          | .xor => old ^^^ x.data
          | .xch => x.data
          | .cas => if old = x.cmp then x.data else old
        ∃ t, exec p.2 s = .next t ∧
          accs.map (fun q => (q.1.lane, q.1.va, q.1.data, q.1.cmp)) =
            (activeLanes s).map (fun l => (l, getV2 s a l, rawV s et b l &&& mask, rawV s et d l &&& mask)) ∧
          (∀ low q high, accs = low ++ q :: high →
            holds t et d q.1.lane (valueAt n (afterLanes n new (low.map (·.1)) (rdByte s c)) q.1.loc)) ∧
          (∀ j, rdByte t c j = afterLanes n new (accs.map (·.1)) (rdByte s c) j) ∧
          (∀ v j, (∀ q ∈ accs, ¬(q.1.loc ≤ j ∧ j < q.1.loc + n)) → rdByte t v j = rdByte s v j) ∧
          (∀ m j, j < 64 → m ∉ regs w d ∨ j ∉ activeLanes s → getV t m j = getV s m j) ∧
          onlyAdvanced { s with cur := { s.cur with v := t.cur.v } } t) ∧
      (typed → even → activeLanes s = [l] → calm s →
        checkAccs s (whoOf s.cur) .at n n [atLane s et d a b l] (atLimit p.1 et) = .ok [(x, pg)] u →
        x.pr = false → x.coh = true → h = 0 → locClass x.loc = 0 → queued s (clusterOf s.cur.core) < 256 →
        ∃ t r q, exec p.2 s = .next t ∧ onlyAdvanced s t ∧ sameBytes s t ∧ t.atomQ = s.atomQ ++ [q] ∧ t.reqs = [r] ∧
          q.req = r.id ∧ q.accs = [x] ∧ q.op = p.1.code ∧ (∀ m ∈ regs w d, m ∈ t.cur.vPend) ∧ t.cur.cntLd = s.cur.cntLd + 1)) ∧
  (∀ (r : Req) (o e : Nat) (v : Word) (tag : Option (BitVec 12)) (low high : List Acc) (x a : Acc), r.op = .atomic o e → o ≤ 5 →
    (wired r).filter (fun b => b.loc == a.loc) = low ++ x :: high →
    (x.lane, if low = [] then v else atCombine (atOp o) e v (atTotal o e low), tag) ∈ gotWire r a v tag ∧
    (low = [] → { x with data := atTotal o e (x :: high) } ∈ wireAccs r.op (wired r)))

/-- Translation and cache maintenance (R379, R380): TLBI removes the context's entries that map the address, TLBI_ALL every
entry of the context, EPOCH rising by one and no other entry going, and no byte of memory changing where no directory
holds a page; CFLUSH writes the line's dirty copies back, so that their
homes hold what the coherent caches held, which read as before; CINV discards the line, so that it reads as its home; both act as
NOPs on a page outside the coherent caches.
What the caches hold is the state's choice, and which directory entries go a reading: logs 23, 64. -/
def Obligations.CacheMaintenance : Prop :=
  ∀ (s : State) (a : Nat) (pg : Page) (pa : Nat),
    (ready { sr := [a], sys := true } s = true → ∃ t, exec (.tlbi a) s = .next t ∧ onlyAdvanced s t ∧
      t.epoch = s.epoch + 1 ∧ (s.pins = [] → sameBytes s t) ∧
      ∀ e, e ∈ t.tlb ↔ e ∈ s.tlb ∧ ¬(e.ctx = s.cur.k.ctx ∧ e.vpn = vaBits (getS s a) / 2 ^ lvlShift e.level)) ∧
    (ready { sys := true } s = true → ∃ t, exec .tlbiAll s = .next t ∧ onlyAdvanced s t ∧
      t.epoch = s.epoch + 1 ∧ (s.pins = [] → sameBytes s t) ∧ ∀ e, e ∈ t.tlb ↔ e ∈ s.tlb ∧ e.ctx ≠ s.cur.k.ctx) ∧
    (reaches s .rd (getS s a) pg pa → calm s →
      let loc := pageLoc s pg pa
      let line := fun j => loc / 128 = j / 128
      (ready { sr := [a], cls := some .st } s = true →
        (pageCoh pg pa = false → ∃ t, exec (.cflush a) s = .next t ∧ onlyAdvanced s t ∧ sameBytes s t) ∧
        (pageCoh pg pa = true → ∃ t, exec (.cflush a) s = .next t ∧ onlyAdvanced s t ∧
          (∀ j, rdByte t true j = rdByte s true j) ∧
          (∀ j, rdByte t false j =
            if line j ∧ (smGet none s.cached (j / 32)).any (·.dirty) = true then rdByte s true j else rdByte s false j))) ∧
      (ready { sr := [a], sys := true, cls := some .st } s = true →
        (pageCoh pg pa = false → ∃ t, exec (.cinv a) s = .next t ∧ onlyAdvanced s t ∧ sameBytes s t) ∧
        (pageCoh pg pa = true → ∃ t, exec (.cinv a) s = .next t ∧ onlyAdvanced s t ∧
          ∀ v j, rdByte t v j = if line j then homeByte s j else rdByte s v j)))

/-! ### Barriers and queues (14) -/

/-- Barriers (R250 to R254): BARI sets EXP and clears the rest; BARA adds arrivals, BARS arrives and waits for the phase it
found, BARX adds to PEND, and each is followed by the completion check: a full barrier starts its next phase, and every
slot of the core that waits for the phase goes on. BARW waits while the phase bit is its operand's; BARQ reads a half of the
barrier word. A count outside 1 to 65535, and a barrier that the stook has not, trap ILLEGAL. -/
def Obligations.Barriers : Prop :=
  ∀ (s : State) (n a d i : Nat),
    let core := s.cur.core
    let pb := pbOf s.cur.k n
    let b := barGet s core pb
    let v := (getS s a + wd i).toNat
    let full := fun (x : Barrier) => decide (x.exp.toNat ≤ x.arr.toNat) && (x.pend == 0 || x.err)
    let go := fun (x : Slot) => { x with wait := .ready, pc := x.pc + 4 }
    let freed := fun (ph : BitVec 32) (x : Slot) => match x.wait with
      | .parity p q => if p = pb ∧ ph.getLsbD 0 ≠ q then go x else x
      | .phase p q => if p = pb ∧ ph ≠ q then go x else x
      | _ => x
    let stepped := fun (t : State) (x : Barrier) =>
      (∀ k, smGet Barrier.dead t.barriers k = if k = core * 1024 + pb then phaseDone x else smGet Barrier.dead s.barriers k) ∧
      t.agents = s.agents.map (fun g => if full x && g.core == core then
        { g with pri := freed (x.phcnt + 1) g.pri, sec := freed (x.phcnt + 1) g.sec } else g) ∧
      otherSlot t = (if full x then freed (x.phcnt + 1) (otherSlot s) else otherSlot s) ∧
      { t with cur := s.cur, barriers := s.barriers, agents := s.agents } = s
    let arrived := if b.exp.toNat < b.arr.toNat + v then { b with arr := b.exp, err := true }
      else { b with arr := BitVec.ofNat 16 (b.arr.toNat + v) }
    let expected := if 2 ^ 47 ≤ b.pend.toInt + v then { b with pend := BitVec.ofInt 48 (2 ^ 47 - 1), err := true }
      else { b with pend := BitVec.ofInt 48 (b.pend.toInt + v) }
    let bad := fun j => exec j s = .next (raiseTrap s ⟨ILLEGAL, pcOf s, 0, wd (word0 j), 0⟩)
    (ready { sr := [a], eng := true } s = true →
      (s.cur.k.nBar ≤ n → bad (.bari n a i) ∧ bad (.bara n a i) ∧ bad (.barw n a i) ∧ bad (.bars n a i) ∧ bad (.barx n a i)) ∧
      (n < s.cur.k.nBar →
        (v = 0 ∨ 65535 < v → bad (.bari n a i)) ∧
        (0 < v → v ≤ 65535 → ∃ t, exec (.bari n a i) s = .next t ∧ onlyAdvanced s t ∧
          stepped t { b with exp := BitVec.ofNat 16 v, arr := 0, pend := 0, err := false }) ∧
        (b.phcnt.getLsbD 0 = (getS s a + wd i).getLsbD 0 → exec (.barw n a i) s =
          .next (setSlot s { slotOf s with wait := .parity pb (b.phcnt.getLsbD 0) })) ∧
        (b.phcnt.getLsbD 0 ≠ (getS s a + wd i).getLsbD 0 → exec (.barw n a i) s = .next (advance s)) ∧
        (∃ t, exec (.barx n a i) s = .next t ∧ onlyAdvanced s t ∧ stepped t expected) ∧
        (s.reqs = [] → ∃ t, exec (.bara n a i) s = .next t ∧ onlyAdvanced s t ∧ stepped t arrived) ∧
        (s.reqs = [] → ∃ t, exec (.bars n a i) s = .next t ∧ stepped t arrived ∧
          (full arrived = true → onlyAdvanced s t) ∧
          (full arrived = false → (slotOf t).wait = .phase pb b.phcnt ∧ pcOf t = pcOf s ∧ t.cur.s = s.cur.s ∧
            t.cur.v = s.cur.v ∧ t.cur.m = s.cur.m)))) ∧
    (ready { sw := [d], eng := true } s = true →
      (s.cur.k.nBar ≤ n → bad (.barq n d i)) ∧
      (n < s.cur.k.nBar → waitersOn s core pb < 2 ^ 14 → exec (.barq n d i) s = .next (advance (setS s d (wd
        (if b.live = false then 0
        else if i % 2 = 1 then b.exp.toNat * 2 ^ 48 + b.pend.toNat
        else b.arr.toNat * 2 ^ 48 + waitersOn s core pb * 2 ^ 34 + 2 ^ 33 + (if b.err then 2 ^ 32 else 0) + b.phcnt.toNat))))))

/-- Queues (R256 to R260): QINIT makes an empty queue on a page of the core's own SRAM; QPUSH takes one allowance and puts
its handle behind the last, QPOP and QTRY take the handle at the head, QGRANT adds allowances, QSTAT reads the queue's
word; a push without allowance and a pop of an empty queue wait, and QTRY of one gives all ones. QERR's causes 1 to 6 and
ILLEGAL of a number that the stook has not trap with no effect, but for the errors in table sectors that QINIT's walk
detects (R98).
QERR 3 of a non-canonical ring is a reading: log 34. -/
def Obligations.Queues : Prop :=
  ∀ (s : State) (n a d i : Nat) (q : Queue),
    let me := s.cur.stook
    let v := getS s a + wd i
    let err := fun j (c : Nat) => exec j s = .next (raiseTrap s ⟨QERR, pcOf s, 0, wd c, 0⟩)
    let walked := fun j (c : Nat) => ∃ u, exec j s = .next (raiseTrap u ⟨QERR, pcOf s, 0, wd c, 0⟩) ∧ u.cur = s.cur ∧
      (s.latent = [] → u = s)
    let bad := fun j => exec j s = .next (raiseTrap s ⟨ILLEGAL, pcOf s, 0, wd (word0 j), 0⟩)
    let is := fun (t : State) (x : Queue) =>
      queueOf t me n = some x ∧ ∀ m, m ≠ n → queueOf t me m = queueOf s me m
    let tail := q.loc + 8 * ((q.head + q.count) % 2 ^ q.cap)
    let first := wd (leNat (rdBytes s false (q.loc + 8 * q.head) 8))
    let left := { q with head := (q.head + 1) % 2 ^ q.cap, count := q.count - 1 }
    let va := getS s a
    (ready { sr := [a], sw := [d], eng := true } s = true →
      (s.cur.k.nQ ≤ n → bad (.qpush n a i) ∧ bad (.qpop n d i)) ∧
      (n < s.cur.k.nQ → queueOf s me n = none → err (.qpush n a i) 1 ∧ err (.qpop n d i) 1) ∧
      (n < s.cur.k.nQ → queueOf s me n = some q →
        (v = BitVec.allOnes 64 → err (.qpush n a i) 6) ∧
        (v ≠ BitVec.allOnes 64 → s.reqs = [] → q.push = [] → q.pop = [] →
          (0 < q.alw → (∀ k, tail ≤ k → k < tail + 8 → locClass k ≠ 5 ∧ barFile k = none) →
            ∃ t, exec (.qpush n a i) s = .next t ∧ onlyAdvanced s t ∧ is t { q with alw := q.alw - 1, count := q.count + 1 } ∧
              rdBytes t false tail 8 = leBytes 8 v.toNat ∧ sameBytesBut s t tail 8) ∧
          (q.alw = 0 → ∃ t, exec (.qpush n a i) s = .next t ∧ (slotOf t).wait = .queue n ∧ pcOf t = pcOf s ∧
            is t { q with push := [(s.cur.id, s.slot, v)] } ∧ sameBytes s t)) ∧
        (q.push = [] → q.pop = [] →
          (0 < q.count → ∃ t, exec (.qpop n d i) s = .next t ∧ onlyAdvanced (setS s d first) t ∧ is t left ∧ sameBytes s t) ∧
          (q.count = 0 → ∃ t, exec (.qpop n d i) s = .next t ∧ (slotOf t).wait = .queue n ∧ pcOf t = pcOf s ∧
            is t { q with pop := [(s.cur.id, s.slot, d)] } ∧ sameBytes s t)))) ∧
    (ready { sr := [a], sw := [d] } s = true →
      (s.cur.k.nQ ≤ n → bad (.qinit n a i) ∧ bad (.qtry n d i) ∧ bad (.qgrant n a i) ∧ bad (.qstat n d i)) ∧
      (n < s.cur.k.nQ → queueOf s me n = none → err (.qtry n d i) 1 ∧ err (.qgrant n a i) 1 ∧
        exec (.qstat n d i) s = .next (advance (setS s d 0))) ∧
      (n < s.cur.k.nQ →
        (i = 0 ∨ 12 < i → err (.qinit n a i) 2) ∧
        (1 ≤ i → i ≤ 12 → va.toNat % (8 * 2 ^ i) ≠ 0 ∨ canonical va = false → err (.qinit n a i) 3) ∧
        (∀ pg pa new pins, 1 ≤ i → i ≤ 12 → va.toNat % (8 * 2 ^ i) = 0 → canonical va = true →
          translate s (whoOf s.cur) va = .ok pg pa new → pinTake s.pins s.cur.k.ctx va pg = some pins →
          let fits := pg.home = 2 ∧ pg.hidx = s.cur.core ∧ pg.p = false ∧ pg.r = true ∧ pg.w = true ∧ (s.cur.priv = true ∨ pg.u = true)
          (¬fits → walked (.qinit n a i) 3) ∧
          (fits → queueOf s me n = some q → 0 < q.count ∨ q.push ≠ [] ∨ q.pop ≠ [] → walked (.qinit n a i) 4) ∧
          (fits → queueOf s me n = none ∨ (queueOf s me n = some q ∧ q.count = 0 ∧ q.push = [] ∧ q.pop = []) →
            ∃ t, exec (.qinit n a i) s = .next t ∧ onlyAdvanced s t ∧
              is t ⟨me, n, va, pageLoc s pg pa, i, 0, 0, 0, [], []⟩ ∧ sameBytes s t))) ∧
      (n < s.cur.k.nQ → queueOf s me n = some q →
        (q.count = 0 → exec (.qtry n d i) s = .next (advance (setS s d (BitVec.allOnes 64)))) ∧
        (0 < q.count → q.push = [] → q.pop = [] →
          ∃ t, exec (.qtry n d i) s = .next t ∧ onlyAdvanced (setS s d first) t ∧ is t left ∧ sameBytes s t) ∧
        (2 ^ q.cap < q.alw + q.count + v.toNat → err (.qgrant n a i) 5) ∧
        (q.alw + q.count + v.toNat ≤ 2 ^ q.cap → q.push = [] → q.pop = [] →
          ∃ t, exec (.qgrant n a i) s = .next t ∧ onlyAdvanced s t ∧ is t { q with alw := q.alw + v.toNat } ∧ sameBytes s t) ∧
        exec (.qstat n d i) s = .next (advance (setS s d (wd (2 ^ 36 + q.cap * 2 ^ 32 + q.alw * 2 ^ 16 + q.count))))))

/-! ### The engines (06, 10, 11, 13, 14) -/

/-- A descriptor read (R130): where the address is aligned and canonical, its page readable and its bytes clean and on
this device, the read gives the n bytes at the address, little-endian, and changes no register and no byte; poison there
traps POISON at once, with the tag in TINFO. Copies handed over (R129 to R131, R137, R140): CPB reads its descriptor and
adds a slice to its stook's open copy of the tag, or opens one, and the copy closes with its last slice; its copies
count goes up, and the tile count for a follow-on's slice 0; a status register is pending. CPL hands over one 16-byte
copy per active lane. A barrier that the stook has not, and an odd pair, trap ILLEGAL. No register, flag or byte of
memory changes.
Descriptor reads and fork edges as read in logs 36, 55. -/
def Obligations.CopiesHandedOver : Prop :=
  (∀ (s : State) (va : Word) (n : Nat) (wr : Bool) (pg : Page) (pa : Nat),
     n = 8 ∨ n = 32 ∨ n = 64 → calm s → va.toNat % n = 0 → reaches s .rd va pg pa → pg.pr = false →
     (wr = true → pg.w = true ∧ liveIn s (pageLoc s pg pa) n = none) → locClass (pageLoc s pg pa) ≠ 2 →
     pageLoc s pg pa % n = 0 →
     let loc := pageLoc s pg pa
     (∀ x, rdTags s (pageCoh pg pa) loc n = some x →
       ∃ t, readDesc s va n wr = .stop (.after t ⟨POISON, pcOf s, va, x.setWidth 64, 0⟩) ∧ t.cur = s.cur) ∧
     (rdTags s (pageCoh pg pa) loc n = none →
       ∃ t, readDesc s va n wr = .ok (leNat (rdBytes s (pageCoh pg pa) loc n)) loc (pageCoh pg pa) pg t ∧
         t.cur = s.cur ∧ t.slot = s.slot ∧ sameBytes s t)) ∧
  (∀ (s u : State) (n d a b : Nat) (reg : Bool) (x loc : Nat) (coh : Bool) (pg : Page), calm s →
     let i := if reg then Instr.cpbStatus n a else .cpb n a
     let me := s.cur.stook
     let opened := openCopy s me reg n
     let follow := fld x 471 471 = 1 ∧ fld x 475 472 = 0
     let bad := fun j => exec j s = .next (raiseTrap s ⟨ILLEGAL, pcOf s, 0, wd (word0 j), 0⟩)
     (ready { sr := [a], sw := if reg then [n] else [], eng := true, cls := some .cp } s = true →
       (reg = false → s.cur.k.nBar ≤ n → bad i) ∧
       (reg = true ∨ n < s.cur.k.nBar → readDesc s (getS s a) 64 false = .ok x loc coh pg u →
         opened.isSome = true ∨ openCount s me < 16 → (follow → s.cur.cntTl < 62) →
         ∃ t y, exec i s = .next t ∧ sameBytes s t ∧
           issued s t (fun c => (if c = .cp then 1 else 0) + (if c = .tl ∧ follow then 1 else 0)) ∧
           y.desc = BitVec.ofNat 512 x ∧ y.party.agent = s.cur.id ∧ y.party.k = s.cur.k ∧ y.party.priv = s.cur.priv ∧
           y.party.rm = rmOf s ∧ y.party.srkey = s.cur.srkey ∧ y.party.srseq = s.cur.srseq ∧
           (reg = true → n ≠ 0 → n ∈ t.cur.sPend) ∧
           (opened = none → ∃ c, t.copies = s.copies ++ [c] ∧ c.stook = me ∧ c.core = s.cur.core ∧ c.toReg = reg ∧ c.tag = n ∧
             c.n = fld x 479 476 + 1 ∧ c.slices = [y] ∧ (c.order = 0 ↔ c.n ≠ 1) ∧ c.landed = false ∧ c.err = 0 ∧ c.bytes = 0) ∧
           (∀ c, opened = some c → ∃ e ∈ t.copies, e.id = c.id ∧ e.tag = c.tag ∧ e.slices = c.slices ++ [y] ∧
             (e.order = 0 ↔ c.slices.length + 1 ≠ c.n)))) ∧
     (ready { vr := [d, d + 1, b, b + 1], sr := [a], cls := some .cp } s = true →
       let k := (getS s a).toNat
       let act := activeLanes s
       (d % 2 = 1 ∨ b % 2 = 1 ∨ 1024 ≤ k ∨ s.cur.k.nBar ≤ k → bad (.cpl d b a)) ∧
       (d % 2 = 0 → b % 2 = 0 → k < 1024 → k < s.cur.k.nBar →
         (act = [] → exec (.cpl d b a) s = .next (advance s)) ∧
         (∀ rs v, act ≠ [] → (∀ l ∈ act, (getV2 s b l).toNat % 16 = 0 ∧ (getV2 s d l).toNat % 16 = 0 ∧
             canonical (getV2 s b l) = true ∧ canonical (getV2 s d l) = true) →
           cplXlate s (whoOf s.cur) (act.flatMap (fun l => [⟨l, false, getV2 s b l⟩, ⟨l, true, getV2 s d l⟩])) = (rs, [], v) →
           (∀ r ∈ rs, permitted (whoOf s.cur) (if r.ad.dst then .wr else .rd) r.pg = true ∧
             (r.ad.dst = true → liveIn v r.acc.loc 16 = none)) →
           ∃ t p, exec (.cpl d b a) s = .next t ∧ sameBytes s t ∧ issued s t (one .cp) ∧ t.cpls = s.cpls ++ [p] ∧
             p.party.agent = s.cur.id ∧ p.pb = pbOf s.cur.k k ∧
             p.lanes.map (fun q => (q.1.va, q.2.va, q.1.size, q.2.size)) =
               act.map (fun l => (getV2 s b l, getV2 s d l, 16, 16))))))

/-- Tile operations at issue (R202, R214, R216, R219, R228): a tile that the stook has not, and an MMA without CLR in a mode
that is not the tile's, trap ILLEGAL; a misaligned operand or destination traps ALIGN; otherwise the operation enters its
core's stream behind those issued, for the physical tile, its tile count goes up, and ADRN's status register is pending.
CHINJ takes its fields from Sa, and a reserved field or a channel above 9 traps ILLEGAL. -/
def Obligations.TileOperationsIssued : Prop :=
  ∀ (s : State) (t a b f g m : Nat) (fl : Int) (pt : Nat), calm s →
    let ready_ := fun sw => ready { sr := [a, b], sw := sw, eng := true, cls := some .tl } s = true
    let tile := s.cur.k.tiles[t]?
    let bad := fun j => exec j s = .next (raiseTrap s ⟨ILLEGAL, pcOf s, 0, wd (word0 j), 0⟩)
    let traps := fun j c x => exec j s = .next (raiseTrap s ⟨c, pcOf s, x, 0, 0⟩)
    let enters := fun (j : Instr) (p : Nat) (k : TileKind) (u : State) => exec j s = .next u ∧ sameBytes s u ∧ issued s u (one .tl) ∧
      ∃ id q, u.tileOps = s.tileOps ++ [⟨id, q, s.cur.core, p, k, false, none⟩] ∧ q.agent = s.cur.id ∧ q.stook = s.cur.stook
    (ready_ [] → ∀ clr : Bool,
      let i := if clr then Instr.mmaClr t a b f g m else .mma t a b f g m
      (tile = none → bad i ∧ bad (.aclr t fl)) ∧
      (tile = some pt →
        (clr = false → m ≠ issuedMode s s.cur.core pt → bad i) ∧
        (clr = true ∨ m = issuedMode s s.cur.core pt →
          ((getS s a).toNat % (if f = 6 then 64 else 128) ≠ 0 → traps i ALIGN (getS s a)) ∧
          ((getS s a).toNat % (if f = 6 then 64 else 128) = 0 → (getS s b).toNat % (if g = 6 then 64 else 128) ≠ 0 →
            traps i ALIGN (getS s b)) ∧
          (∀ x y v, mmaCheck s (partyOf s) f g m (getS s a) (getS s b) = .ok x y v →
            ∃ u, enters i pt (.mma clr m x y) u)) ∧
        ∃ u, enters (.aclr t fl) pt (.aclr fl) u)) ∧
    (ready_ [b] → f ≤ 8 →
      let dst := getS s a
      (tile = none ∨ (f = 8 ∧ g ≠ 0) → bad (.adrn t a b f g)) ∧
      (tile = some pt → (f = 8 → g = 0) → dst.toNat % 64 ≠ 0 → traps (.adrn t a b f g) ALIGN dst) ∧
      (tile = some pt → (f = 8 → g = 0) → dst.toNat % 64 = 0 → canonical dst = true →
        canonical (dst + wd (imageBytes f - 1)) = true →
        ∃ u, enters (.adrn t a b f g) pt (.adrn dst f g b (boundGet s s.cur.core g) Drain.zero) u ∧ (b ≠ 0 → b ∈ u.cur.sPend))) ∧
    (ready { sr := [a], sys := true, cls := some .tl } s = true →
      let x := (getS s a).toNat
      let ok := fld x 63 40 = 0 ∧ fld x 31 28 = 0 ∧ fld x 23 23 = 0 ∧ fld x 19 12 = 0 ∧ fld x 27 24 ≤ 9
      (¬ok ∨ s.cur.k.tiles[fld x 22 20]? = none → bad (.chinj a)) ∧
      (ok → s.cur.k.tiles[fld x 22 20]? = some pt →
        ∃ u, enters (.chinj a) pt (.chinj (fld x 27 24) (fld x 11 0) (fld x 39 32)) u))

/-- Sketch instructions at issue (R236, R241, R245): a malformed descriptor traps SKGEOM with its code, another type or an
odd pair ILLEGAL; with no active lane SKUPD and SKQRY go on. SKUPD adds one step for each distinct counter of its lanes'
values to its stores, SKQRY one read for each lane and row to its loads, its register pending; the whole-sketch operations
enter the engine under their barrier, SKADD's two sketches matching. No register, flag or byte changes but as a NaN's. -/
def Obligations.SketchInstructionsIssued : Prop :=
  ∀ (s u : State) (d b a h n x y loc : Nat) (coh : Bool) (pg : Page), calm s →
    let et := etOf s
    let w := is64 et
    let bad := fun j => exec j s = .next (raiseTrap s ⟨ILLEGAL, pcOf s, 0, wd (word0 j), 0⟩)
    let geom := fun j va z => exec j s = .next (raiseTrap s ⟨SKGEOM, pcOf s, va, wd z, 0⟩)
    let typed := (et = 0 ∨ et = 2 ∨ et = 8 ∨ et = 9 ∨ et = 10) ∧ b % 2 = 0 ∧ (w = true → d % 2 = 0)
    let k := sketchOf (getS s a) loc coh x
    let cells := fun t => (activeLanes t).flatMap (fun l => cellsOf k l (getV2 t b l))
    (∀ j : Bool,
      ready { vr := b :: (b + 1) :: regs w d, vw := regs w d, sr := [a], cls := some (if j then .ld else .st) } s = true →
      let i := if j then Instr.skqry d b a h else .skupd d b a h
      (¬typed → bad i) ∧
      (typed → readDesc s (getS s a) 32 (!j) = .ok x loc coh pg u →
        (sketchBad x ≠ 0 → geom i (getS s a) (sketchBad x)) ∧
        (sketchBad x = 0 → activeLanes s = [] → ∃ t, exec i s = .next t ∧ onlyAdvanced s t ∧ sameBytes s t ∧ t.reqs = []) ∧
        (∀ accs v, sketchBad x = 0 → activeLanes s ≠ [] →
          checkAccs u (whoOf u.cur) (if j then .rd else .at) k.size k.size ((cells s).map (fun c => (c.lane, c.va, 0, 0)))
            (fun z => skHome z.loc z.coh) = .ok accs v →
          (j = true → ∃ t r, exec i s = .next t ∧ sameBytes s t ∧ issued s t (one .ld) ∧ t.reqs = [r] ∧ r.agent = s.cur.id ∧
            r.accs.map (fun z => z.va) = (cells s).map (fun c => c.va) ∧ (∀ z ∈ regs w d, z ∈ t.cur.vPend)) ∧
          (j = false → (∀ l ∈ activeLanes s, et < 8 ∨ isFin (elemFV et (rawV s et d l)) = true) →
            ∃ t r, exec i s = .next t ∧ sameBytes s t ∧ issued s t (one .st) ∧ t.reqs = [r] ∧ r.agent = s.cur.id ∧
              (∀ c ∈ cells s, ∃ z ∈ r.accs, z.va = c.va) ∧ (r.accs.map (fun z => z.va)).Nodup)))) ∧
    (ready { sr := [a, b], cls := some .cp } s = true →
      (s.cur.k.nBar ≤ n → bad (.skadd n a b) ∧ bad (.skclr n a) ∧ bad (.skdec n a b)) ∧
      (n < s.cur.k.nBar → readDesc s (getS s a) 32 true = .ok x loc coh pg u →
        (sketchBad x ≠ 0 → geom (.skclr n a) (getS s a) (sketchBad x) ∧ geom (.skdec n a b) (getS s a) (sketchBad x)) ∧
        (sketchBad x = 0 → sketchLost u k = none → ∀ j : Bool,
          ∃ t o, exec (if j then .skclr n a else .skdec n a b) s = .next t ∧ sameBytes s t ∧ issued s t (one .cp) ∧
            t.skops = s.skops ++ [o] ∧ o.party.agent = s.cur.id ∧ o.pb = pbOf s.cur.k n ∧ o.dst = k ∧ o.src = none ∧
            o.f = (if j then 1 else 2) ∧ (j = false → o.k = (getS s b).toNat % 64) ∧ o.done = 0) ∧
        (∀ ly cy py v, readDesc u (getS s b) 32 false = .ok y ly cy py v → sketchBad x = 0 →
          let e := sketchOf (getS s b) ly cy y
          (sketchBad y ≠ 0 → geom (.skadd n a b) (getS s b) (sketchBad y)) ∧
          (sketchBad y = 0 → ¬(k.lw = e.lw ∧ k.depth = e.depth ∧ k.seed = e.seed ∧ k.scale = e.scale ∧ k.narrow = e.narrow) →
            geom (.skadd n a b) (getS s b) 5) ∧
          (sketchBad y = 0 → k.lw = e.lw → k.depth = e.depth → k.seed = e.seed → k.scale = e.scale → k.narrow = e.narrow →
            sketchLost v k = none → sketchLost v e = none →
            ∃ t o, exec (.skadd n a b) s = .next t ∧ sameBytes s t ∧ issued s t (one .cp) ∧ t.skops = s.skops ++ [o] ∧
              o.party.agent = s.cur.id ∧ o.pb = pbOf s.cur.k n ∧ o.dst = k ∧ o.src = some e ∧ o.f = 0 ∧ o.done = 0))))

/-- Engine programs and work for the launch sequencer (R263, R266, R359 to R361): FORK enters each named program, whose
address ENGTAB gives, in its fork queue with the sheaf's S0 to S15, MD and keys; EEND ends a program whose operations have
completed; SPAWN takes a free pool record and one of its record's budget, and gives its number, or 0 where there is none;
CONT takes a free pool record for a continuation and marks it in memory. A wrong number traps ILLEGAL, an unaligned record
ALIGN.
A program's privilege is a reading: log 35. -/
def Obligations.ProgramsAndRecords : Prop :=
  ∀ (s u v : State) (d a b x y loc : Nat) (coh : Bool) (pg : Page), calm s →
    let g := s.cur
    let bad := fun j => exec j s = .next (raiseTrap s ⟨ILLEGAL, pcOf s, 0, wd (word0 j), 0⟩)
    let named := fun (t : State) (k z : Nat) (t' : State) => if k = 0 then z = 0 ∧ t' = t else
      ∃ l c p, readDesc t (t.cur.k.engTab + wd (8 * (k - 1))) 8 false = .ok z l c p t'
    let ent := fun (mat : Bool) (z : Nat) (e : ForkEnt) => e.core = g.core ∧ e.mat = mat ∧ e.stook = g.stook ∧ e.by_ = g.id ∧
      e.entry = wd z ∧ (∀ r, r < 16 → smGet 0 e.s r = smGet 0 g.s r) ∧ e.md = g.md ∧ e.srkey = g.srkey ∧ e.srseq = g.srseq ∧
      e.priv = g.priv
    let put := fun (r : Word) t => onlyAdvanced (setS s d r) t
    (ready { sr := [a, b] } s = true →
      let km := (getS s a).toNat
      let kc := (getS s b).toNat
      (g.k.nEng < km ∨ g.k.nEng < kc → bad (.fork a b)) ∧
      (km ≤ g.k.nEng → kc ≤ g.k.nEng → named s km x u → named u kc y v →
        (km ≠ 0 → forkLen s g.core true < 4) → (kc ≠ 0 → forkLen s g.core false < 4) →
        ∃ t l, exec (.fork a b) s = .next t ∧ onlyAdvanced s t ∧ sameBytes s t ∧ t.forkQ = s.forkQ ++ l ∧
          (km = 0 → kc = 0 → l = []) ∧ (km ≠ 0 → kc = 0 → ∃ e, l = [e] ∧ ent true x e) ∧
          (km = 0 → kc ≠ 0 → ∃ e, l = [e] ∧ ent false y e) ∧
          (km ≠ 0 → kc ≠ 0 → ∃ e f, l = [e, f] ∧ ent true x e ∧ ent false y f))) ∧
    (ready { eng := true } s = true →
      (g.kind = .sheaf → bad .eend) ∧
      (g.kind ≠ .sheaf → (∀ c, cntOf g c = 0) → exec .eend s = .next (onCur s (fun a => { a with ended := true, pri := Slot.free }))) ∧
      (g.kind ≠ .sheaf → (∃ c, cntOf g c ≠ 0) → exec .eend s = .next s)) ∧
    (ready { sr := [a, b], sw := [d], cls := some .ld } s = true →
      let va := getS s a
      let p := poolGet s g.k.pool
      (va.toNat % 64 ≠ 0 → exec (.spawn d a b) s = .next (raiseTrap s ⟨ALIGN, pcOf s, va, 0, 0⟩)) ∧
      (va.toNat % 32 ≠ 0 → exec (.cont d a b) s = .next (raiseTrap s ⟨ALIGN, pcOf s, va, 0, 0⟩)) ∧
      (va.toNat % 64 = 0 → readDesc s va 64 false = .ok x loc coh pg u →
        (poolFree s = none ∨ p.budget = 0 ∨ p.depth = 24 →
          ∃ t, exec (.spawn d a b) s = .next t ∧ put 0 t ∧ sameBytes s t ∧ t.launches = s.launches ∧ t.pool = s.pool) ∧
        (∀ id, poolFree s = some id → id ≠ g.k.pool → p.budget ≠ 0 → p.depth ≠ 24 →
          ∃ t, exec (.spawn d a b) s = .next t ∧ put (wd id) t ∧ sameBytes s t ∧
            poolGet t g.k.pool = { p with budget := p.budget - 1 } ∧
            (poolGet t id).depth = p.depth + 1 ∧ (poolGet t id).budget = fld x 415 400 ∧ (poolGet t id).recVa = va ∧
            (poolGet t id).sys = decide (fld x 419 419 = 1) ∧
            (poolGet t id).frame = (if getS s b ≠ 0 then getS s b else wd (fld x 127 64)) ∧
            ∃ l, t.launches = s.launches ++ [l] ∧ l.pool = id ∧ l.hostQ = none ∧ l.bySys = g.k.sys)) ∧
      (va.toNat % 32 = 0 → readDesc s va 32 true = .ok x loc coh pg u →
        (coh = false ∨ locClass loc ≠ 0 → exec (.cont d a b) s = .next (raiseTrap s ⟨PERM, pcOf s, va, 0, 0⟩)) ∧
        (coh = true → locClass loc = 0 → poolFree s = none → ∃ t, exec (.cont d a b) s = .next t ∧ put 0 t ∧ sameBytes s t ∧ t.pool = s.pool) ∧
        (∀ id, coh = true → locClass loc = 0 → poolFree s = some id → loc % 32 = 0 →
          let join := (fld x 159 128 + (getS s b).toNat % 2 ^ 32) % 2 ^ 32
          ∃ t, exec (.cont d a b) s = .next t ∧ put (wd id) t ∧ (poolGet t id).recVa = va ∧ (poolGet t id).sys = g.priv ∧
            (join ≠ 0 → sameBytesBut s t (loc + 16) 8 ∧ leNat (rdBytes t true (loc + 16) 8) =
              2 ^ 62 + (if g.priv then 2 ^ 57 else 0) + fld x 183 182 * 2 ^ 54 + 2 ^ 51 + join))))

/-! ### The fabric (11, 17, 18) -/

/-- MTC to LNK.CTL with TRAIN, to LNK.PARK and to CHMAP (R231, R296, R299), of the value and port that the state brings:
TRAIN starts a full training of the port; PARK takes its value, asks the peer to park what it sets and wakes what it clears,
or traps ILLEGAL where no wavelength would be left active or waking; CHMAP takes a value that moves one channel to the spare
die, which starts the remap, or its own value again, and traps ILLEGAL otherwise; the write waits while a remap runs or a
lasting die fault is declared.
These events are MTCs of the slot in issue, and TRAIN reads as written: logs 37, 84. -/
def Obligations.PortAndMapWrites : Prop :=
  ∀ (s : State) (v k : Nat), ready { sys := true } s = true →
    let p := inA s 0
    let x := portGet s p
    let m := BitVec.ofNat 8 (inA s 1)
    let others := fun (t : State) => ∀ q, q ≠ p → portGet t q = portGet s q
    let bad := fun j => exec j s = .next (raiseTrap s ⟨ILLEGAL, pcOf s, 0, wd (wordAtPc s), 0⟩)
    (∃ t, exec .linkTrain s = .next t ∧ onlyAdvanced s t ∧ others t ∧ (portGet t p).ctl = (x.ctl ||| 2) &&& 7 ∧
      (portGet t p).st = 1 ∧ (portGet t p).full = true ∧ (portGet t p).training = 0xFF ∧ (portGet t p).txMask = 0 ∧
      (portGet t p).rxMask = 0 ∧ sameBytes s t) ∧
    let clr := x.park &&& ~~~m
    (~~~(x.retired ||| x.training ||| m ||| (x.peerPark &&& ~~~clr)) ||| x.waking = 0 → bad .linkPark) ∧
    (~~~(x.retired ||| x.training ||| m ||| (x.peerPark &&& ~~~clr)) ||| x.waking ≠ 0 →
      ∃ t, exec .linkPark s = .next t ∧ onlyAdvanced s t ∧ others t ∧ (portGet t p).park = m ∧ sameBytes s t ∧
        (portGet t p).ctlq = x.ctlq ++ (if clr = 0 then [] else [⟨0, 0, 0, 2, 0, 0, 5, false, [clr.toNat], []⟩]) ++
          (if m &&& ~~~x.park = 0 then [] else [⟨0, 0, 0, 2, 0, 0, 4, false, [m.toNat], []⟩]) ∧
        (portGet t p).waking = x.waking ||| (x.parked &&& clr) ∧
        (portGet t p).peerPark = x.peerPark &&& ~~~clr ∧ (portGet t p).ctl = x.ctl) ∧
    (s.remap.isSome = true ∨ (∃ d < 11, dieDeclared s d = true) → exec (.chmapWrite v) s = .next s) ∧
    (s.remap = none → (∀ d, d < 11 → dieDeclared s d = false) → v < 2 ^ 64 →
      (v = chmapWord s.chmap → exec (.chmapWrite v) s = .next (advance s)) ∧
      (v ≠ chmapWord s.chmap → (∀ j, oneMove s (wd v) = some j →
        exec (.chmapWrite v) s = .next (advance { s with remap := some ⟨j, s.chmap.getD j 0, false⟩ })) ∧
        (oneMove s (wd v) = none → bad (.chmapWrite v)))) ∧
    (s.remap = none → (∀ d, d < 11 → dieDeclared s d = false) → s.chmap.length = 11 → (∀ c ∈ s.chmap, c < 16) →
      (v = chmapWord s.chmap → exec (.chmapWrite v) s = .next (advance s)) ∧
      (2 ^ 44 ≤ v → v < 2 ^ 64 → bad (.chmapWrite v)) ∧
      (k < 10 → s.chmap.getD 10 15 ≠ 15 → s.chmap.getD k 0 ≠ s.chmap.getD 10 15 →
        v = chmapWord ((s.chmap.set k (s.chmap.getD 10 15)).set 10 15) →
        exec (.chmapWrite v) s = .next (advance { s with remap := some ⟨k, s.chmap.getD k 0, false⟩ })))

/-- Granary requests and calls at issue (R302 to R306, R311, R312, R316): XALLOC, XFREE and XQUOTA hand over their operands with
the kernel's job key and group, Sd pending; CCALL hands over its descriptor under its handle's next number, reports 3 where
no valid entry names the handle and 1 where a reserved bit is set, and where it passes its checks tells every other member.
The copies count goes up, and no register, flag or byte changes.
The words of packets, and the number of a call without an entry, are the model's: logs 21, 70. -/
def Obligations.RequestsAndCallsIssued : Prop :=
  ∀ (s u : State) (n d a b x loc : Nat) (coh : Bool) (pg : Page), calm s →
    let grp := s.cur.k.grp
    (ready { sr := [a, b], sw := [d], cls := some .cp } s = true →
      ∀ p ∈ [(0, Instr.xalloc d a b), (1, .xfree d a b), (2, .xquota d a b)],
        ∃ t r, exec p.2 s = .next t ∧ issued s t (one .cp) ∧ sameBytes s t ∧ t.xmems = s.xmems ++ [r] ∧ r.agent = s.cur.id ∧
          r.f = p.1 ∧ r.a = getS s a ∧ r.b = getS s b ∧ r.sd = d ∧ r.jobkey = s.cur.k.jobkey ∧ r.grp = grp ∧ r.result = none ∧
          (d ≠ 0 → d ∈ t.cur.sPend)) ∧
    (∀ reg : Bool, ready { sr := [a], sw := if reg then [n] else [], cls := some .cp } s = true →
      let i := if reg then Instr.ccallStatus n a else .ccall n a
      (reg = false → s.cur.k.nBar ≤ n → exec i s = .next (raiseTrap s ⟨ILLEGAL, pcOf s, 0, wd (word0 i), 0⟩)) ∧
      (reg = true ∨ n < s.cur.k.nBar → readDesc s (getS s a) 64 false = .ok x loc coh pg u →
        (s.calls.filter (fun c => c.handle == grp)).length < 8 → s.early = [] →
        ∃ t c, exec i s = .next t ∧ issued s t (one .cp) ∧ sameBytes s t ∧ c ∈ t.calls ∧ c.desc = BitVec.ofNat 512 x ∧
          c.handle = grp ∧ c.toReg = reg ∧ c.tag = n ∧ c.party.agent = s.cur.id ∧ c.started = false ∧
          (reg = true → n ≠ 0 → n ∈ t.cur.sPend) ∧
          (groupFor s grp = none → c.err = 3) ∧
          (∀ g, groupFor s grp = some g →
            (fld x 511 301 ≠ 0 → c.err = 1) ∧
            (s.skipped = [] → c.num = g.cseq ∧ groupFor t grp = some { g with cseq := g.cseq + 1 }) ∧
            (callErr s (some g) x = 0 → fld x 283 280 ≠ 5 → c.err = 0 ∧ c.announced = true ∧
              (t.sent.drop s.sent.length).map (fun q => (q.kind, q.dst)) =
                (((List.range g.size).zip g.nodes).filter (fun q => q.1 ≠ g.rank)).map (fun q => (6, q.2))))))

/-- NWR, NRD and NRED (R309, R310): a type that the instruction does not take and an odd pair trap ILLEGAL; lanes whose offset is
no multiple of the size trap ALIGN, and lanes trap PERM where the handle has no entry, and those whose rank is beyond the group or
whose offset beyond the window, TADDR showing the lowest such lane's offset and TMASK the lanes; with no active lane the slot goes
on. Lanes to other members become one request, its class counted and a read's register pending. Lanes of the device's own rank are
performed in its own window at once, which the device checks as its target (R307): stores in lane order, reads, extended as the
type says where no other member is read, and the combined sums of NRED; where the check fails nothing is written and what is read
is poisoned.
The form of a request in flight is the model's: log 21. -/
def Obligations.RemoteAccesses : Prop :=
  ∀ (s : State) (d a b j : Nat), j < 3 → calm s →
    let et := etOf s
    let w := is64 et
    let i := if j = 0 then Instr.nwr d a b else if j = 1 then .nrd d a b else .nred d a b
    let rd := decide (j = 1)
    let c : Cls := if rd then .ld else .st
    let size : Nat := if w then 8 else if et = 4 ∨ et = 5 ∨ et = 9 ∨ et = 10 then 2 else if et = 6 ∨ et = 7 ∨ et = 11 ∨ et = 12 then 1 else 4
    let typed := (if j = 2 then et ≤ 3 ∨ et = 8 else et ≤ 12) ∧ b % 2 = 0 ∧ (w = true → d % 2 = 0)
    let act := activeLanes s
    let off := fun l => (getV2 s b l).toNat
    let rank := fun l => (getV s a l).toNat
    let x := fun l => rawV s et d l &&& wd (2 ^ (8 * size) - 1)
    let traps := fun (cause : Nat) (l : List Nat) =>
      exec i s = .next (raiseTrap s ⟨cause, pcOf s, getV2 s b (l.headD 0), 0, maskList l⟩)
    ready { vr := a :: b :: (b + 1) :: (if rd then [] else regs w d), vw := if rd then regs w d else [], cls := some c } s = true →
    (¬typed → exec i s = .next (raiseTrap s ⟨ILLEGAL, pcOf s, 0, wd (word0 i), 0⟩)) ∧
    (typed → act = [] → exec i s = .next (advance s)) ∧
    (typed → act.filter (fun l => off l % size ≠ 0) ≠ [] → traps ALIGN (act.filter (fun l => off l % size ≠ 0))) ∧
    (typed → act ≠ [] → (∀ l ∈ act, off l % size = 0) → groupFor s s.cur.k.grp = none → traps PERM act) ∧
    (∀ g, typed → act ≠ [] → (∀ l ∈ act, off l % size = 0) → groupFor s s.cur.k.grp = some g →
      let beyond := fun l => decide (g.size ≤ rank l) || decide (g.winLen < off l + size)
      let own := fun l => decide (g.nodes.getD (rank l) 0 = s.node)
      let acc := fun l => windowAcc s g l size (rank l) (getV2 s b l) (x l)
      let mine := act.filter own
      let ok := devAccept s s.node s.cur.k.jobkey s.cur.k.grp
      let bytes := fun t : State => ∀ k, rdByte t true k =
        afterLanes size (fun old z => if j = 0 then z.data else if j = 1 then old else match fmtOf et with
          | some f => wd (fadd f ⟨0, 0⟩ (elemFV et old) (elemFV et z.data)).code
          | none => wd ((old.toNat + z.data.toNat) % 2 ^ (8 * size)))
          (if j = 2 then wireAccs (.reduce et) (mine.map acc) else mine.map acc) (rdByte s true) k
      (act.filter beyond ≠ [] → traps PERM (act.filter beyond)) ∧
      (act.filter beyond = [] → g.winLen ≤ 2 ^ 44 → (∀ n ∈ g.nodes, n < 240) →
        (∀ l ∈ mine, ownLoc (g.winBase + off l) ∧ (g.winBase + off l) % 32 + size ≤ 32 ∧ rdTags s true (g.winBase + off l) size = none) →
        (mine = [] ∨ ok = true → mine ≠ act →
          ∃ t r, exec i s = .next t ∧ issued s t (one c) ∧ t.reqs = [r] ∧ r.agent = s.cur.id ∧
            r.accs.map (fun z => (z.lane, z.loc, z.size, z.data)) = act.map (fun l =>
              (l, if own l then g.winBase + off l else 6 * 2 ^ 52 + g.nodes.getD (rank l) 0 * 2 ^ 44 + off l, size, x l)) ∧
            (∀ l ∈ mine, rd = true → gotLane r l = some (wd (leNat (rdBytes s true (g.winBase + off l) size)), none)) ∧
            (∀ l ∈ act, own l = false → gotLane r l = none) ∧ (rd = true → ∀ z ∈ regs w d, z ∈ t.cur.vPend) ∧ bytes t ∧
            (∀ v k, (∀ l ∈ mine, ¬(g.winBase + off l ≤ k ∧ k < g.winBase + off l + size)) → rdByte t v k = rdByte s v k)) ∧
        (mine = act → ok = true →
          ∃ t, exec i s = .next t ∧ onlyAdvanced { s with cur := { s.cur with v := t.cur.v } } t ∧ bytes t ∧
            (∀ v k, (∀ l ∈ mine, ¬(g.winBase + off l ≤ k ∧ k < g.winBase + off l + size)) → rdByte t v k = rdByte s v k) ∧
            (∀ m k, k < 64 → rd = false ∨ m ∉ regs w d ∨ k ∉ act → getV t m k = getV s m k) ∧
            (rd = true → ∀ l ∈ act,
              let old : Word := wd (leNat (rdBytes s true (g.winBase + off l) size))
              let sg := et = 0 ∨ et = 2 ∨ et = 4 ∨ et = 6
              (size = 8 → getV2 t d l = old) ∧ (size = 4 → getV t d l = old.setWidth 32) ∧
              (size = 2 → getV t d l = if sg then (old.setWidth 16).signExtend 32 else old.setWidth 32) ∧
              (size = 1 → getV t d l = if sg then (old.setWidth 8).signExtend 32 else old.setWidth 32))) ∧
        (mine = act → ok = false →
          ∃ t, exec i s = .next t ∧ onlyAdvanced s t ∧ sameBytes s t ∧
            (rd = true → t.cur.cntLd = s.cur.cntLd + 1 ∧ ∃ p ∈ (slotOf t).poison, p.vs = regs w d ∧ p.tmask = maskList act))))

/-! ### Events of the trap unit and of memory (04, 05, 25) -/

/-- The answers to faults and the delivery of imprecise traps (R104, R105, R374), each from the state and the data it
brings: the oldest held trap enters its stook's first live sheaf with IMP, its ESEQ kept, or aborts a stook that has none;
FRESP gives its fate to the records before RESP of its context's ring and moves the ring's consumer, and a value outside
the ring's records is discarded; a slot parked at a resolved record goes on and one at a fatal record meets XLATE; the
doorbell is raised again and a failed record write made again after 100 microseconds.
The order of an event's data is the model's, and so is when a slot is at a boundary: logs 21, 44, 52, 83. -/
def Obligations.TrapUnitEvents : Prop :=
  ∀ (s : State),
    let x := fun n => s.inp.a.getD n 0
    (∀ k h r a, findStook s (x 0) = some k → k.held = h :: r → k.abort = none → k.pre.stage ≠ 3 → firstLive s k.id = some a →
      let sec := !a.pri.live
      (getSlot a sec).wait = .ready → a.stopPt = none ∨ a.saving = true → masked a = false → s.halted = false → a.thnd ≠ 0 →
      ∃ t, exec .impreciseTrapDelivery s = .next t ∧ findStook t k.id = some { k with held := r } ∧ sameBytes s t ∧
        ∃ b ∈ allAgents t, b.id = a.id ∧ b.tcause = wd (h.cause + 256) ∧ b.tpc = (getSlot a sec).pc ∧ b.taddr = h.taddr ∧
          b.tinfo = h.tinfo ∧ b.tmask = 0 ∧ b.tseq = h.eseq ∧ masked b = true ∧ b.priv = true ∧ (getSlot b sec).pc = a.thnd ∧
          (getSlot b sec).mask = (getSlot a sec).mask ∧ b.v = a.v ∧ b.s = a.s ∧ b.m = a.m ∧ b.md = a.md) ∧
    (∀ k h r, findStook s (x 0) = some k → k.held = h :: r → k.abort = none → k.pre.stage ≠ 3 → firstLive s k.id = none →
      ∃ t, exec .impreciseTrapDelivery s = .next t ∧ findStook t k.id = some { k with held := r, abort := some h.eseq }) ∧
    (let c := x 0
     let v := wd (x 1)
     let q := ringOf s c
     let resp : BitVec 32 := v.setWidth 32
     let n := (resp - q.fcons).toNat
     ((smGet none s.ctxs c).isNone = true ∨ 2 ^ 33 ≤ v.toNat ∨ (q.fprod - q.fcons).toNat < n → exec .frespWrite s = .next s) ∧
     ((smGet none s.ctxs c).isSome = true → v.toNat < 2 ^ 33 → n ≤ (q.fprod - q.fcons).toNat →
       (∀ f ∈ s.faults, f.ctx = c → f.idx.isSome = true ∨ f.fate ≠ 0) →
       ∃ t, exec .frespWrite s = .next t ∧ ringOf t c = { q with fcons := resp, since := s.time } ∧ sameBytes s t ∧
         t.faults = s.faults.map (fun f => { f with fate :=
           if f.ctx = c ∧ f.fate = 0 ∧ (f.idx.any (fun i => decide ((i - q.fcons).toNat < n))) = true
           then (if 2 ^ 32 ≤ v.toNat then 2 else 1) else f.fate })) ∧
     (q.failing = false ∨ s.time < q.tried + 100000 → exec .faultRingRetry s = .next s) ∧
     (∀ cx f u, smGet none s.ctxs c = some cx → q.failing = true → q.tried + 100000 ≤ s.time →
       s.faults.filter (fun g => g.ctx == c && g.idx.isNone && g.fate == 0) = [f] →
       (q.fprod - q.fcons).toNat < 2 ^ cx.frlog →
       let place := cx.fring + wd (32 * (q.fprod.toNat % 2 ^ cx.frlog))
       ringBar s f.ctx f.core place = none → ringSwitch s f.ctx f.core place = none →
       sysWrite s f.ctx f.core place (faultBytes f) = .ok () u →
       ∃ t, exec .faultRingRetry s = .next t ∧ (ringOf t c).fprod = q.fprod + 1 ∧ (ringOf t c).failing = false ∧
         sameBytes u t ∧ t.msix = (if q.fprod = q.fcons then u.msix ++ [cx.fvec] else u.msix) ∧
         t.faults = u.faults.map (fun g => if g.id = f.id then { g with idx := some q.fprod } else g)) ∧
     (∀ cx, smGet none s.ctxs c = some cx →
       (q.fprod = q.fcons ∨ s.time < q.since + 100000 → exec .faultDoorbellRepeat s = .next s) ∧
       (q.fprod ≠ q.fcons → q.since + 100000 ≤ s.time →
         ∃ t, exec .faultDoorbellRepeat s = .next t ∧ t.msix = s.msix ++ [cx.fvec] ∧ (ringOf t c).since = s.time ∧
           sameBytes s t))) ∧
    (∀ f sec, s.faults.find? (fun g => g.id == x 0) = some f → f.owner = .slot s.cur.id sec → s.cur.kind ≠ .none →
      suspendedAgent s s.cur.id = false →
      (f.fate = 0 → exec .faultReplay s = .next s) ∧
      (f.fate ≠ 0 → ∃ t, exec .faultReplay s = .next t ∧ t.faults = s.faults.filter (fun g => g.id ≠ f.id) ∧ sameBytes s t ∧
        t.cur.s = s.cur.s ∧ t.cur.v = s.cur.v ∧ ∀ e, (getSlot s.cur e).wait = .parked f.id → getSlot t.cur e =
          { getSlot s.cur e with wait := if f.fate = 2 then .fatal f.va f.tinfo f.mask else .ready }))

/-- Completions in memory (R97, R106, R107, R111, R118, R123, R126, R400): a peer's response writes the register that its
load waits for, or leaves a pending POISON trap, its load still counted, with the port pair's tag where the peer refuses, and a deferred store is performed with its
acknowledgement, each completed one less outstanding; the atomic service performs the request at the head of its cluster's queue, the old value going back; a
directory entry that waits for no MMA is released, its page's dirty lines written home and its lines gone from the slice; EPOCH has risen, with its tick, by one for each
65,536 cycles passed, and the service's restart changes nothing.
The order of an event's data is the model's: logs 10, 21, 57. -/
def Obligations.MemoryEvents : Prop :=
  ∀ (s : State), s.cur.kind ≠ .none → s.latent = [] →
    let x := fun n => s.inp.a.getD n 0
    let others := fun (t : State) (r : Req) => t.reqs = s.reqs.filter (fun q => q.id ≠ r.id)
    (∀ r a d, s.reqs.find? (fun q => q.id == x 0) = some r → r.op = .load → r.accs = [a] → r.got = [] → r.agent = s.cur.id →
      r.dest = .sreg d → d ≠ 0 → locClass a.loc = 2 → nodeOf a.loc < 240 → away s r.id (nodeOf a.loc) = true → x 1 ≠ 1 →
      let tag := s.inp.tags.getD 0 0
      ∃ t, exec .memoryResponse s = .next t ∧ others t r ∧ sameBytes s t ∧ t.cur.v = s.cur.v ∧ pcOf t = pcOf s ∧
        (a.pr = false → tag = 0 → t.cur.s = (setS s d (wd (s.inp.data.getD 0 0))).cur.s ∧ t.cur.cntLd = s.cur.cntLd - 1) ∧
        (a.pr = true ∨ tag ≠ 0 → t.cur.s = s.cur.s ∧ t.cur.cntLd = s.cur.cntLd ∧ (getSlot t.cur r.secondary).poison =
          (getSlot s.cur r.secondary).poison ++ [⟨[], [d], a.va, 0,
            if a.pr then 0xD80 else if tag = 2 ^ 13 then lostTag s a.loc else BitVec.ofNat 12 (tag - 1)⟩])) ∧
    (∀ r a, s.reqs.find? (fun q => q.id == x 0) = some r → r.op = .store → r.accs = [a] → r.agent = s.cur.id →
      r.got = [] → s.inp.a.drop 2 = [] ∨ a.lane ∈ s.inp.a.drop 2 → ownLoc a.loc → 1 ≤ a.size → a.size ≤ 8 → a.loc % 32 + a.size ≤ 32 →
      ∃ t, exec .storeAck s = .next t ∧ others t r ∧ t.cur.cntSt = s.cur.cntSt - 1 ∧ sameBytesBut s t a.loc a.size ∧
        rdBytes t a.coh a.loc a.size = leBytes a.size a.data.toNat ∧ t.cur.s = s.cur.s ∧ t.cur.v = s.cur.v) ∧
    (∀ q r a d n, s.atomQ.find? (fun q => q.cluster == x 0) = some q → s.reqs.find? (fun r => r.id == q.req) = some r →
      q.accs = [a] → r.accs = [a] → r.got = [] → r.agent = s.cur.id → r.op = .atomic q.op q.et → n = atSize q.et →
      r.dest = .vreg d n false → a.size = n → ownLoc a.loc → locClass a.loc ≠ 1 → a.loc % 32 + n ≤ 32 → a.pr = false → rdTags s a.coh a.loc n = none →
      let old := wd (leNat (rdBytes s a.coh a.loc n))
      ∃ t, exec .nearAtomicService s = .next t ∧ others t r ∧ t.atomQ = s.atomQ.erase q ∧ t.cur.cntLd = s.cur.cntLd - 1 ∧
        rdBytes t a.coh a.loc n = leBytes n (atNew (atOp q.op) q.et old a.data a.cmp).toNat ∧ sameBytesBut s t a.loc n ∧
        (n = 8 → getV2 t d a.lane = old) ∧ (n = 4 → getV t d a.lane = old.setWidth 32)) ∧
    (∀ p, s.pins.find? (fun p => p.slice == x 0 && p.frame == x 1) = some p →
      (p.going = false ∨ mmaHolds s p.frame = true → exec .pinRelease s = .next s) ∧
      (p.going = true → mmaHolds s p.frame = false → p.frame % 65536 = 0 → p.frame + 65536 ≤ 2 ^ 52 →
        ∃ t, exec .pinRelease s = .next t ∧ p ∉ t.pins ∧ (∀ q ∈ s.pins, q.slice ≠ p.slice ∨ q.frame ≠ p.frame → q ∈ t.pins) ∧
          ∀ v j, rdByte t v j = if p.frame ≤ j ∧ j < p.frame + 65536 then
            (if (smGet none s.cached (j / 32)).any (·.dirty) = true then rdByte s true j else rdByte s false j) else rdByte s v j)) ∧
    (∃ t, exec .epochTick s = .next t ∧ t.epoch = s.epoch + BitVec.ofNat 32 ((s.time - s.epochAt) * s.mhz / 65536000) ∧
      t.cur = s.cur ∧ sameBytes s t) ∧
    exec .atomicServiceRestart s = .next s

/-! ### Engine work (06, 10, 11, 13, 14) -/

/-- One wrong channel is found and corrected (R221, R222). Residues of an integer that its witness allows are judged GOOD, in
every mode. In full range below the threshold, no two exclusions are legitimate where the element is not GOOD, and an element
with exactly one wrong residue is CORR, with that channel and the true value. -/
def Obligations.SingleChannelCorrection : Prop :=
  (∀ (mode : Nat) (v : Int) (w : Nat) (res : List Nat), mode < 3 → inRange mode v = true →
    (w < threshold mode → boundedBy v w = true) → (∀ k ∈ modeChans mode, res.getD k 0 = modN v (modulus k)) →
    judge mode res w = (.good v, false)) ∧
  (∀ (w i j : Nat) (res : List Nat), w < 488 → (∀ k, k < 10 → res.getD k 0 < modulus k) → (∀ v b, judge 0 res w ≠ (.good v, b)) →
    i < 10 → j < 10 → legit 0 (rebuild res ((modeChans 0).filter (· ≠ i))) w = true →
    legit 0 (rebuild res ((modeChans 0).filter (· ≠ j))) w = true → i = j) ∧
  (∀ (v : Int) (w k : Nat) (res : List Nat), w < 488 → legit 0 v w = true → k < 10 →
    (∀ j, j < 10 → j ≠ k → res.getD j 0 = modN v (modulus j)) → res.getD k 0 < modulus k → res.getD k 0 ≠ modN v (modulus k) →
    judge 0 res w = (.corr v k, false))

/-- What an MMA adds (R203 to R205): a term of two elements of integer forms x 2^e and y 2^g adds x y 2^(e + g - F) to the
integer that the residues stand for, in every channel of the mode and in no other; a term below the floor adds nothing and
is counted, one beyond 2^127 saturates the witness, and a zero adds nothing. The order of the terms does not matter. -/
def Obligations.AccumulationIsExact : Prop :=
  ∀ (m : Nat) (f x e y g : Int) (v : Int) (acc : Acum), m < 3 → acc.res.length = 10 →
    (∀ k ∈ modeChans m, acc.res.getD k 0 = modN v (modulus k)) →
    let t := addTerm m f acc (eIn x e) (eIn y g)
    let n := e + g - f
    (x = 0 ∨ y = 0 → t = acc) ∧
    (x ≠ 0 → y ≠ 0 → n < 0 → t = { acc with drops := acc.drops + 1 }) ∧
    (x ≠ 0 → y ≠ 0 → 127 < n → t = { acc with wit := 1023 }) ∧
    (x ≠ 0 → y ≠ 0 → 0 ≤ n → n ≤ 127 → t.wit = acc.wit ∧ t.drops = acc.drops ∧
      ∀ k, k < 10 → t.res.getD k 0 = if k ∈ modeChans m then modN (v + x * y * 2 ^ n.toNat) (modulus k) else acc.res.getD k 0) ∧
    ∀ (a b c d : EIn), addTerm m f (addTerm m f acc a b) c d = addTerm m f (addTerm m f acc c d) a b

/-- The copy engine's events (R131, R134 to R140), for the copy that the event names: a copy at the head of its engine that
fails its checks ends with their code; one row of a plain copy, the one the event chooses or the first that is left, is read
and written, its barrier credited; a landed copy
writes its status word or leaves, its count one less; a follow-on MMA enters the stream or ends the copy with code 8; a
lane of CPL lands its 16 bytes and credits its barrier.
The order of an event's data and of a slice's rows is the model's: logs 21, 26, 92; so is that the follow-on MMA holds the epoch of
its issue: log 65. -/
def Obligations.CopyEvents : Prop :=
  ∀ (s : State), s.reqs = [] → s.asks = [] → s.latent = [] → s.remap = none → s.lost = [] →
    let x := fun n => s.inp.a.getD n 0
    (∀ c y m, s.copies.find? (fun c => c.id == x 0) = some c → c.slices = [y] → c.rows = [m] → c.todo = [] → c.park = none →
      headCopy s c.core = some c →
      (c.checked = false → validate c.slices ≠ 0 → ∃ t, exec .copyExecute s = .next t ∧ sameBytes s t ∧
        ∃ d ∈ t.copies, d.id = c.id ∧ d.err = validate c.slices ∧ d.landed = true) ∧
      (∀ j p q u v, c.checked = true ∨ validate c.slices = 0 → y.conv = 0 → y.rows ≠ 0 → y.rowBytes ≠ 0 → j < y.rows →
        m.testBit j = false → s.inp.a[2]? = some j ∨ (s.inp.a[2]? = none ∧ ∀ i, i < j → m.testBit i = true) →
        c.got = [] → s.inp.data = [] →
        engRange s y.party .rd (y.src + wd (j * y.spitch)) y.rowBytes = .ok [p] u →
        engRange u y.party .wr (y.dst + wd (j * y.dpitch)) y.rowBytes = .ok [q] v →
        p.len = y.rowBytes → q.len = y.rowBytes → locClass p.loc ≠ 2 → ownLoc q.loc → q.loc % 32 + q.len ≤ 32 →
        p.pr = false → rdTags s p.coh p.loc p.len = none →
        let b := barGet s c.core (pbOf y.party.k c.tag)
        ∃ t, exec .copyExecute s = .next t ∧ rdBytes t q.coh q.loc q.len = rdBytes s p.coh p.loc p.len ∧
          (c.toReg = true → sameBytesBut s t q.loc q.len) ∧
          (c.toReg = false → creditFits b y.rowBytes →
            barGet t c.core (pbOf y.party.k c.tag) = credited b y.rowBytes) ∧
          ∃ d ∈ t.copies, d.id = c.id ∧ d.rows = [m ||| 2 ^ j] ∧ d.bytes = c.bytes + y.rowBytes ∧ d.err = c.err ∧
            (d.landed = true ↔ m ||| 2 ^ j = 2 ^ y.rows - 1))) ∧
    (∀ c y, s.copies.find? (fun c => c.id == x 0) = some c → c.slices = [y] → y.party.agent = s.cur.id → s.cur.kind ≠ .none →
      (c.landed = false ∨ (c.err = 0 ∧ c.follow = true) → exec .copyComplete s = .next s) ∧
      (c.landed = true → c.err ≠ 0 ∨ c.follow = false → ∃ t, exec .copyComplete s = .next t ∧
        t.copies = s.copies.filter (fun d => d.id ≠ c.id) ∧ t.cur.cntCp = s.cur.cntCp - 1 ∧ t.cur.v = s.cur.v ∧
        (c.toReg = true → t.eseq = s.eseq + 1 ∧ sameBytes s t ∧ t.cur.s = (setS s c.tag (wd ((s.eseq + 1).toNat % 65536 * 2 ^ 48 +
          min (2 ^ 32 - 1) c.bytes * 2 ^ 16 + c.err * 2 ^ 8 + (if c.pois then 4 else 0) + (if c.err ≠ 0 then 2 else 0) + 1))).cur.s) ∧
        (c.toReg = false → c.err = 0 → t.barriers = s.barriers ∧ t.cur.s = s.cur.s) ∧
        (c.toReg = false → c.err ≠ 0 → (barGet t c.core (pbOf y.party.k c.tag)).err = true ∧ t.cur.s = s.cur.s))) ∧
    (∀ c y, s.copies.find? (fun c => c.id == x 0) = some c → c.first = some y → c.landed = true → c.err = 0 → c.follow = true →
      c.park = none →
      let w := y.mmaw
      let clr := decide (fld w 3 3 = 1)
      (y.party.k.tiles[fld w 24 22]? = none → ∃ t, exec .followOnMma s = .next t ∧ ∃ d ∈ t.copies, d.id = c.id ∧ d.err = 8) ∧
      (∀ pt a b u, y.party.k.tiles[fld w 24 22]? = some pt → clr = true ∨ fld w 2 1 = issuedMode s c.core pt →
        mmaCheck s y.party (fld w 9 7) (fld w 6 4) (fld w 2 1) (wd (fld y.desc.toNat 351 288)) (wd (fld y.desc.toNat 415 352)) =
          .ok a b u →
        ∃ t n, exec .followOnMma s = .next t ∧ sameBytes s t ∧
          t.tileOps = s.tileOps ++
            [⟨n, { y.party with stamp := s.epoch }, y.party.core, pt, .mma clr (fld w 2 1) a b, false, none⟩] ∧
          ∃ d ∈ t.copies, d.id = c.id ∧ d.follow = false)) ∧
    (∀ c a b, s.cpls.find? (fun c => c.id == x 0) = some c → c.lanes = [(a, b)] → c.party.agent = s.cur.id → s.cur.kind ≠ .none →
      locClass a.loc ≠ 2 → ownLoc b.loc → b.loc % 32 + 16 ≤ 32 → a.pr = false → rdTags s a.coh a.loc 16 = none →
      let pb := barGet s c.party.core c.pb
      ∃ t, exec .cplLaneLand s = .next t ∧ rdBytes t b.coh b.loc 16 = rdBytes s a.coh a.loc 16 ∧
        (creditFits pb 16 → barGet t c.party.core c.pb = credited pb 16) ∧
        t.cpls = s.cpls.filter (fun d => d.id ≠ c.id) ∧ t.cur.cntCp = s.cur.cntCp - 1 ∧ t.cur.s = s.cur.s ∧ t.cur.v = s.cur.v)

/-- Tile operations and programs as they run (R199, R211, R213, R214, R219, R228, R263): the next operation of a core's
stream starts; ACLR clears its tile to its floor, CHINJ adds to one residue, MMA counts itself in the tile, keeps its floor
and, with CLR, starts from a cleared tile in its mode; a drain whose elements are all stored, no earlier one of its cluster being unserved, writes its status word; each
leaves the stream with its tile count one less. A forked program starts at its entry with the snapshot, alone on its
sequencer.
The order of an event's data, and when operands are read, are the model's: logs 21, 25, 35, 94. -/
def Obligations.TileAndProgramEvents : Prop :=
  ∀ (s : State), s.reqs = [] → s.asks = [] → s.latent = [] → s.remap = none →
    let x := fun n => s.inp.a.getD n 0
    let tile := fun t o => tileGet t (TileOp.core o) (TileOp.tile o)
    let ends := fun (t : State) (o : TileOp) => t.tileOps = s.tileOps.filter (fun q => q.id ≠ o.id) ∧
      t.cur.cntTl = s.cur.cntTl - 1 ∧ t.cur.v = s.cur.v ∧ sameBytes s t
    let others := fun (t : State) (o : TileOp) => ∀ k, k ≠ o.core * 8 + o.tile → smGet (Tile.clear 0) t.tiles k = smGet (Tile.clear 0) s.tiles k
    (∀ o, s.tileOps = [o] → o.started = false → o.core = x 0 →
      ∃ t k, exec .tileOpStart s = .next t ∧ t.tileOps = [{ o with started := true, kind := k }] ∧ sameBytes s t ∧ t.cur = s.cur ∧
        ((∀ c g a b, o.kind ≠ .mma c g a b) → k = o.kind)) ∧
    (∀ o, startedOp s (x 0) = some o → o.party.agent = s.cur.id → s.cur.kind ≠ .none →
      (∀ f, o.kind = .aclr f → ∃ t, exec .aclrComplete s = .next t ∧ ends t o ∧ t.cur.s = s.cur.s ∧ others t o ∧
        tile t o = Tile.clear f) ∧
      (∀ c e n, o.kind = .chinj c e n → c < 10 → (smGet Elem.zero (tile s o).elems e).res.length = 10 →
        ∃ t, exec .chinjComplete s = .next t ∧ ends t o ∧ t.cur.s = s.cur.s ∧ others t o ∧
          (smGet Elem.zero (tile t o).elems e).res.getD c 0 = ((smGet Elem.zero (tile s o).elems e).res.getD c 0 + n) % modulus c ∧
          (∀ k, k ≠ e → smGet Elem.zero (tile t o).elems k = smGet Elem.zero (tile s o).elems k)) ∧
      (∀ clr g a b, o.kind = .mma clr g a b → ∃ t, exec .mmaComplete s = .next t ∧ ends t o ∧ t.cur.s = s.cur.s ∧ others t o ∧
        (tile t o).floor = (tile s o).floor ∧ (tile t o).mode = (if clr then g else (tile s o).mode) ∧
        (tile t o).mmas = min 65535 ((if clr then 0 else (tile s o).mmas) + 1) ∧
        (clr = false → (tile s o).poison = true → (tile t o).poison = true)) ∧
      (∀ dst fmt bx sb e d, o.kind = .adrn dst fmt bx sb e d → o.park = none → thresherBusy s o = false → 4096 ≤ d.next → d.todo = [] → d.dies = [] → d.unc = 0 →
        d.rng = 0 → d.out = none → fmt ≠ 7 → fmt ≠ 8 → ∃ t, exec .adrnComplete s = .next t ∧ ends t o ∧ t.tiles = s.tiles ∧
          t.eseq = s.eseq + 1 ∧ t.cur.s = (setS s sb (wd (d.corr * 2 ^ 35 + (if d.bnd then 2 ^ 8 else 0) +
            (if d.pois then 2 ^ 7 else 0) + (if d.nan then 2 ^ 6 else 0) + d.ecode * 4 + (if d.ecode ≠ 0 then 2 else 0) + 1))).cur.s)) ∧
    (∀ f k, s.forkQ.find? (fun f => f.core == x 0 && f.mat == decide (x 1 = 0)) = some f → seqBusy s (x 0) (decide (x 1 = 0)) = false →
      findStook s f.stook = some k → k.abort = none → k.pre.stage ≠ 3 → s.halted = false →
      ∃ t g, exec .sequencerStart s = .next t ∧ t.forkQ = s.forkQ.erase f ∧ t.agents = s.agents ++ [g] ∧ sameBytes s t ∧
        g.kind = (if f.mat then .matSeq else .copySeq) ∧ g.pri.live = true ∧ g.pri.pc = f.entry ∧ g.s = f.s ∧ g.md = f.md ∧
        g.srkey = f.srkey ∧ g.srseq = f.srseq ∧ g.priv = f.priv ∧ g.forker = f.by_ ∧ g.stook = f.stook ∧ g.core = f.core ∧
        g.k = k.k ∧ g.ended = false ∧ g.sec.live = false)

/-- Sketch work as it runs (R242, R244, R245): a counter takes its step, saturated at its limit, which sets SATF; a query whose
counters are read writes the middle of its lane's signed counters; a counter of SKCLR becomes zero and one of SKDEC loses
its shifted part, crediting the barrier, and the last step of SKCLR clears SATF and ends the operation.
The order of an event's data and of the counters is the model's, and poisoned counters are a reading: logs 21, 28, 30. -/
def Obligations.SketchEvents : Prop :=
  ∀ (s : State), s.asks = [] → s.latent = [] → s.remap = none → s.lost = [] → s.cur.kind ≠ .none →
    let x := fun n => s.inp.a.getD n 0
    let val := fun (t : State) (a : Acc) => sx (8 * a.size) (leNat (rdBytes t a.coh a.loc a.size))
    (∀ r a wide satf coh, s.reqs.find? (fun r => r.id == x 0) = some r → r.op = .sketch wide satf coh → r.accs = [a] →
      r.got = [] → r.agent = s.cur.id → a.size = (if wide then 4 else 2) → ownLoc a.loc → a.loc % 32 + a.size ≤ 32 →
      a.pr = false → rdTag s a.coh a.loc = none → ownLoc (satf + 10) → satf % 32 = 0 →
      ¬(a.loc ≤ satf + 10 ∧ satf + 10 < a.loc + a.size) →
      let lim : Int := if wide then 2 ^ 31 - 1 else 2 ^ 15 - 1
      let v := val s a + a.data.toInt
      ∃ t, exec .sketchCounterStep s = .next t ∧ t.reqs = s.reqs.filter (fun q => q.id ≠ r.id) ∧
        t.cur.cntSt = s.cur.cntSt - 1 ∧ t.cur.s = s.cur.s ∧ t.cur.v = s.cur.v ∧ val t a = max (-lim) (min lim v) ∧
        (-lim ≤ v → v ≤ lim → sameBytesBut s t a.loc a.size) ∧
        (v < -lim ∨ lim < v → rdByte t coh (satf + 10) = rdByte s coh (satf + 10) ||| 0x20)) ∧
    (∀ r a b c rm key seq vd lane, s.reqs.find? (fun r => r.id == x 0) = some r → r.op = .query 3 0 0 rm key seq →
      r.dest = .vreg vd 4 false → r.accs = [a, b, c] → r.got = [] → r.agent = s.cur.id → x 1 = 0 → lane < 64 →
      (∀ z ∈ [a, b, c], (z.size = 2 ∨ z.size = 4) ∧ locClass z.loc ≠ 2 ∧ locClass z.loc ≠ 6 ∧ z.pr = false ∧
        rdTags s z.coh z.loc z.size = none) →
      a.lane = lane * 8 → b.lane = lane * 8 + 1 → c.lane = lane * 8 + 2 →
      let est := fun (z : Acc) => if z.data = 0 then val s z else -(val s z)
      ∃ t m, exec .skqryResponse s = .next t ∧ t.reqs = s.reqs.filter (fun q => q.id ≠ r.id) ∧ t.cur.cntLd = s.cur.cntLd - 1 ∧
        sameBytes s t ∧ t.cur.s = s.cur.s ∧ getV t vd lane = BitVec.ofInt 32 (max (-2 ^ 31) (min (2 ^ 31 - 1) m)) ∧
        m ∈ [est a, est b, est c] ∧ 2 ≤ ([est a, est b, est c].filter (fun e => decide (e ≤ m))).length ∧
        2 ≤ ([est a, est b, est c].filter (fun e => decide (m ≤ e))).length) ∧
    (∀ o p u, s.skops.find? (fun o => o.id == x 0) = some o → s.reqs = [] → o.park = none → o.flight = false → o.done < o.dst.count → o.src = none → o.f = 1 ∨ o.f = 2 →
      engPiece s o.party .at (o.dst.base + wd (o.done * o.dst.size)) o.dst.size = .ok p u → skHome p.loc p.coh = true →
      ownLoc p.loc → p.loc % 32 + o.dst.size ≤ 32 → p.pr = false → rdTag s p.coh p.loc = none →
      o.party.agent = s.cur.id → ownLoc (o.dst.loc + 10) → o.dst.loc % 32 = 0 →
      ¬(p.loc ≤ o.dst.loc + 10 ∧ o.dst.loc + 10 < p.loc + o.dst.size) →
      let c := counterAt s p.coh p.loc o.dst.size
      let b := barGet s o.party.core o.pb
      ∃ t, exec .skopCounterStep s = .next t ∧
        counterAt t p.coh p.loc o.dst.size = (if o.f = 1 then 0 else c - c / 2 ^ o.k) ∧
        (creditFits b o.dst.size → barGet t o.party.core o.pb = credited b o.dst.size) ∧
        (o.done + 1 ≠ o.dst.count → ∃ q ∈ t.skops, q.id = o.id ∧ q.done = o.done + 1) ∧
        (o.done + 1 = o.dst.count → t.skops = s.skops.filter (fun q => q.id ≠ o.id) ∧ t.cur.cntCp = s.cur.cntCp - 1 ∧
          (o.f = 1 → rdByte t o.dst.coh (o.dst.loc + 10) = rdByte s o.dst.coh (o.dst.loc + 10) &&& 0xDF)))

/-! ### Reliability and the links (11, 17, 21, 26) -/

/-- Events of the error policy (R229, R230, R392, R395 to R397): a read bank is cleared and its generation rises; a window's
end clears its unit's counts; a row-group or a wavelength whose count has reached LIMIT is retired with a record; a die
declared lasting starts the remap of its channel to the free spare, or is logged where there is none; the remap's end gives
the channel the spare, every access in flight its new place, and every consistent element its true residue there, or holds
matrix issue and leaves the residues where its check failed.
The order of an event's data is the model's; acknowledgement, windows and the records' ADDR are readings, and so is
what a remap does to the accesses in flight and to a channel whose check failed: logs 7, 21, 45, 79, 86, 87, 108. -/
def Obligations.ReliabilityEvents : Prop :=
  ∀ (s : State),
    let x := fun n => s.inp.a.getD n 0
    let bank := fun t u => smGet Bank.empty (State.banks t) u
    let counted := fun (t : State) (u kind sev : Nat) => (bank t u).count = satInc (bank s u).count ∧
      ((bank s u).sev < sev → (bank t u).kind = kind ∧ (bank t u).sev = sev ∧ (bank t u).reseq = s.eseq + 1) ∧ t.eseq = s.eseq + 1
    let tile := fun t n => smGet (Tile.clear 0) (State.tiles t) n
    (let u := x 0
     (127 < u ∨ (108 ≤ u ∧ u ≤ 111) → exec .bankAcknowledge s = .next s) ∧
     (u ≤ 127 → ¬(108 ≤ u ∧ u ≤ 111) → ∃ t, exec .bankAcknowledge s = .next t ∧ t.cur = s.cur ∧ sameBytes s t ∧
       bank t u = { bank s u with count := 0, ovf := 0, sev := 0, gen := (bank s u).gen + 1 } ∧ ∀ v, v ≠ u → bank t v = bank s v) ∧
     (let len := fld (smGet 0 s.wcfg u).toNat 63 32 * 1000000
      (len = 0 ∨ s.time < smGet 0 s.winAt u + len → exec .errorWindowBoundary s = .next s) ∧
      (0 < len → smGet 0 s.winAt u + len ≤ s.time → ∃ t, exec .errorWindowBoundary s = .next t ∧ t.cur = s.cur ∧ sameBytes s t ∧
        (∀ p ∈ t.rowWin, p.1 / 2 ^ 40 ≠ u) ∧ (96 ≤ u → u ≤ 106 → smGet 0 t.dieWin (u - 96) = 0) ∧
        smGet 0 t.winAt u ≤ s.time ∧ s.time < smGet 0 t.winAt u + len)) ∧
     (let key := u * 2 ^ 40 + x 1 % 2 ^ 40
      let limit := fld (smGet 0 s.wcfg u).toNat 15 0
      (31 < u ∨ key ∈ s.rowRetired ∨ limit = 0 ∨ winCount s u key < limit → exec .rowGroupRetire s = .next s) ∧
      (u ≤ 31 → key ∉ s.rowRetired → limit ≠ 0 → limit ≤ winCount s u key → ∃ t, exec .rowGroupRetire s = .next t ∧
        t.rowRetired = key :: s.rowRetired ∧ counted t u 3 1 ∧ t.cur = s.cur ∧ sameBytes s t))) ∧
    (let p := x 0
     let k := x 1
     let u := 112 + p / 2
     let limit := fld (smGet 0 s.wcfg u).toNat 15 0
     let key := retrainKey p k
    let n := winCount s u key
    (key ∈ s.rowRetired ∨ 8 ≤ k ∨ limit = 0 ∨ n < limit → exec .wavelengthRetire s = .next s) ∧
    (p < 32 → key ∉ s.rowRetired → k < 8 → limit ≠ 0 → limit ≤ n →
      ((portGet s p).retired ||| wl k ≠ 0xFF → ∃ t, exec .wavelengthRetire s = .next t ∧ counted t u 3 1 ∧ t.cur = s.cur ∧
        t.rowRetired = key :: s.rowRetired ∧ (portGet t p).retired = (portGet s p).retired ||| wl k ∧
        (portGet t p).active.getLsbD k = false) ∧
      ((portGet s p).retired ||| wl k = 0xFF → ∃ t, exec .wavelengthRetire s = .next t ∧ (portGet t p).st = 0))) ∧
    (dieDeclared s (x 0) = false ∨ s.remap.isSome = true → exec .dieLastingFault s = .next s) ∧
    (∀ k, dieDeclared s (x 0) = true → s.remap = none → (List.range 10).find? (fun k => s.chmap.getD k 0 == x 0) = some k →
      (s.chmap.getD 10 15 ≠ 15 → exec .dieLastingFault s = .next { s with remap := some ⟨k, x 0, false⟩ }) ∧
      (s.chmap.getD 10 15 = 15 → x 0 < 11 → ∃ t, exec .dieLastingFault s = .next t ∧ t.remap = none ∧ t.chmap = s.chmap ∧
        counted t (96 + x 0) 4 3 ∧ dieDeclared t (x 0) = false)) ∧
    (∀ r, s.remap = some r → r.held = false → (∀ o ∈ s.tileOps, o.started = false) →
      (∀ c ∈ s.copies, c.todo = []) → (∀ c ∈ s.calls, c.todo = []) →
      (x 0 = 0 → ∃ t, exec .remapComplete s = .next t ∧ t.remap = some { r with held := true } ∧ t.chmap = s.chmap ∧
        (smWf (Tile.clear 0) s.tiles = true → ∀ n, (tile t n).elems = (tile s n).elems)) ∧
      (x 0 ≠ 0 → r.old < 11 → ∃ t, exec .remapComplete s = .next t ∧ t.remap = none ∧ t.cur = s.cur ∧
        t.chmap = (s.chmap.set r.ch (s.chmap.getD 10 15)).set 10 15 ∧
        t.reqs.map (fun q => (q.id, q.accs.map (fun a => a.loc))) = s.reqs.map (fun q => (q.id, q.accs.map (fun a =>
          if a.loc / 2 ^ 52 = 4 ∧ (a.loc - 4 * 2 ^ 52) / 2 ^ 18 % 11 = r.old
          then a.loc + s.chmap.getD 10 15 * 2 ^ 18 - r.old * 2 ^ 18 else a.loc))) ∧ (bank t (96 + r.old)).count = satInc (bank s (96 + r.old)).count ∧
        (smWf (Tile.clear 0) s.tiles = true → ∀ n e v, smWf Elem.zero (tile s n).elems = true → (tile s n).mode < 3 →
          (smGet Elem.zero (tile s n).elems e).res.length = 10 → r.ch ∈ modeChans (tile s n).mode → inRange (tile s n).mode v = true →
          (∀ c ∈ modeChans (tile s n).mode, c ≠ r.ch → (smGet Elem.zero (tile s n).elems e).res.getD c 0 = modN v (modulus c)) →
          (smGet Elem.zero (tile t n).elems e).res.getD r.ch 0 = modN v (modulus r.ch))))

/-- Events of a port and of device time (R288 to R293, R297 to R300, R320 to R322, R332 to R335): the 256 bytes of the flit
that starts at a boundary, WAKE where auto-wake begins, else a resend, a control flit, data, or idle, and the masks it moves;
how a flit that comes is decoded, counted, taken in its order, passed over, or discarded and asked for again; what RETRY, RETRAIN, the two ends' training sets,
PARKSET, WAKE and ALIGNED change, and that a port that goes down completes what waited on it; thresholds, windows and time
limits of training; and the correction of device time for the skew of the one beacon that came.
The order of an event's data is the model's; held counts, untrained wavelengths, flit counts, packing and the layout of
packets are readings, and so are the roots of the check symbols: logs 21, 38, 39, 40, 41, 76, 77, 95, 96. -/
def Obligations.LinkEvents : Prop :=
  ∀ (s : State), s.halted = false →
    let x := fun n => s.inp.a.getD n 0
    let p := x 0
    let P := portGet s p
    let on := fun (i : Instr) (f : Port → Prop) => ∃ t, exec i s = .next t ∧ t.cur = s.cur ∧ sameBytes s t ∧
      (∀ q, q ≠ p → portGet t q = portGet s q) ∧ f (portGet t p)
    let is := fun (y z : Port) => z = y
    let k := x 1
    let m := BitVec.ofNat 8 k
    let parked := P.parked
    let wakes := fun (w : BitVec 8) (m : BitVec 8) (z : Port) => z.park = P.park &&& ~~~m ∧ z.peerPark = P.peerPark &&& ~~~m ∧
      z.waking = P.waking ||| (w &&& m)
    let ctl := fun (code : Nat) (body : List Nat) => (⟨0, 0, 0, 2, 0, 0, code, false, body, []⟩ : Flit)
    let sends := fun (seq : Nat) (f : Flit) (z : Port) =>
      z.line = Flit.bytes { f with
        seq := seq, ack := (P.rxSeq + 4095) % 4096, nmask := z.txNext.toNat, crq := min 255 P.owed.1, crs := min 255 P.owed.2 } ∧
      z.txMask = P.txNext ∧ z.txCount = P.txCount + 1 ∧
      z.owed = (P.owed.1 - min 255 P.owed.1, P.owed.2 - min 255 P.owed.2)
    let next := fun (z : Port) => z.txSeq = (P.txSeq + 1) % 4096
    let depth := depthOf s p P
    let due := P.ctl.getLsbD 2 = true ∧ P.qthr.toNat < depth ∧ P.park ||| P.peerPark ≠ 0
    let flit := decodeFlit (((s.inp.data.map (· % 256)) ++ List.replicate 256 0).take 256)
    let hdr := fun (b : List Nat) => (List.range 8).foldr (fun j n => 256 * n + b.getD j 0) 0
    let u := 112 + p / 2
    let limit := fld (smGet 0 s.wcfg u).toNat 15 0
    let retrains := fun (j : Nat) => winCount s u (retrainKey p j)
    let room := limit = 0 ∨ ∀ j, j < 8 → retrains j + 1 < limit
    let window := 7 * s.time / 2 ^ 28
    let whole := { P with st := 1, full := true, training := ~~~P.retired, waking := 0, txMask := 0, txNext := 0, rxMask := 0,
                          rxNext := 0, own := none, theirs := none, trainAt := [(8, s.time)],
                          rtk := (if P.full then P.rtk else P.training) ||| wl k, ctlq := P.ctlq.filter (fun f => f.code ≠ 2) }
    let drop := if P.active = wl k then whole
      else { P with training := P.training ||| wl k, trainAt := (k, s.time) :: P.trainAt.filter (fun t => t.1 ≠ k),
                    ctlq := P.ctlq.filter (fun f => f.code ≠ 2 || f.body ≠ [k]) }
    let dead := fun (i : Instr) => (∃ t, exec i s = .next t ∧ (portGet t p).st = 0 ∧ (portGet t p).active = 0 ∧ sameBytes s t) ∧
      ∀ r a d, s.reqs = [r] → s.xmems = [] → r.op = .load → r.accs = [a] → r.got = [] → locClass a.loc = 2 → portAt s a.loc = p →
        r.agent = s.cur.id → s.cur.kind ≠ .none → r.dest = .sreg d → d ≠ 0 →
        ∃ t, exec i s = .next t ∧ t.reqs = [] ∧ t.cur.s = s.cur.s ∧
          (getSlot t.cur r.secondary).poison.length = (getSlot s.cur r.secondary).poison.length + 1
    -- what is sent
    (32 ≤ p → exec .flitBoundary s = .next { s with sent := s.sent.eraseP (fun q => q.port = p) }) ∧
    (p < 32 → P.st ≠ 2 → ¬(P.st = 1 ∧ ∃ c ∈ P.ctlq, c.code = 3) → exec .flitBoundary s = .next s) ∧
    (∀ l c r, p < 32 → P.st = 1 → P.ctlq = l ++ c :: r → (∀ d ∈ l, d.code ≠ 3) → c.code = 3 → on .flitBoundary (fun z =>
      z.ctlq = l ++ r ∧ next z ∧ z.st = 1 ∧
      z.line = Flit.bytes { c with seq := P.txSeq, ack := (P.rxSeq + 4095) % 4096, nmask := P.txNext.toNat,
                                   crq := min 255 P.owed.1, crs := min 255 P.owed.2 })) ∧
    (p < 32 → P.st = 2 → P.full = false →
      (due → on .flitBoundary (fun z => sends P.txSeq (ctl 5 [(P.park ||| P.peerPark).toNat]) z ∧ next z ∧
        wakes parked 0xFF z ∧ (P.resend = [] → z.resend = []) ∧ z.ctlq = P.ctlq)) ∧
      (¬due →
        (∀ f r, P.resend = f :: r → on .flitBoundary (fun z =>
          z.line = Flit.bytes { f with ack := (P.rxSeq + 4095) % 4096, nmask := z.txNext.toNat } ∧ z.txMask = P.txNext ∧
          z.txCount = P.txCount + 1 ∧ z.owed = P.owed ∧ z.resend = r ∧ z.txSeq = P.txSeq ∧ z.txNext = P.active ∧
          z.parkReq = P.parkReq &&& P.waking ∧ z.ctlq = P.ctlq ∧ z.fecUnc = P.fecUnc + 1)) ∧
        (∀ c r, P.resend = [] → P.ctlq = c :: r → c.code ≠ 2 → on .flitBoundary (fun z => sends P.txSeq c z ∧ z.ctlq = r ∧
          next z ∧ z.txNext = P.active ∧ z.parkReq = P.parkReq &&& P.waking)) ∧
        (∀ c r j, P.resend = [] → P.ctlq = c :: r → c.code = 2 → c.body = [j] → j < 8 → P.active.getLsbD j = true →
          (P.active ≠ wl j → on .flitBoundary (fun z => sends P.txSeq c z ∧ next z ∧
            z.ctlq = r.filter (fun f => f.code ≠ 2 || f.body ≠ [j]) ∧
            z.training = P.training ||| wl j ∧ z.txNext = P.active &&& ~~~(wl j))) ∧
          (P.active = wl j → on .flitBoundary (fun z => next z ∧ z.st = 1 ∧ z.full = true ∧ z.training = ~~~P.retired ∧
            z.rtk = P.training ||| wl j ∧ z.txMask = 0 ∧ z.txNext = 0 ∧ z.ctlq = r.filter (fun f => f.code ≠ 2)))) ∧
        (P.resend = [] → P.ctlq = [] →
          (∀ q at_, P.carry = some (q, at_) → p < 16 →
            let n := min 232 (q.size - at_)
            let l := fitting (232 - n) (queueFor s p (decide (q.kind = 5)))
            on .flitBoundary (fun z =>
              sends P.txSeq ⟨0, 0, 0, 1, 0, 0, if l = [] then 31 else n / 8, decide (q.kind = 5), [at_], q :: l⟩ z ∧ next z ∧
              z.txNext = P.active ∧ z.credits = P.credits ∧ z.carry = (if at_ + n < q.size then some (q, at_ + n) else none)) ∧
            ∃ t, exec .flitBoundary s = .next t ∧ t.sent = l.foldl (fun w y => w.erase y) s.sent) ∧
          (P.carry = none →
            (queueFor s p false = [] → queueFor s p true = [] → on .flitBoundary (fun z =>
              sends P.txSeq ⟨0, 0, 0, 0, 0, 0, 0, false, [], []⟩ z ∧ next z ∧ z.txNext = P.active)) ∧
            (∀ q r, let vc := decide (k = 1)
              let c := if vc then P.credits.2 else P.credits.1
              queueFor s p vc = q :: r → 1 ≤ q.size → q.size ≤ 232 → 1 ≤ c →
              let l := q :: fitting (232 - q.size) r
              on .flitBoundary (fun z => sends P.txSeq ⟨0, 0, 0, 1, 0, 0, 0, vc, [0], l⟩ z ∧ next z ∧ z.txNext = P.active ∧
                z.credits = (if vc then (P.credits.1, c - 1) else (c - 1, P.credits.2))) ∧
              ∃ t, exec .flitBoundary s = .next t ∧ t.sent = l.foldl (fun w y => w.erase y) s.sent))))) ∧
    -- what is received
    (window ≤ P.berAt →
      (flit = none → on .flitReceive (fun z => z.rxSeq = P.rxSeq ∧ z.ctlq = P.ctlq ++ [ctl 1 [P.rxSeq % 256, P.rxSeq / 256 % 256]] ∧
        z.rxMask = P.rxNext ∧ z.rxNext = P.rxNext ∧ z.fecCor = P.fecCor ∧ (P.ber.length = 8 → ∀ j, j < 8 → z.ber.getD j 0 =
          if P.rxNext.getLsbD j then min (2 ^ 32 - 1) (P.ber.getD j 0 + 32) else P.ber.getD j 0))) ∧
      (∀ b, flit = some (b, []) →
        (fld (hdr b) 63 52 = P.rxSeq → fld (hdr b) 31 28 ≤ 1 → on .flitReceive (is { P with
          rxSeq := (P.rxSeq + 1) % 4096, rxCount := P.rxCount + 1, rxMask := P.rxNext,
          rxNext := BitVec.ofNat 8 (fld (hdr b) 39 32), peerAck := fld (hdr b) 51 40,
          credits := (P.credits.1 + fld (hdr b) 27 20, P.credits.2 + fld (hdr b) 19 12),
          owed := if fld (hdr b) 31 28 = 1 then (if fld (hdr b) 6 6 = 1 then (P.owed.1, P.owed.2 + 1) else (P.owed.1 + 1, P.owed.2))
            else P.owed })) ∧
        (fld (hdr b) 63 52 ≠ P.rxSeq → on .flitReceive (is { P with
          rxMask := P.rxNext, rxNext := BitVec.ofNat 8 (fld (hdr b) 39 32) }))) ∧
      (∀ b i w, flit = some (b, [i]) → (wls P.rxNext)[i / 32 % (wls P.rxNext).length]? = some w → P.ber.length = 8 →
        fld (hdr b) 63 52 ≠ P.rxSeq ∨ fld (hdr b) 31 28 ≤ 1 → on .flitReceive (fun z => z.fecCor = P.fecCor + 1 ∧ z.rxMask = P.rxNext ∧
          ∀ j, j < 8 → z.ber.getD j 0 = if j = w then min (2 ^ 32 - 1) (P.ber.getD j 0 + 1) else P.ber.getD j 0)) ∧
      (P.active.getLsbD k = true → asksRetrain P k = false → P.thr.toNat ≤ P.ber.getD k 0 →
        on .berThreshold (is { P with ctlq := P.ctlq ++ [ctl 2 [k]] })) ∧
      (P.ber.getD k 0 < P.thr.toNat ∨ asksRetrain P k = true ∨ P.active.getLsbD k = false → exec .berThreshold s = .next s) ∧
      on .berWindow (is P)) ∧
    (P.berAt < window →
      on .berWindow (fun z => z.berAt = window ∧
        ∀ j, j < 8 → z.ber.getD j 0 = if (P.training ||| P.parked).getLsbD j then P.ber.getD j 0 else 0)) ∧
    (∀ f g r, P.history = g :: f :: r → f.seq = k → g.seq ≠ k → (∀ t ∈ P.tries, t.1 ≠ k) →
      on .retry (fun z => z.resend = [f, g] ∧ z.tries.head? = some (k, 1))) ∧
    ((∀ f ∈ P.history, f.seq ≠ k) → exec .retry s = .next s) ∧
    (∀ n, (∃ f ∈ P.history, f.seq = k) → P.tries.find? (fun t => t.1 == k) = some (k, n) → 16 ≤ n → dead .retry) ∧
    (P.active.getLsbD k = true → on .retrain (is drop)) ∧
    (P.active.getLsbD k = false → on .retrain (is P)) ∧
    -- training
    (P.training = 0 → exec .traindone s = .next s) ∧
    (P.training ≠ 0 →
      let map := (List.range 8).map (fun j => s.inp.data.getD j 0xFF % 256)
      let d := crc32c ([x 2 % 256] ++ map ++ [x 3])
      let both := fun (a : TrainSet) => P.training &&& a.mask &&& BitVec.ofNat 8 (x 2)
      (k = 0 → P.theirs = none → on .traindone (fun z => z.own = some ⟨d, BitVec.ofNat 8 (x 2), map, x 3⟩ ∧ z.fibre = x 4 ∧
        z.st = P.st ∧ z.training = P.training ∧
        z.ctlq = P.ctlq ++ [ctl 3 ([d % 256, d / 256 % 256, d / 2 ^ 16 % 256, d / 2 ^ 24 % 256] ++ [x 2 % 256] ++ map ++ [x 3])])) ∧
      (∀ a, k ≠ 0 → P.own = some a →
        let left := (P.retired &&& ~~~(P.training &&& a.mask)) ||| (P.training &&& ~~~a.mask)
        (P.full = true → x 4 = a.digest → left ≠ 0xFF → room → on .traindone (fun z => z.st = 2 ∧ z.training = 0 ∧ z.full = false ∧
          z.speed = a.speed ∧ z.txMask = z.active ∧ z.rxMask = z.active ∧ z.retired = left)) ∧
        (P.full = true → x 4 = a.digest → left = 0xFF → dead .traindone) ∧
        (P.full = true → x 4 ≠ a.digest → on .traindone (fun z => z.st = P.st ∧ z.full = true ∧ z.training = both a ∧
          z.speed = max a.speed (x 3) ∧ z.retired = P.retired ||| (P.training &&& ~~~(both a)))) ∧
        (P.full = false → x 4 = a.digest → P.rtcnt.length = 8 → P.ber.length = 8 → room → on .traindone (fun z => z.st = P.st ∧
          z.training = P.training &&& ~~~(both a) ∧ z.lastFail = false ∧ z.retired = P.retired ∧ ∀ j, j < 8 →
            (both a).getLsbD j = true → z.rtcnt.getD j 0 = min 255 (P.rtcnt.getD j 0 + 1) ∧ z.ber.getD j 0 = 0)) ∧
        (∀ j, P.full = false → x 4 = a.digest → j < 8 → both a = wl j → limit ≠ 0 → limit ≤ retrains j + 1 →
          retrainKey p j ∉ (rollWin s u).rowRetired → P.retired ||| wl j ≠ 0xFF → on .traindone (fun z =>
            z.training = P.training &&& ~~~(wl j) ∧ z.retired = P.retired ||| wl j)))) ∧
    (let late := fun (j : Nat) => ∃ t ∈ P.trainAt, t.1 = j ∧ t.2 + 100000 < s.time
     (P.full = false → P.training.getLsbD k = false ∨ ¬late k → exec .trainingTimeout s = .next s) ∧
     (P.full = true → ¬late 8 → exec .trainingTimeout s = .next s) ∧
     (P.full = false → P.training.getLsbD k = true → late k → k < 8 →
       (failCount P k < 2 → on .trainingTimeout (fun z => failCount z k = failCount P k + 1 ∧ z.training = P.training ∧
         z.retired = P.retired)) ∧
       (2 ≤ failCount P k → P.retired ||| wl k ≠ 0xFF → on .trainingTimeout (fun z => z.retired = P.retired ||| wl k ∧
         z.training = P.training &&& ~~~(wl k) ∧ z.lastFail = true))) ∧
     (P.full = true → late 8 → 2 ≤ failCount P 8 → dead .trainingTimeout)) ∧
    -- parking
    on .parkset (fun z => z.peerPark = m ∧ z.park = P.park ∧ z.waking = P.waking ∧
      z.parkReq = P.parkReq ||| (m &&& ~~~P.peerPark &&& P.waking)) ∧
    on .wake (wakes parked m) ∧
    on .aligned (is { P with peerAligned := P.peerAligned ||| (m &&& P.waking) }) ∧
    (P.waking &&& ~~~P.selfAligned = 0 → on .wakeComplete (fun z => z.ctlq = P.ctlq ∧
      z.waking = P.waking &&& ~~~(P.waking &&& P.peerAligned))) ∧
    (P.waking &&& ~~~P.selfAligned ≠ 0 → on .wakeComplete (fun z => z.ctlq = P.ctlq ++ [ctl 6 [P.waking.toNat]] ∧
      z.waking = P.waking &&& ~~~P.peerAligned)) ∧
    -- device time
    (p < 16 ∨ 32 ≤ p ∨ P.st ≠ 2 → exec .beacon s = .next s) ∧
    (16 ≤ p → p < 32 → P.st = 2 → (∀ q, 16 ≤ q → q < 32 → q ≠ p → (portGet s q).st ≠ 2) →
      let σ : Int := (s.time : Int) - ((x 1 + P.fibre : Nat) : Int)
      let far := (widthNs s.grat : Int) < max σ (-σ)
      let bank := fun (t : State) => smGet Bank.empty t.banks (112 + p / 2)
      ∃ t, exec .beacon s = .next t ∧ t.cur = s.cur ∧ sameBytes s t ∧ (portGet t p).skew = some σ ∧
        (s.sync = 0 → t.sync = 1 ∧ t.time = s.time + (-σ).toNat) ∧
        (s.sync = 1 → ¬far → t.sync = 1 ∧
          (max σ (-σ) ≤ 400 → t.slew = σ ∧ t.hold = 0 ∧ t.time = s.time) ∧
          (σ < -400 → t.time = s.time + (-σ).toNat ∧ t.slew = 0 ∧ t.hold = 0) ∧
          (400 < σ → t.time = s.time ∧ t.hold = σ.toNat ∧ t.slew = 0)) ∧
        (s.sync = 1 → far → t.sync = 2 ∧ t.goodSkews = 0 ∧ t.time = s.time ∧ (bank t).count = satInc (bank s).count) ∧
        (s.sync = 2 → far → t.sync = 2 ∧ t.goodSkews = 0 ∧ t.time = s.time) ∧
        (s.sync = 2 → ¬far → s.goodSkews < 3 → t.sync = 2 ∧ t.goodSkews = s.goodSkews + 1 ∧ t.time = s.time) ∧
        (s.sync = 2 → ¬far → 3 ≤ s.goodSkews → t.sync = 1 ∧ t.goodSkews = 0 ∧ (bank t).count = satInc (bank s).count))

/-! ### Launches and stooks on their cores (22, 23, 25) -/

/-- Events of the launch sequencer (R345, R346, R352 to R358, R362, R404, R409): a doorbell moves TAIL and ends a stopped queue's
pause, but where boot has failed; nothing is taken or admitted in P2; a
taken launch that passes every check fills its pool record and queues one record per stook; and a launch that has come to
its last stage frees its pool record.
The order of an event's data is the model's; poisoned records are a reading: logs 21, 66. -/
def Obligations.LaunchEvents : Prop :=
  ∀ (s : State),
    let x := fun n => s.inp.a.getD n 0
    (let key := x 0 * 16 + x 1
     (smGet none s.ctxs (x 0) = none ∨ 16 ≤ x 1 ∨ s.bootFail = true → exec .tailWrite s = .next s) ∧
     (smGet none s.ctxs (x 0) ≠ none → x 1 < 16 → s.bootFail = false → (lqGet s key).due = false →
       exec .tailWrite s = .next (lqPut s key { lqGet s key with tail := BitVec.ofNat 32 (x 2), stopped := false }))) ∧
    (s.halted = true ∨ s.power = 2 → exec .launchTake s = .next s) ∧
    (∀ l, s.halted = false → s.power ≠ 2 → x 0 ≠ 0 → launchOf s (x 0) = some l → l.park = none → l.read_ = none → (∀ m ∈ s.launches, m.cont = false) →
      (l.stage = .run → exec .launchTake s = .next s) ∧
      (l.stage = .free → l.hostQ = none → ∃ t, exec .launchTake s = .next t ∧ poolGet t (x 0) = PoolRec.free ∧
        launchOf t (x 0) = none ∧ t.recQ = s.recQ ∧ t.cur = s.cur ∧ sameBytes s t ∧ ∀ id, id ≠ x 0 →
          poolGet t id = poolGet s id ∧ launchOf t id = launchOf s id) ∧
      (∀ r lev h hdr s1 s2 s3, l.stage = .take → l.hostQ = none →
        partRead s (launchWho s l) (poolGet s (x 0)).recVa 64 = .ok r s1 →
        partRead s1 (launchWho s l) (wd (fld r 191 128)) 64 = .ok lev s2 →
        readHeader s2 (launchWho s l) (wd (fld r 63 0)) = .ok (h, hdr) s3 → (∀ m ∈ s3.launches, m.cont = false) →
        launchOf s3 (x 0) = some l →
        let p := { poolGet s3 (x 0) with sys := fld r 419 419 = 1 }
        let l' := { l with compl := wd (fld r 255 192), parent := wd (fld r 319 256), coop := fld r 418 418 = 1,
                           prio := fld r 417 416, hdr := hdr, levels := levelsOf lev }
        launchCode (poolPut s3 (x 0) p) l' (poolGet s (x 0)).recVa r lev h = 0 → groupExtents (levelsOf lev) = [] →
        let n := stooksOf (levelsOf lev)
        ∃ t, exec .launchTake s = .next t ∧ poolGet t (x 0) = { p with left := n } ∧
          launchOf t (x 0) = some { l' with stage := .run, rank := 0 } ∧
          (gangUnit (levelsOf lev) = 1 → fld r 418 418 = 0 →
            t.recQ.map (fun q => (q.pool, q.index, q.unit, q.frame)) =
              s3.recQ.map (fun q => (q.pool, q.index, q.unit, q.frame)) ++ (List.range n).map (fun i => (x 0, i, 0, p.frame)))))

/-- Admission and end of a stook (R337 to R339, R342, R345, R346, R357, R412): the unit at the head of a cluster's queue that
can be placed becomes a resident stook whose sheaves start at the entry point with the frame in S63, every lane present,
and whose barriers and tiles are cleared; what cannot be placed waits, and all wait in P2 (R409); a stook that has finished leaves its core and is
counted off its launch's record, and the last one ends the launch.
Placement at the lowest free numbers is a reading: logs 21, 66. -/
def Obligations.AdmissionAndEnd : Prop :=
  ∀ (s : State),
    let x := fun n => s.inp.a.getD n 0
    (∀ h l, headUnit s (x 0) = [h] → launchOf s h.pool = some l →
      let place := placeStep s false h.coop l.hdr l.levels (withKernels s l [h])
      (s.halted = true ∨ s.power = 2 ∨ place = none → exec .recordAdmit s = .next s) ∧
      (∀ core k, s.halted = false → s.power ≠ 2 → place = some [(core, h, k)] → h.restart = [] → k.nSheaf ≤ (freeSlotNos s core).length →
        ∃ t st, exec .recordAdmit s = .next t ∧ t.stooks = s.stooks ++ [st] ∧ st.core = core ∧ st.k = k ∧ st.record = h ∧
          st.abort = none ∧ st.pre.stage = 0 ∧ t.recQ = s.recQ.filter (fun r => r ≠ h) ∧ t.cur = s.cur ∧
          (∃ new, t.agents = s.agents ++ new ∧ new.map (fun a => (a.hx1, a.slotNo)) = (List.range k.nSheaf).zip (freeSlotNos s core) ∧
            ∀ a ∈ new, a.kind = .sheaf ∧ a.stook = st.id ∧ a.core = core ∧ a.k = k ∧ a.priv = k.sys ∧ a.pri.live = true ∧
              a.pri.pc = k.entry ∧ a.pri.mask = allLanes k.w ∧ a.sec.live = false ∧ a.stack = [] ∧
              ∀ n, 0 < n → getSA a n = if n = 63 then h.frame else 0) ∧
          (∀ i, i < k.nBar → barGet t core (k.barBase + i) = ⟨BitVec.ofNat 16 k.nSheaf, 0, 0, false, 0, true⟩) ∧
          (∀ n ∈ k.tiles, tileGet t core n = Tile.clear 0))) ∧
    (headUnit s (x 0) = [] → exec .recordAdmit s = .next s) ∧
    (∀ st, findStook s (x 0) = some st → st.abort = none →
      (stookQuiet s st = false ∨ st.pre.stage = 3 → exec .stookEnd s = .next s) ∧
      (∀ l, stookQuiet s st = true → st.pre.stage ≠ 3 → launchOf s st.k.pool = some l → l.cont = false →
        let pool := st.k.pool
        let gone := fun (t : State) => t.stooks = s.stooks.filter (fun u => u.id ≠ st.id) ∧
          t.queues = s.queues.filter (fun q => q.stook ≠ st.id) ∧
          (∀ a ∈ allAgents t, a.kind ≠ .none → a.stook ≠ st.id) ∧
          ∀ c j, barFile j = none → rdByte t c j = rdByte s c j
        ((poolGet s pool).left ≠ 1 → ∃ t, exec .stookEnd s = .next t ∧ gone t ∧
          poolGet t pool = { poolGet s pool with left := (poolGet s pool).left - 1 } ∧
          launchOf t pool = some { l with ran := l.ran + 1 }) ∧
        ((poolGet s pool).left = 1 → l.compl = 0 → l.parent = 0 → l.hostQ = none → (∀ m ∈ s.launches, m.cont = false) →
          ∃ t, exec .stookEnd s = .next t ∧ gone t ∧ poolGet t pool = PoolRec.free ∧ launchOf t pool = none)))

/-- The sets of sheaves and pre-emption (R326, R365 to R368, R381 to R383): an active sheaf that has waited for 64 cycles swaps
with the first ready pending one; the sheaf longest ready displaces the one longest active only after its time; a request
marks the stook and may set the deadline, its save routines start once every sheaf has stopped, and it leaves its core with
its record at the head of the queue once all have yielded; a request not met in its deadline stops the stook hard, pauses
its calls and tells their members; and a suspended one that fits goes on, its save routines where they had begun.
The order of an event's data is the model's: logs 21, 51, 68, 97. -/
def Obligations.SheafSetsAndPreemption : Prop :=
  ∀ (s : State),
    let x := fun n => s.inp.a.getD n 0
    let swapped := fun (a b : Agent) (t : State) => findAgent t a.id = some { a with active := false, since := s.time } ∧
      findAgent t b.id = some { b with active := true, since := s.time } ∧ sameBytes s t ∧
      ∀ id, id ≠ a.id → id ≠ b.id → findAgent t id = findAgent s id
    (∀ a, findAgent s (x 0) = some a →
      (a.kind ≠ .sheaf ∨ a.active = false ∨ a.ended = true ∨ sheafReady s a = true ∨ longWaiting s a = false ∨
        nextPending s a.core = none → exec .sheafSwap s = .next s) ∧
      (∀ b, a.kind = .sheaf → a.active = true → a.ended = false → sheafReady s a = false → longWaiting s a = true → nextPending s a.core = some b →
        findAgent s b.id = some b → b.id ≠ a.id → ∃ t, exec .sheafSwap s = .next t ∧ swapped a b t)) ∧
    (let pend := (allAgents s).filter (fun a => a.core == x 0 && !a.active && sheafReady s a)
     ∀ p a, p ∈ pend → a ∈ activeOn s (x 0) → (∀ q ∈ pend, q = p ∨ p.since < q.since) →
       (∀ q ∈ activeOn s (x 0), q = a ∨ a.since < q.since) → findAgent s p.id = some p → findAgent s a.id = some a → p.id ≠ a.id →
       ((s.time - p.since) * s.mhz < 2048 * 1000 → exec .sheafDisplace s = .next s) ∧
       (2048 * 1000 ≤ (s.time - p.since) * s.mhz → ∃ t, exec .sheafDisplace s = .next t ∧ swapped a p t)) ∧
    (∀ st, findStook s (x 0) = some st → st.abort = none → st.record.unit = 0 →
      (st.pre.stage = 0 → (∃ a ∈ sheavesOf s st.id, a.ended = false ∧ a.stopPt = none) → exec .preemptRequest s =
        .next { s with
          deadline := if x 2 = 0 then s.deadline else x 2,
          stooks := s.stooks.map (fun u => if u.id = st.id then { u with pre := ⟨1, s.time, wd (s.inp.data.getD 0 (x 1)), 0, false⟩ } else u) }) ∧
      (∀ l s1, st.pre.stage = 1 → stoppedAll s st = true → s1.stooks = s.stooks → allAgents s1 = allAgents s →
        readSafe st ((sheavesOf s st.id).filter (fun a => !a.ended)) s = .ok l s1 → ∃ t, exec .preemptRequest s = .next t ∧
          (∃ u, findStook t st.id = some u ∧ u.pre.stage = 2 ∧ u.pre.begun = true ∧ u.record.restart = l.map (fun y => (y.1, y.2.1, y.2.2.2))) ∧
          ∀ y, l = [y] → ∀ a ∈ sheavesOf t st.id, a.hx1 = y.1 → a.saving = true ∧ (getSlot a (!a.pri.live)).pc = y.2.2.1) ∧
      (st.pre.stage = 2 → savedAll s st = true →
        let r := { st.record with restart := st.record.restart.filter (fun y =>
          ((sheavesOf s st.id).filter (fun a => !a.ended)).any (fun a => a.hx1 == y.1)) }
        r.restart ≠ [] → ∃ t, exec .preemptRequest s = .next t ∧ t.recQ = r :: s.recQ ∧
          t.stooks = s.stooks.filter (fun u => u.id ≠ st.id) ∧ ∀ a ∈ allAgents t, a.kind ≠ .none → a.stook ≠ st.id) ∧
      (st.pre.stage = 0 ∨ (st.pre.stage ≠ 3 ∧ s.time < st.pre.at_ + s.deadline) → exec .preemptDeadline s = .next s) ∧
      (st.pre.stage = 1 ∨ st.pre.stage = 2 → st.pre.at_ + s.deadline ≤ s.time → accessesDone s st.id = false →
        (∀ c ∈ s.calls, c.party.stook = st.id → c.mine = false) → ∃ t, exec .preemptDeadline s = .next t ∧
        (∃ u, findStook t st.id = some u ∧ u.pre.stage = 3 ∧ u.pre.bulkDone = 0) ∧ sameBytes s t ∧ allAgents t = allAgents s ∧
        (∀ c ∈ t.calls, c.party.stook = st.id → c.paused ≠ none ∧ c.mine = true) ∧
        ∀ c ∈ s.calls, c.party.stook = st.id → ∀ q ∈ c.peers s, ∃ y ∈ t.sent, y.kind = 9 ∧ y.dst = q.2)) ∧
    (∀ p, s.suspended.find? (fun p => p.stook.id == x 0) = some p → p.stook.record.unit = 0 →
      (s.halted = true ∨ fitsBack s p = false → exec .preemptResume s = .next s) ∧
      (s.halted = false → fitsBack s p = true → ∃ t, exec .preemptResume s = .next t ∧
        t.suspended = s.suspended.filter (fun q => q.stook.id ≠ p.stook.id) ∧ t.cur = s.cur ∧ t.queues = s.queues ++ p.queues ∧
        t.stooks = s.stooks ++ [wake s p.stook] ∧
        t.agents = s.agents ++ p.agents.map (fun a => { a with
          active := false, stopPt := if p.stook.pre.begun then a.stopPt else none })))

/-! ### The fabric and granary memory as seen from outside (04, 17) -/

/-- Requests that a switch serves and their outcomes (R101, R301 to R306, R310): the result word of XALLOC, XFREE and XQUOTA
with each refusal's code; a load and a refused load of this device; another device's write; the result word's register;
what remains of a request, a call or what an engine or the launch sequencer has asked after 10 ms; and what a lost switch
leaves.
The order of an event's data, and whether a timed-out atomic was performed, are the event's: logs 21, 22. The order in which the
codes of XMEM are answered (GRP zero, then ARG, LOST, NOGROUP) is the model's choice, log 91; what waits for a response is held
as log 123 says, and the units that a step in flight or a queued reply keeps are busyUnits. -/
def Obligations.GranaryEvents : Prop :=
  ∀ (s : State),
    let x := fun n => s.inp.a.getD n 0
    let d := fun n => s.inp.data.getD n 0
    let err := fun n => wd (2 ^ 63 + n * 2 ^ 56)
    let late := fun (n : Nat) => n + 10000000 ≤ s.time
    let result := fun (y : XmemOp) (v : Word) (t : State) =>
      t.xmems = s.xmems.map (fun z => if z.id = y.id then { z with result := some v } else z)
    (7 < x 0 → exec .granaryRequest s = .next s) ∧
    (x 0 ≤ 7 → x 1 = s.node →
      (s.reqs.find? (fun r => r.id == d 0) = none → s.xmems.find? (fun y => y.id == d 0 && y.result.isNone) = none →
        exec .granaryRequest s = .next s) ∧
      (∀ y, s.reqs.find? (fun r => r.id == d 0) = none → s.xmems.find? (fun y => y.id == d 0 && y.result.isNone) = some y →
        (∀ q ∈ s.sent, q.req ≠ some y.id) →
        let gets := fun (v : Word) => ∃ t, exec .granaryRequest s = .next t ∧ result y v t ∧ t.cur = s.cur ∧ t.allocs = s.allocs ∧
          sameBytes s t
        let w := y.a.toNat
        (y.grp = 0 → gets (err 7)) ∧
        (y.grp ≠ 0 → y.f ≠ 1 → 7 < w → gets (err 3)) ∧
        let n := y.b.toNat
        (y.grp ≠ 0 → y.f = 0 → n = 0 ∨ 524288 < n → gets (err 3)) ∧
        (y.grp ≠ 0 → y.f ≠ 1 → w ≤ 7 → (y.f = 0 → 0 < n ∧ n ≤ 524288) → w ∈ s.lost → gets (err 4)) ∧
        (y.grp ≠ 0 → y.f ≠ 1 → w ≤ 7 → (y.f = 0 → 0 < n ∧ n ≤ 524288) → w ∉ s.lost →
          swAccept s w s.node y.jobkey y.grp = false → gets (err 7)) ∧
        (y.grp ≠ 0 → y.f ≠ 1 → w ≤ 7 → w ∉ s.lost → swAccept s w s.node y.jobkey y.grp = true →
          let held := ((s.allocs.filter (fun a => a.sw == w && a.jobkey == y.jobkey)).map (·.n)).sum
          let quota := smGet 0 s.quota (quotaKey w y.jobkey)
          let runs := (s.allocs.filter (fun a => a.sw == w)).map (fun a => (a.base, a.n)) ++ busyUnits s w
          (y.f = 0 → 0 < n → n ≤ 524288 → quota < held + n → gets (err 1)) ∧
          (y.f = 0 → 0 < n → n ≤ 524288 → held + n ≤ quota → findRun 524288 n runs = none → gets (err 2)) ∧
          (∀ b, y.f = 0 → 0 < n → n ≤ 524288 → held + n ≤ quota → findRun 524288 n runs = some b →
            let pa := 2 * 2 ^ 52 + (240 + w) * 2 ^ 44 + b * 2 ^ 21
            ∃ t, exec .granaryRequest s = .next t ∧ result y (wd pa) t ∧ t.allocs = s.allocs ++ [⟨w, b, n, y.jobkey, y.grp⟩] ∧
              (∀ j, pa ≤ j → j < pa + n * 2 ^ 21 → rdByte t false j = 0) ∧ sameBytesBut s t pa (n * 2 ^ 21)) ∧
          (y.f = 2 → gets (wd (held * 2 ^ 24 + (quota - held))))) ∧
        (let sw := bits y.a 51 44 - 240
         let ok := bits y.a 63 52 = 2 ∧ 240 ≤ bits y.a 51 44 ∧ bits y.a 51 44 ≤ 247
         let found := s.allocs.find? (fun a => a.sw == sw && a.base * 2 ^ 21 == bits y.a 43 0)
         (y.grp ≠ 0 → y.f = 1 → ¬ok → gets (err 3)) ∧
         (y.grp ≠ 0 → y.f = 1 → ok → sw ∉ s.lost → swAccept s sw s.node y.jobkey y.grp = false → gets (err 7)) ∧
         (y.grp ≠ 0 → y.f = 1 → ok → sw ∈ s.lost ∨ swAccept s sw s.node y.jobkey y.grp = true →
           (found = none → gets (err 6)) ∧ (∀ a, found = some a → a.jobkey ≠ y.jobkey → gets (err 5)) ∧
           (∀ a, found = some a → a.jobkey = y.jobkey → ∃ t, exec .granaryRequest s = .next t ∧
             result y (wd (if sw ∈ s.lost then 0 else a.n)) t ∧ sameBytes s t ∧
             t.allocs = s.allocs.filter (fun b => b.sw ≠ sw || b.base ≠ a.base))))) ∧
      (∀ r a, s.reqs.find? (fun r => r.id == d 0) = some r → waitingWire r (fun n => n == 240 + x 0) = [a] → r.op = .load →
        away s r.id (240 + x 0) = true → s.inp.data.drop 1 = [] →
        (x 0 ∈ s.lost → exec .granaryRequest s = .next s) ∧
        (x 0 ∉ s.lost → granaryOk s a.loc s.node (kernelOf s r.agent).jobkey (kernelOf s r.agent).grp = true →
          exec .granaryRequest s = .next (takeBack s (respond r
            [(a, wd (leNat (rdBytes s false a.loc a.size)), rdTags s false a.loc a.size)]))) ∧
        (x 0 ∉ s.lost → granaryOk s a.loc s.node (kernelOf s r.agent).jobkey (kernelOf s r.agent).grp = false →
          exec .granaryRequest s = .next (takeBack (logRefused s (x 0) a.loc) (respond r [(a, 0, some (tagOf s (112 + x 0)))]))))) ∧
    (x 0 ≤ 7 → x 1 ≠ s.node → x 0 ∉ s.lost → d 0 = 1 → d 3 < 2 ^ 44 →
      let loc := 2 * 2 ^ 52 + (240 + x 0) * 2 ^ 44 + d 3
      let accepted := granaryOk s loc (x 1) (wd (d 1)) (BitVec.ofNat 16 (d 2))
      let aligned := (d 4 = 64 ∨ d 4 = 128 ∨ d 4 = 256) ∧ d 3 % d 4 = 0
      let answer := fun (status : Nat) => (⟨5, x 1, 33, 16, none, wd (d 1), BitVec.ofNat 16 (d 2), [status, loc]⟩ : Packet)
      let refused := fun (code : Nat) => ∃ t, exec .granaryRequest s = .next t ∧ sameBytes s t ∧
        t.sent = s.sent ++ [answer code] ∧
        (smGet Bank.empty t.banks (112 + x 0)).count = satInc (smGet Bank.empty s.banks (112 + x 0)).count
      (¬aligned → refused 1) ∧ (aligned → accepted = false → refused 2) ∧
      (aligned → accepted = true → d 4 = 64 → d 5 = 2 ^ 64 - 1 → 64 ≤ s.inp.tags.length →
        ∃ t, exec .granaryRequest s = .next t ∧ t.sent = s.sent ++ [answer 0] ∧
          rdBytes t false loc 64 = (s.inp.tags.take 64).map (BitVec.ofNat 8) ∧ sameBytesBut s t loc 64)) ∧
    (∀ y, s.xmems.find? (fun y => y.id == x 0) = some y → y.agent = s.cur.id → s.cur.kind ≠ .none →
      (y.result = none → exec .xmemResult s = .next s) ∧
      (∀ v, y.result = some v → ∃ t, exec .xmemResult s = .next t ∧ t.xmems = s.xmems.filter (fun z => z.id ≠ y.id) ∧
        t.cur.s = (setS s y.sd v).cur.s ∧ t.cur.cntCp = s.cur.cntCp - 1 ∧ t.cur.v = s.cur.v ∧ sameBytes s t)) ∧
    (s.reqs.find? (fun r => r.id == x 0) = none →
      (∀ y, s.xmems.find? (fun y => y.id == x 0 && y.result.isNone) = some y →
        (¬late y.since → exec .responseTimeout s = .next s) ∧
        (late y.since → ∃ t, exec .responseTimeout s = .next t ∧ result y (err 4) t ∧ t.cur = s.cur ∧ sameBytes s t)) ∧
      (s.xmems.find? (fun y => y.id == x 0 && y.result.isNone) = none →
        (∀ c, s.calls.find? (fun c => c.id == x 0) = some c →
          let fails := c.started = true ∧ c.paused = none ∧ c.err = 0 ∧ late c.since
          (¬fails → exec .responseTimeout s = .next s) ∧
          (fails → exec .responseTimeout s = .next { s with
            calls := s.calls.map (fun y => if y.id = c.id then { c with err := 9, park := none } else y) })) ∧
        (∀ a, s.calls.find? (fun c => c.id == x 0) = none → s.asks.find? (fun a => a.id == x 0) = some a →
          (¬late a.since ∨ a.dead = true ∨ a.val ≠ none → exec .responseTimeout s = .next s) ∧
          (late a.since → a.dead = false → a.val = none → x 1 ≠ 1 → exec .responseTimeout s = .next { s with
            asks := s.asks.map (fun b => if b.id = x 0 then { b with dead := true } else b) })))) ∧
    (∀ r, s.reqs.find? (fun r => r.id == x 0) = some r → ¬late r.since → exec .responseTimeout s = .next s) ∧
    (∀ r a, s.reqs.find? (fun r => r.id == x 0) = some r → waitingWire r (fun _ => true) = [a] → late r.since →
      let all := fun (_ : Packet) => true
      (r.op = .load → exec .responseTimeout s =
        .next (takeBack (unsend s r.id all) (respond r [(a, 0, some (lostTag s a.loc))]))) ∧
      (r.op = .store → 240 ≤ nodeOf a.loc → exec .responseTimeout s =
        .next (takeBack (unsend (logRefused s (nodeOf a.loc - 240) a.loc) r.id all) (respond r [(a, 0, some (lostTag s a.loc))])))) ∧
    (7 < x 0 ∨ x 0 ∈ s.lost → exec .granaryLost s = .next s) ∧
    (x 0 ≤ 7 → x 0 ∉ s.lost → s.reqs = [] → ∃ t, exec .granaryLost s = .next t ∧ t.lost = x 0 :: s.lost ∧ t.cur = s.cur ∧
      t.allocs = s.allocs ∧ t.skops = s.skops ∧ t.copies = s.copies ∧ sameBytes s t ∧
      (∀ a ∈ t.asks, a.val = none → (∃ p ∈ a.pieces, farLoc p.loc = true ∧ nodeOf p.loc = 240 + x 0) → a.dead = true) ∧
      (smGet Bank.empty t.banks (112 + x 0)).count = satInc (smGet Bank.empty s.banks (112 + x 0)).count)

/-- A request of another device (R82, R294, R307, R309): one outside the subset, one that a switch on its way or the group table does
not accept and one that leaves the window or the memory are refused by code, with a record in the bank of the port pair
that R295 gives; a write of 64 bytes lands in the window of its group or at its PA, a read answers the bytes with their poison,
an atomic answers the old value; the answer goes back with the asker's job key and group.
The order of an event's data and the numbers of the statuses are the model's: logs 21, 67. -/
def Obligations.FabricRequests : Prop :=
  ∀ (s : State), s.latent = [] →
    let src := s.inp.a.getD 0 0
    let d := fun n => s.inp.data.getD n 0
    let off := d 3
    let port := portFor s s.node off
    let size := if d 0 % 4 = 2 then atSize (d 5) else d 4
    let grp := BitVec.ofNat 16 (d 2)
    let ok := supported (d 0 % 4) (d 4) off (d 4) (d 5)
    let taken := packetOk s port src (wd (d 1)) grp
    let answer := fun (status loc len : Nat) (words : List Nat) =>
      (⟨5, src, portFor s src off, 16 + (len + 7) / 8 * 8, none, wd (d 1), grp, status :: loc :: words⟩ : Packet)
    let bytesAt := fun (loc : Nat) => (match rdTags s true loc (d 4) with
      | none => 0
      | some y => y.toNat + 1) :: (rdBytes s true loc (d 4)).map (·.toNat)
    let refused := fun (code : Nat) => ∃ t, exec .fabricRequest s = .next t ∧ t.sent = s.sent ++ [answer code off 0 []] ∧
      sameBytes s t ∧ t.cur = s.cur ∧ t.eseq = s.eseq + 1 ∧
      (smGet Bank.empty t.banks (112 + port / 2)).count = satInc (smGet Bank.empty s.banks (112 + port / 2)).count
    (7 < d 0 ∨ d 0 % 4 = 3 ∨ ok = false → refused 1) ∧
    (d 0 < 3 → ok = true → taken = false → refused 2) ∧
    (∀ g, d 0 < 3 → ok = true → taken = true → groupFor s grp = some g → g.winLen < off + size → refused 2) ∧
    (4 ≤ d 0 → d 0 < 7 → ok = true → hbmEnd < off + size → refused 2) ∧
    (∀ loc, ok = true →
      (d 0 < 3 ∧ taken = true ∧ ∃ g, groupFor s grp = some g ∧ off + size ≤ g.winLen ∧ loc = g.winBase + off) ∨
        (4 ≤ d 0 ∧ d 0 < 7 ∧ off + size ≤ hbmEnd ∧ loc = off) →
      let answers := fun (len : Nat) (words : List Nat) (t : State) =>
        exec .fabricRequest s = .next t ∧ t.sent = s.sent ++ [answer 0 loc len words] ∧ t.cur = s.cur
      (d 0 % 4 = 1 → d 4 = 64 → d 5 = 2 ^ 64 - 1 → 64 ≤ s.inp.tags.length → loc % 32 = 0 → ownLoc loc → ownLoc (loc + 32) →
        ∃ t, answers 0 [] t ∧ rdBytes t true loc 64 = (s.inp.tags.take 64).map (BitVec.ofNat 8) ∧ sameBytesBut s t loc 64) ∧
      (d 0 % 4 = 0 → ∃ t, answers (d 4) (bytesAt loc) t ∧ sameBytes s t) ∧
      (d 0 % 4 = 2 → ownLoc loc → locClass loc ≠ 1 → loc % 32 + size ≤ 32 → rdTags s true loc size = none →
        let old := wd (leNat (rdBytes s true loc size))
        ∃ t, answers size [0, old.toNat] t ∧ sameBytesBut s t loc size ∧
          (d 4 = 6 → d 5 = 2 → rdBytes t true loc size = leBytes 8 (s.inp.tags.getD 0 0 % 2 ^ 64)) ∧
          (d 4 = 0 → d 5 = 0 → rdBytes t true loc size = leBytes 4 (old.toNat + s.inp.tags.getD 0 0))))

/-! ### Collective calls (18, 20) -/

/-- Packets of other members and the pauses of a call (R307, R308, R314, R316, R326, R327, R331): a packet that the group table
does not accept is dropped with a record; a first packet agrees with the call or ends it on every member; an abort ends a
call that is under way and marks a number not yet issued as consumed; a pause holds the call, RESUME frees it from the next
rotation on, and two full rotations or the group's budget end the hold's use of its quota or the call; the call's own time limit stands
still for the pause; data are held for the call, or for their second hop while a buffer is free.
The order of a packet's words, and how many relays are held for a slot, are the model's: logs 21, 71, 82, 110. -/
def Obligations.CollectivePackets : Prop :=
  ∀ (s : State),
    let x := fun n => s.inp.a.getD n 0
    let d := fun n => s.inp.data.getD n 0
    let dropped := fun (i : Instr) (port : Nat) => ∃ t, exec i s = .next t ∧ t.calls = s.calls ∧ t.early = s.early ∧
      t.skipped = s.skipped ∧ t.relays = s.relays ∧ t.cur = s.cur ∧ sameBytes s t ∧ t.eseq = s.eseq + 1 ∧
      (smGet Bank.empty t.banks (112 + port / 2)).count = satInc (smGet Bank.empty s.banks (112 + port / 2)).count
    let setTo := fun (c e : Call) => { s with calls := s.calls.map (fun b => if b.id = c.id then e else b) }
    let peers := fun (c : Call) (kind : Nat) (w : List Nat) => (c.peers s).map (fun p =>
      (⟨kind, p.2, portFor s p.2 0, 64, none, c.party.k.jobkey, c.party.k.grp, c.party.k.jobkey.toNat :: c.handle.toNat :: c.num.toNat :: w⟩ : Packet))
    (let grp := BitVec.ofNat 16 (d 1)
     let rank := (((groupFor s grp).map (·.nodes)).getD []).idxOf (x 0)
     let kept : Early := ⟨grp, BitVec.ofNat 32 (d 2), rank, false, s.inp.data.drop 3⟩
     (packetOk s (x 1) (x 0) (wd (d 0)) grp = false → dropped .firstPacket (x 1) ∧ dropped .collectiveContribution (x 1)) ∧
     (packetOk s (x 1) (x 0) (wd (d 0)) grp = true →
       (callBy s grp (d 2) = none →
         (notIssued s grp.toNat (d 2) = true → exec .firstPacket s = .next { s with early := s.early ++ [kept] }) ∧
         (notIssued s grp.toNat (d 2) = false → exec .firstPacket s = .next s) ∧
         (d 5 = s.node → exec .collectiveContribution s = .next s)) ∧
       (d 5 ≠ s.node → Config.relayBuffers (d 6) < (s.relays.filter (fun r => r.slot = d 6)).length →
         exec .collectiveContribution s = .next s) ∧
       (d 5 ≠ s.node → (s.relays.filter (fun r => r.slot = d 6)).length ≤ Config.relayBuffers (d 6) → ∃ t r,
         exec .collectiveContribution s = .next t ∧ t.relays = s.relays ++ [r] ∧ r.dst = d 5 ∧ r.slot = d 6 ∧
         t.calls = s.calls ∧ sameBytes s t) ∧
       (∀ c, callBy s grp (d 2) = some c →
         (c.announced = false → exec .firstPacket s = .next { s with early := s.early ++ [kept] }) ∧
         (c.announced = true → c.err ≠ 0 ∨ rank ∈ c.firsts → exec .firstPacket s = .next s) ∧
         (c.announced = true → c.err = 0 → rank ∉ c.firsts →
           (s.inp.data.drop 3 = firstFields c → exec .firstPacket s = .next (setTo c { c with firsts := rank :: c.firsts, since := s.time })) ∧
           (s.inp.data.drop 3 ≠ firstFields c → exec .firstPacket s =
             .next { setTo c { c with err := 4 } with sent := s.sent ++ peers c 8 [1] })) ∧
         (let g := c.group s
          let bs := (List.range (s.inp.data.length - 7)).map (fun i => (BitVec.ofNat 8 (d (7 + i)), tagIn (s.inp.tags.getD i 0)))
          let fits := c.err = 0 ∧ rank ≠ g.rank ∧ d 3 + bs.length ≤ (c.part g.size rank g.rank).2
          (d 5 = s.node → ¬fits → exec .collectiveContribution s = .next s) ∧
          (d 5 = s.node → fits → exec .collectiveContribution s = .next (setTo c { c with
            since := if c.started then s.time else c.since, recv := c.recv ++ [(rank, d 3, bs)], satf := c.satf || d 4 = 1 })))))) ∧
    (let grp := BitVec.ofNat 16 (x 3)
     (packetOk s (x 1) (x 0) (wd (x 2)) grp = false →
       dropped .collectiveAbort (x 1) ∧ dropped .pause (x 1) ∧ dropped .resume (x 1)) ∧
     (packetOk s (x 1) (x 0) (wd (x 2)) grp = true →
       (callBy s grp (x 4) = none →
         (notIssued s grp.toNat (x 4) = false → exec .collectiveAbort s = .next s ∧ exec .pause s = .next s) ∧
         (notIssued s grp.toNat (x 4) = true →
           (∃ t, exec .collectiveAbort s = .next t ∧ t.skipped = (grp.toNat, x 4) :: s.skipped ∧ t.calls = s.calls ∧
             ∀ e ∈ t.early, e.handle ≠ grp ∨ e.num.toNat ≠ x 4) ∧
           (∃ t e, exec .pause s = .next t ∧ t.early = s.early ++ [e] ∧ e.handle = grp ∧ e.num = BitVec.ofNat 32 (x 4) ∧
             e.pause = true ∧ t.calls = s.calls)) ∧
         (∃ t, exec .resume s = .next t ∧ t.calls = s.calls ∧
           ∀ e ∈ t.early, e ∈ s.early ∧ ¬(e.handle = grp ∧ e.num.toNat = x 4 ∧ e.pause = true))) ∧
       (∀ c, callBy s grp (x 4) = some c →
         (c.err ≠ 0 → exec .collectiveAbort s = .next s) ∧
         (c.err = 0 → exec .collectiveAbort s = .next (setTo c { c with err := if x 5 = 1 then 4 else 5, park := none })) ∧
         (c.paused = none → exec .pause s = .next (setTo c { c with paused := some s.time, everPaused := true })) ∧
         (c.paused ≠ none → exec .pause s = .next (setTo c c)) ∧
         (findStook s c.party.stook = none → exec .resume s = .next s) ∧
         (∀ t0, findStook s c.party.stook ≠ none → c.paused = some t0 → ∃ n, exec .resume s =
             .next (setTo c { c with paused := none, released := false, rotEnd := n, since := c.since + (s.time - t0) }) ∧
           (let r := s.grat.nslot * (2500 * 2 ^ s.grat.width)
            0 < r → s.grat.epoch ≤ s.time → s.time < n ∧ n ≤ s.time + r ∧ (n - s.grat.epoch) % r = 0)) ∧
         (findStook s c.party.stook ≠ none → c.paused = none → exec .resume s = .next (setTo c c))))) ∧
    (∀ c, s.calls.find? (fun c => c.id == x 0) = some c →
      (c.paused = none → exec .pauseQuotaRelease s = .next s ∧ exec .pauseBudgetExpire s = .next s) ∧
      (∀ t0, c.paused = some t0 →
        let due := c.timed = true ∧ t0 + 2 * (s.grat.nslot * (2500 * 2 ^ s.grat.width)) ≤ s.time
        let b := (c.group s).pbudget
        let late := b ≠ 0 ∧ t0 + 1000 * b ≤ s.time ∧ c.err = 0
        (due → exec .pauseQuotaRelease s = .next (setTo c { c with released := true })) ∧
        (¬due → exec .pauseQuotaRelease s = .next s) ∧
        (late → exec .pauseBudgetExpire s = .next { setTo c { c with err := 5, park := none } with sent := s.sent ++ peers c 8 [0] }) ∧
        (¬late → exec .pauseBudgetExpire s = .next s)))

/-- The course of a call and of the slots (R308, R311, R313 to R318, R323 to R325, R329, R330): a call announces itself
once what its issuer had in flight is performed; one that waits for its peers, its turn or a pause goes no further; a move takes its own block at its start, and what it holds lands in DST; an ended call writes its status word, or sets
its barrier's error; the exact integer sum of a reduction is clamped to its type; in a slot's occurrence a call sends what
its quota entry allows and relays make their second hop; and the tables are replaced as they are written.
The order of an event's data is the model's; completion, failed checks and what is kept of a slot's quota are readings: logs 21, 72
to 75. -/
def Obligations.CollectiveProgress : Prop :=
  ∀ (s : State),
    let x := fun n => s.inp.a.getD n 0
    let d := fun n => s.inp.data.getD n 0
    (∀ c, s.calls.find? (fun c => c.id == x 0) = some c → putCall s c = s → findStook s c.party.stook ≠ none →
      edgeDone s c.party = true → c.park = none → c.todo = [] →
      let g := c.group s
      let status := fun (q : Word) => wd (q.toNat % 65536 * 2 ^ 48 + c.num.toNat % 2 ^ 24 * 2 ^ 24 + c.err * 2 ^ 16 +
        (if c.late then 16 else 0) + (if c.everPaused then 8 else 0) + (if c.pois then 4 else 0) +
        (if c.err ≠ 0 then 2 else 0) + 1)
      let ended := ∃ t, exec .collectiveComplete s = .next t ∧ t.calls = (s.calls.filter (fun e => e.id ≠ c.id)).map
          (fun e => if e.handle = c.handle ∧ e.started = false then { e with since := s.time } else e) ∧
        (c.party.agent = s.cur.id → s.cur.kind ≠ .none → t.cur.cntCp = s.cur.cntCp - 1 ∧ t.cur.v = s.cur.v ∧
          (c.toReg = true → t.cur.s = (setS s c.tag (status (s.eseq + 1))).cur.s)) ∧
        (c.toReg = true → c.err ≠ 4 → c.err ≠ 5 → t.eseq = s.eseq + 1 ∧ sameBytes s t) ∧
        (c.toReg = false → c.err = 0 → t.barriers = s.barriers) ∧
        (c.toReg = false → c.err ≠ 0 → (barGet t c.party.core (c.party.k.barBase + c.tag)).err = true) ∧
        (∀ st, findStook s c.party.stook = some st → st.abort = none → st.held.length < 16 → c.err = 4 ∨ c.err = 5 → ∃ u,
          findStook t st.id = some u ∧ u.held.map (fun h => (h.cause, h.tinfo)) =
            st.held.map (fun h => (h.cause, h.tinfo)) ++ [(if c.err = 4 then COLLMISMATCH else COLLABORT, c.num.setWidth 64)])
      (c.err ≠ 0 → c.op ≠ 5 ∨ c.geom ≠ none → ended) ∧
      (c.err = 0 → c.op ≠ 5 ∨ c.geom ≠ none →
        (c.announced = false → c.op ≠ 5 → (∀ e ∈ s.early, ¬(e.handle = c.handle ∧ e.num = c.num)) → exec .collectiveComplete s = .next { s with
          calls := s.calls.map (fun e => if e.id = c.id then { c with announced := true, since := s.time } else e),
          sent := s.sent ++ (c.peers s).map (fun p => ⟨6, p.2, portFor s p.2 0, 64, none, c.party.k.jobkey, c.party.k.grp,
            c.party.k.jobkey.toNat :: c.handle.toNat :: c.num.toNat :: firstFields c⟩) }) ∧
        (c.announced = true ∨ c.op = 5 → c.matched s = false ∨ c.isHead s = false ∨ c.paused ≠ none → exec .collectiveComplete s = .next s) ∧
        (c.matched s = true → c.isHead s = true → c.paused = none →
          (c.started = false → c.timed = true → c.starting = none → c.folds = true ∨ c.recv = [] → exec .collectiveComplete s = .next s) ∧
          (c.started = true → 2 ≤ c.op → c.op ≤ 4 → c.recv = [] → c.planned g.size ≤ c.credited → c.allSent s = true → ended) ∧
          (∀ b u, c.started = false → c.timed = false ∨ c.starting ≠ none → 2 ≤ c.op → c.op ≤ 4 →
            let late := c.timed && c.starting.getD false
            let y := { c with party := stampIf c.starting.isNone s c.party, starting := some late }
            let (a, n) := c.part g.size g.rank g.rank
            engRead (putCall s y) y.party c.id [1] .rd (c.src + wd a) n = .ok b u →
            exec .collectiveComplete s = .next (putCall (dropAsks u (Ask.ofOp c.id)) { y with
              started := true, since := u.time, late := late, recv := if b = [] then c.recv else (g.rank, 0, b) :: c.recv })) ∧
          (∀ r o b l q v, c.started = true ∨ (c.timed = true ∧ c.starting = none) → (c.started = true → c.timed = false → c.allSent s = true) → 2 ≤ c.op → c.op ≤ 4 →
            c.recv = (r, o, b) :: l → b ≠ [] → s.inp.data = [] →
            engRange s c.party .wr (c.dst + wd (c.place g.size r + o)) b.length = .ok [q] v →
            q.len = b.length → locClass q.loc ≠ 2 → ownLoc q.loc → q.loc % 32 + q.len ≤ 32 →
            ∃ t, exec .collectiveComplete s = .next t ∧ rdBytes t q.coh q.loc q.len = b.map (·.1) ∧
              (c.toReg = true → sameBytesBut v t q.loc q.len) ∧
              ∃ e ∈ t.calls, e.id = c.id ∧ e.recv = l ∧ e.credited = c.credited + b.length ∧ e.started = c.started)))) ∧
    (∀ (c : Call) (r a b : Nat), c.op = 0 → c.wfmt = 3 → c.rop = 0 → c.count = 1 → a < 2 ^ 32 → b < 2 ^ 32 →
      let y := sx 32 a + sx 32 b
      (foldAll c 2 r [pBytes 4 a none, pBytes 4 b none]).1 =
        pBytes 4 (max (-(2 ^ 31)) (min (2 ^ 31 - 1) y) % 2 ^ 32).toNat none) ∧
    (occNow s = none → exec .slotOccurrence s = .next s) ∧
    (∀ start slot, occNow s = some (start, slot) →
      (slot ≠ x 0 → exec .slotOccurrence s = .next s) ∧
      (slot = x 0 → s.slotAt ≠ start + 1 → s.calls = [] → s.time < start + 800 →
        exec .slotOccurrence s = .next { s with slotAt := start + 1, slotSent := false }) ∧
      (slot = x 0 → s.slotAt = start + 1 →
        (s.slotSent = true ∨ s.time < start + 800 → exec .slotOccurrence s = .next s) ∧
        (s.slotSent = false → start + 800 ≤ s.time → s.sync = 1 →
          (let go := fun (r : Relay) => r.slot = slot && matchedWith s slot r.dst
           s.grat.quota = [] → exec .slotOccurrence s = .next { s with
             slotSent := true,
             sent := s.sent ++ (s.relays.filter go).map (fun r =>
               ⟨11, r.dst, (rotorPort s slot r.dst).getD 32, 16 + ((r.words.length - 8) / 2 + 7) / 8 * 8, none,
                 wd (r.words.getD 1 0), BitVec.ofNat 16 (r.words.getD 2 0), r.words⟩),
             relays := s.relays.filter (fun r => !go r) }) ∧
          (∀ c job dest via vslot quota r p, s.calls = [c] → s.relays = [] →
            s.grat.quota.map quotaEntry = [(job, dest, via, slot, vslot, quota)] → c.timed = true → c.party.k.jobkey = job →
            matchedWith s slot via = true → rankAt s c dest = some (r, p) → c.started = true → mayGo s c start = true →
            c.folds = true →
            let (a, n) := c.part (c.group s).size (c.group s).rank r
            let k := min (quota - queuedFor s job dest via vslot) (n - c.sentTo r)
            let bs := (c.own.drop (a + c.sentTo r)).take k
            0 < k → ∃ t, exec .slotOccurrence s = .next t ∧ t.calls = [{ c.addSent r bs.length with since := s.time }] ∧
              t.sent = s.sent ++ (List.range ((bs.length + 255) / 256)).map (fun j =>
                let part := (bs.drop (256 * j)).take 256
                ⟨7, via, (rotorPort s slot via).getD (portFor s via (c.sentTo r + 256 * j)), 16 + (part.length + 7) / 8 * 8, none,
                  c.party.k.jobkey, c.party.k.grp,
                  [c.party.k.jobkey.toNat, c.handle.toNat, c.num.toNat, c.sentTo r + 256 * j, if c.satf then 1 else 0,
                   dest, vslot] ++ wireWords part⟩))))) ∧
    (x 0 % 65536 = 0 → exec .groupTableWrite s = .next s) ∧
    (x 0 % 65536 ≠ 0 → ∃ t g, exec .groupTableWrite s = .next t ∧ smGet none t.groups (x 0 % 65536) = some g ∧
      (∀ h, h ≠ x 0 % 65536 → smGet none t.groups h = smGet none s.groups h) ∧ t.calls = s.calls ∧ sameBytes s t ∧
      g.jobkey = wd (d 0) ∧ g.rank = fld (d 1) 22 16 ∧ (g.valid = true ↔ fld (d 1) 23 23 = 1) ∧ g.size = fld (d 1) 31 24 ∧
      g.cseq = BitVec.ofNat 32 (fld (d 1) 63 32) ∧ g.winBase = fld (d 2) 55 0 ∧ g.winLen = fld (d 3) 39 0 ∧
      g.pbudget = fld (d 4) 31 0 ∧ g.nodes.length = g.size ∧
      ∀ r, r < g.size → g.nodes.getD r 0 = fld (d (8 + r / 8)) (8 * (r % 8) + 7) (8 * (r % 8))) ∧
    (∃ t, exec .graticuleWrite s = .next t ∧ t.grat.nslot = min 64 (d 0) ∧ t.grat.width = d 1 % 4 ∧ t.grat.epoch = d 2 ∧
      t.grat.quota = (s.inp.data.drop (3 + min 64 (d 0))).map (fun e => e % 2 ^ 128 - fld e 35 32 * 2 ^ 32) ∧ t.calls = s.calls ∧ t.relays = s.relays ∧ sameBytes s t ∧
      (3 + d 0 ≤ s.inp.data.length → d 0 ≤ 64 → ∀ j q, j < d 0 → q < 16 →
        (t.grat.slots.getD j []).getD q 255 = fld (d (3 + j)) (8 * q + 7) (8 * q)))

/-! ### The host, the boot and the power states (23, 25, 27) -/

/-- Mailbox requests, power and reset (R348, R376, R387, R401, R403 to R407, R409): a context's fields come from its descriptor
and its fault ring is empty; a readback region outside HBM or too small is refused, and a request writes the image there; a
loader request is refused by code (its keys, its signatures and its bytes are checked), or marks the segment's frames, whose
bytes every view then has, and extends its slot; a quote shows the slots, the nonce and both signatures; none of these is served
while the boot has failed; a power cap is taken at its steps; the device goes idle after 1 ms and wakes at a record; a hot die halts
it; and a reset runs the steps of measured boot, held at the one that fails with its cause.
The order of an event's data is the model's; what survives a reset, the loader's order, the places of a container's parts and the
image's length are readings or free: logs 12, 13, 21, 43, 46, 47, 48. That HBM4 reads zero after a reset (log 1), the epoch then (log
3) and what a configuration word gives CHMAP (chmapOf, log 42) are the model's choices. -/
def Obligations.MailboxPowerAndReset : Prop :=
  ∀ (s : State),
    let x := fun n => s.inp.a.getD n 0
    (255 < x 0 ∨ hbmEnd < x 1 + 128 ∨ s.bootFail = true → exec .contextRegister s = .next s) ∧
    (x 0 ≤ 255 → x 1 + 128 ≤ hbmEnd → s.bootFail = false → s.latent = [] →
      let m := leNat (rdBytes s true (x 1) 128)
      ∃ t c, exec .contextRegister s = .next t ∧ smGet none t.ctxs (x 0) = some c ∧ c.root = wd (fld m 63 0) ∧
        c.jobkey = wd (fld m 127 64) ∧ c.fring = wd (fld m 191 128) ∧ c.frlog = fld m 199 192 ∧ c.fvec = fld m 207 200 ∧
        c.ctxarea = wd (fld m 319 256) ∧ c.scrva = wd (fld m 383 320) ∧ c.qtab = wd (fld m 447 384) ∧
        (c.priv = true ↔ fld m 448 448 = 1) ∧ (ringOf t (x 0)).fprod = 0 ∧ (ringOf t (x 0)).fcons = 0 ∧
        (∀ q ∈ t.lqueues, q.1 / 16 ≠ x 0) ∧ t.cur = s.cur ∧ sameBytes s t ∧
        ∀ n, n ≠ x 0 → smGet none t.ctxs n = smGet none s.ctxs n ∧ ringOf t n = ringOf s n) ∧
    (hbmEnd < x 0 + x 1 ∨ x 1 < Config.imageBytes ∨ s.bootFail = true → exec .readbackRegister s = .next s) ∧
    (x 0 + x 1 ≤ hbmEnd → Config.imageBytes ≤ x 1 → s.bootFail = false → exec .readbackRegister s = .next { s with rbBase := x 0, rbLen := x 1 }) ∧
    (let asks := (spillAll s).stooks.any (fun k => partAsking (spillAll s) [2, k.id])
     let v := (spillAll s).stooks.foldl (fun u k => partDone u [2, k.id]) (spillAll s)
     (s.halted = false → asks = true → exec .readbackRequest s = .next (spillAll s)) ∧
     (s.halted = false → asks = false → ∃ t, exec .readbackRequest s = .next t ∧ t.imageDue = false ∧ t.cur = s.cur ∧
      (s.rbBase + s.rbLen ≤ hbmEnd → let im := (readbackBytes v 0).take s.rbLen
        rdBytes t true s.rbBase im.length = im ∧ sameBytesBut v t s.rbBase im.length))) ∧
    (s.halted = true → s.imageDue = false ∨ haltQuiet s = false → exec .readbackRequest s = .next s) ∧
    (s.bootFail = true → exec .loaderRequest s = .next s ∧ exec .quoteRequest s = .next s) ∧
    (s.latent = [] → s.bootFail = false →
     let req := x 0
     let cont := fld req 255 192
     let frame := fld req 191 136
     let len := fld req 127 64
     let done := fun (t : State) (code : Nat) => t.loader =
       BitVec.ofNat 256 (fld req 255 136 * 2 ^ 136 + len * 2 ^ 64 + code * 16 + (if code = 0 then 0 else 2) + 1)
     let refuses := fun (code : Nat) => ∃ t, exec .loaderRequest s = .next t ∧ done t code ∧ { t with loader := s.loader } = s
     let inside := frame % 65536 = 0 ∧ frame + len ≤ hbmEnd ∧ len ≠ 0
     let coh := decide (cont / 2 ^ 52 = 0)
     let entry := (rdBytes s coh cont 5469).map (·.toNat)
     let part := fun (at_ n : Nat) => (entry.drop at_).take n
     let hash := fun (l : List Nat) => Config.sha3 l % 2 ^ 384
     let good := rdTags s coh cont 5469 = none ∧ hash (part 3485 32) = Config.keyDigest 0 ∧ hash (part 3517 1952) = Config.keyDigest 1 ∧
       Config.sigVerify 0 (part 3485 32) (part 0 112) (part 112 64) = true ∧
       Config.sigVerify 1 (part 3517 1952) (part 0 112) (part 176 3309) = true
     let want := leNat (rdBytes s coh (cont + 64) 48)
     let slot := Config.segmentSlot (part 0 64)
     let measured := rdTags s true frame len = none ∧ hash ((rdBytes s true frame len).map (·.toNat)) = want
     let marked := fun (f : Nat) => frame ≤ f * 65536 ∧ f * 65536 < frame + len
     (¬inside → refuses 4) ∧ (inside → ¬good → refuses 1) ∧ (inside → good → ¬measured → refuses 2) ∧
     (inside → good → measured → slot < 3 ∨ 15 < slot → refuses 3) ∧
     (inside → good → measured → 3 ≤ slot → slot ≤ 15 → ∃ t, exec .loaderRequest s = .next t ∧ done t 0 ∧ t.cur = s.cur ∧
       (∀ loc, rdByte t true loc = rdByte s true loc ∧ (rdByte t false loc = rdByte s false loc ∨ rdByte t false loc = rdByte s true loc) ∧
         (∀ y, marked (loc / 65536) → smGet none s.cached (loc / 32) = some y → y.dirty = true → rdByte t false loc = rdByte s true loc)) ∧
       smGet 0 t.attest slot = hash ((leBytes 48 (smGet 0 s.attest slot) ++ leBytes 48 want).map (·.toNat)) ∧
       (∀ n, n ≠ slot → smGet 0 t.attest n = smGet 0 s.attest n) ∧
       ∀ f, smGet false t.measured f = if marked f then true else smGet false s.measured f)) ∧
    (let slots := (List.range 16).map (fun n => smGet 0 s.attest n)
     s.bootFail = false → exec .quoteRequest s = .next { s with quote := slots ++ [x 0 % 2 ^ 256, Config.quoteSig 0 slots (x 0 % 2 ^ 256),
                                                              Config.quoteSig 1 slots (x 0 % 2 ^ 256)] }) ∧
    (let ok := 1200 ≤ x 0 ∧ x 0 ≤ 1800 ∧ x 0 % 100 = 0 ∧ s.power < 2
     (ok → exec .powerCap s = .next { s with power := 1, mhz := x 0 }) ∧ (¬ok → exec .powerCap s = .next s)) ∧
    (let now := idle s = true ∧ s.power < 2 ∧ s.busyAt + 1000000 ≤ s.time
     (now → exec .idleEntry s = .next { s with power := 2 }) ∧ (¬now → exec .idleEntry s = .next s)) ∧
    (s.power = 2 → idle s = false → exec .idleExit s = .next { s with power := 0, mhz := 1800 }) ∧
    (s.power ≠ 2 ∨ idle s = true → exec .idleExit s = .next s) ∧
    (s.halted = true → exec .thermalTrip s = .next { s with power := 3 }) ∧
    (s.halted = false → ∃ t, exec .thermalTrip s = .next t ∧ t.halted = true ∧ t.imageDue = true ∧ t.power = 3 ∧ t.cur = s.cur ∧
      sameBytes s t ∧ ∀ c ∈ t.calls, c.paused ≠ none) ∧
    (let fail := x 0
     let old := x 1 < s.cfgVer
     let d := fun n => s.inp.data.getD n 0
     let held := fun (n : Nat) => ∃ t, exec .reset s = .next t ∧ t.boot = n ∧ t.bootFail = true ∧ t.bootCause = x 6 ∧ t.halted = true ∧
       t.stooks = []
     (fail = 1 → held 1) ∧ (fail = 2 → held 2) ∧ (fail ≠ 1 → fail ≠ 2 → fail = 3 ∨ old ∨ chmapOf (x 2) = none → held 3) ∧
     ∀ map, chmapOf (x 2) = some map →
     (¬old → 4 ≤ fail → fail ≤ 6 → held fail) ∧
     (¬old → fail = 5 → ∃ t, exec .reset s = .next t ∧ t.eseq = 1 ∧ (smGet Bank.empty t.banks 107).count = 1) ∧
     (¬old → fail = 0 → ∃ t, exec .reset s = .next t ∧ t.boot = 0 ∧ t.bootFail = false ∧ t.halted = false ∧ t.cur = Agent.none ∧
       t.agents = [] ∧ t.stooks = [] ∧ t.ctxs = [] ∧ t.eseq = 0 ∧ t.epoch = 0 ∧ t.power = 0 ∧ t.mhz = 1800 ∧ t.cfgVer = x 1 ∧
       t.chmap = map ∧ t.wcfg = wcfgOf (s.inp.a.drop 3) ∧ t.disabled = s.inp.tags.filter (fun c => decide (c < 128)) ∧
       (∀ n, smGet 0 t.attest n =
         if n < 3 then Config.sha3 ((leBytes 48 0 ++ leBytes 48 (d n)).map (·.toNat)) % 2 ^ 384 else 0) ∧
       (∀ loc, locClass loc = 1 ∨ locClass loc = 2 → rdByte t false loc = homeByte s loc) ∧
       ∀ c loc, locClass loc = 0 → rdByte t c loc = 0))

/-- Accesses of the host (R99, R105, R121, R399, R404): only the mailbox, with the boot's step and cause, answers while the boot has
failed; a read of HBM answers the bytes with their poison, a write lands, an atomic answers the old value and stores the new one,
a read of the doorbell page shows the fault ring's indexes or a queue's tail, a write-only register reads zero, a read of the
mailbox shows the boot's step and the loader's word, a snoop sends a host line's sectors home and answers them, and a SYSTEM
register of BAR0 reads, and takes a write, as it does for an MFC and an MTC.
The operations' numbers and the replies' words are the model's: logs 21, 80. -/
def Obligations.HostAccesses : Prop :=
  ∀ (s : State), s.latent = [] →
    let op := s.inp.a.getD 0 0
    let pa := s.inp.a.getD 1 0
    let d := fun n => s.inp.data.getD n 0
    let reply := fun (status len : Nat) (w : List Nat) => (⟨5, 256, 32, 16 + (len + 7) / 8 * 8, none, 0, 0, status :: pa :: w⟩ : Packet)
    let told := fun (t : State) (status len : Nat) (w : List Nat) =>
      exec .hostAccess s = .next { t with sent := s.sent ++ [reply status len w] }
    let answers := told s 0
    let refuses := told s 1 0 []
    (s.bootFail = true → op ≠ 5 → refuses) ∧
    (op = 5 → answers 48 [s.boot, s.bootCause, s.loader.toNat]) ∧
    (s.bootFail = false →
      (op = 0 → hbmEnd < pa + d 0 → refuses) ∧
      (op = 0 → pa + d 0 ≤ hbmEnd → answers (d 0) ((match rdTags s true pa (d 0) with
        | none => 0
        | some y => y.toNat + 1) :: (rdBytes s true pa (d 0)).map (·.toNat))) ∧
      (op = 1 → hbmEnd < pa + s.inp.data.length → refuses) ∧
      (op = 1 → pa + s.inp.data.length ≤ hbmEnd → pa % 32 = 0 → s.inp.data.length = 32 ∨ s.inp.data.length = 64 →
        ∃ t, exec .hostAccess s = .next t ∧ t.sent = s.sent ++ [reply 0 0 []] ∧ t.cur = s.cur ∧
          rdBytes t true pa s.inp.data.length = s.inp.data.map (BitVec.ofNat 8) ∧ sameBytesBut s t pa s.inp.data.length ∧
          smGet false t.measured (pa / 65536) = false) ∧
      (let size := d 1
       let taken := pa + size ≤ hbmEnd ∧ d 0 ≤ 2 ∧ (size = 4 ∨ size = 8) ∧ pa % size = 0
       let old := wd (leNat (rdBytes s true pa size))
       (op = 2 → ¬taken → refuses) ∧
       (op = 2 → taken → rdTags s true pa size = none → ∃ t, exec .hostAccess s = .next t ∧
         t.sent = s.sent ++ [reply 0 size [0, old.toNat]] ∧ t.cur = s.cur ∧ sameBytesBut s t pa size ∧
         rdBytes t true pa size = leBytes size (if d 0 = 0 then old.toNat + d 2 else if d 0 = 1 then d 2
           else if old = wd (d 3) then d 2 else old.toNat))) ∧
      (op = 3 → locClass pa ≠ 1 → answers 0 []) ∧
      (op = 3 → locClass pa = 1 → let line := pa / 64 * 64
        ∃ t, exec .hostAccess s = .next t ∧ t.cur = s.cur ∧
          t.sent = s.sent ++ [reply 0 64 ((rdBytes s true line 64).map (·.toNat))] ∧
          rdBytes t false line 64 = rdBytes s true line 64 ∧ (∀ loc, rdByte t true loc = rdByte s true loc) ∧
          smGet none t.cached (line / 32) = none ∧ smGet none t.cached (line / 32 + 1) = none) ∧
      (op = 4 → let o := pa % 4096
        let lq := lqGet s (pa / 4096 * 16 + o / 8)
        (o = 0x808 → answers 8 [(ringOf s (pa / 4096)).fprod.toNat + (ringOf s (pa / 4096)).fcons.toNat * 2 ^ 32]) ∧
        (o = 0x800 → answers 8 [0]) ∧ (o < 128 → o % 8 = 0 → answers 8 [lq.tail.toNat]) ∧
        (o ≠ 0x808 → o ≠ 0x800 → 128 ≤ o ∨ o % 8 ≠ 0 → refuses)) ∧
      (op = 6 ∨ op = 7 → deviceCreg pa = false → refuses) ∧
      (op = 6 → deviceCreg pa = true → answers 8 [(readCreg s pa).toNat]) ∧
      (op = 7 → deviceCreg pa = true →
        let v := wd (d 0)
        let idle := s.remap = none ∧ ∀ n, n < 11 → dieDeclared s n = false
        (pa = 0x200 → told { s with chcon := writeChcon s.chcon v } 0 0 []) ∧
        (pa = 0x201 → idle → v.toNat = chmapWord s.chmap → answers 0 []) ∧
        (∀ k, pa = 0x201 → idle → v.toNat ≠ chmapWord s.chmap → oneMove s v = some k →
          told { s with remap := some ⟨k, s.chmap.getD k 0, false⟩ } 0 0 []) ∧
        (pa = 0x201 → ¬idle ∨ (v.toNat ≠ chmapWord s.chmap ∧ oneMove s v = none) → told s 2 0 []) ∧
        (0x1000 ≤ pa → pa < 0x1400 → let p := (pa - 0x1000) / 32
          (∀ y, writeLink (portNow s p) s.time (pa % 32) v = some y → told (portPut s p y) 0 0 []) ∧
          (writeLink (portNow s p) s.time (pa % 32) v = none → told s 2 0 [])) ∧
        (0x1400 ≤ pa → answers 0 [])) ∧
      (7 < op → refuses))
end

