-- ==== Sys2Proof/Laws/Dispatch.lean ====
section
/-!
SUPPORT. Every constructor's arm of exec, one equation each, so that no later proof unfolds the dispatch.
-/
namespace Sys2Proof.Machine

open Sys2Proof

theorem exec_trap (n : Nat) (s0 : State) :
    exec (.trap n) s0 = execTrap n s0 := rfl
theorem exec_sadd (d : Nat) (a : Nat) (b : Nat) (s0 : State) :
    exec (.sadd d a b) s0 = execSadd d a b s0 := rfl
theorem exec_ssub (d : Nat) (a : Nat) (b : Nat) (s0 : State) :
    exec (.ssub d a b) s0 = execSsub d a b s0 := rfl
theorem exec_smul (d : Nat) (a : Nat) (b : Nat) (s0 : State) :
    exec (.smul d a b) s0 = execSmul d a b s0 := rfl
theorem exec_smulh (d : Nat) (a : Nat) (b : Nat) (s0 : State) :
    exec (.smulh d a b) s0 = execSmulh d a b s0 := rfl
theorem exec_smulhu (d : Nat) (a : Nat) (b : Nat) (s0 : State) :
    exec (.smulhu d a b) s0 = execSmulhu d a b s0 := rfl
theorem exec_sdiv (d : Nat) (a : Nat) (b : Nat) (s0 : State) :
    exec (.sdiv d a b) s0 = execSdiv d a b s0 := rfl
theorem exec_sdivu (d : Nat) (a : Nat) (b : Nat) (s0 : State) :
    exec (.sdivu d a b) s0 = execSdivu d a b s0 := rfl
theorem exec_srem (d : Nat) (a : Nat) (b : Nat) (s0 : State) :
    exec (.srem d a b) s0 = execSrem d a b s0 := rfl
theorem exec_sremu (d : Nat) (a : Nat) (b : Nat) (s0 : State) :
    exec (.sremu d a b) s0 = execSremu d a b s0 := rfl
theorem exec_sand (d : Nat) (a : Nat) (b : Nat) (s0 : State) :
    exec (.sand d a b) s0 = execSand d a b s0 := rfl
theorem exec_sor (d : Nat) (a : Nat) (b : Nat) (s0 : State) :
    exec (.sor d a b) s0 = execSor d a b s0 := rfl
theorem exec_sxor (d : Nat) (a : Nat) (b : Nat) (s0 : State) :
    exec (.sxor d a b) s0 = execSxor d a b s0 := rfl
theorem exec_sshl (d : Nat) (a : Nat) (b : Nat) (s0 : State) :
    exec (.sshl d a b) s0 = execSshl d a b s0 := rfl
theorem exec_sshr (d : Nat) (a : Nat) (b : Nat) (s0 : State) :
    exec (.sshr d a b) s0 = execSshr d a b s0 := rfl
theorem exec_ssar (d : Nat) (a : Nat) (b : Nat) (s0 : State) :
    exec (.ssar d a b) s0 = execSsar d a b s0 := rfl
theorem exec_smin (d : Nat) (a : Nat) (b : Nat) (s0 : State) :
    exec (.smin d a b) s0 = execSmin d a b s0 := rfl
theorem exec_sminu (d : Nat) (a : Nat) (b : Nat) (s0 : State) :
    exec (.sminu d a b) s0 = execSminu d a b s0 := rfl
theorem exec_smax (d : Nat) (a : Nat) (b : Nat) (s0 : State) :
    exec (.smax d a b) s0 = execSmax d a b s0 := rfl
theorem exec_smaxu (d : Nat) (a : Nat) (b : Nat) (s0 : State) :
    exec (.smaxu d a b) s0 = execSmaxu d a b s0 := rfl
theorem exec_sseq (d : Nat) (a : Nat) (b : Nat) (s0 : State) :
    exec (.sseq d a b) s0 = execSseq d a b s0 := rfl
theorem exec_ssne (d : Nat) (a : Nat) (b : Nat) (s0 : State) :
    exec (.ssne d a b) s0 = execSsne d a b s0 := rfl
theorem exec_sslt (d : Nat) (a : Nat) (b : Nat) (s0 : State) :
    exec (.sslt d a b) s0 = execSslt d a b s0 := rfl
theorem exec_ssltu (d : Nat) (a : Nat) (b : Nat) (s0 : State) :
    exec (.ssltu d a b) s0 = execSsltu d a b s0 := rfl
theorem exec_sclz (d : Nat) (a : Nat) (s0 : State) :
    exec (.sclz d a) s0 = execSclz d a s0 := rfl
theorem exec_spopc (d : Nat) (a : Nat) (s0 : State) :
    exec (.spopc d a) s0 = execSpopc d a s0 := rfl
theorem exec_saddi (d : Nat) (a : Nat) (i : Int) (s0 : State) :
    exec (.saddi d a i) s0 = execSaddi d a i s0 := rfl
theorem exec_sandi (d : Nat) (a : Nat) (i : Int) (s0 : State) :
    exec (.sandi d a i) s0 = execSandi d a i s0 := rfl
theorem exec_sori (d : Nat) (a : Nat) (i : Int) (s0 : State) :
    exec (.sori d a i) s0 = execSori d a i s0 := rfl
theorem exec_sxori (d : Nat) (a : Nat) (i : Int) (s0 : State) :
    exec (.sxori d a i) s0 = execSxori d a i s0 := rfl
theorem exec_sshli (d : Nat) (a : Nat) (i : Nat) (s0 : State) :
    exec (.sshli d a i) s0 = execSshli d a i s0 := rfl
theorem exec_sshri (d : Nat) (a : Nat) (i : Nat) (s0 : State) :
    exec (.sshri d a i) s0 = execSshri d a i s0 := rfl
theorem exec_ssari (d : Nat) (a : Nat) (i : Nat) (s0 : State) :
    exec (.ssari d a i) s0 = execSsari d a i s0 := rfl
theorem exec_sslti (d : Nat) (a : Nat) (i : Int) (s0 : State) :
    exec (.sslti d a i) s0 = execSslti d a i s0 := rfl
theorem exec_sli (d : Nat) (i : Int) (s0 : State) :
    exec (.sli d i) s0 = execSli d i s0 := rfl
theorem exec_sliw (d : Nat) (i : Int) (s0 : State) :
    exec (.sliw d i) s0 = execSliw d i s0 := rfl
theorem exec_slih (d : Nat) (i : Nat) (s0 : State) :
    exec (.slih d i) s0 = execSlih d i s0 := rfl
theorem exec_sget (d : Nat) (a : Nat) (b : Nat) (s0 : State) :
    exec (.sget d a b) s0 = execSget d a b s0 := rfl
theorem exec_vset (d : Nat) (a : Nat) (b : Nat) (s0 : State) :
    exec (.vset d a b) s0 = execVset d a b s0 := rfl
theorem exec_mode (m : Nat) (s0 : State) :
    exec (.mode m) s0 = execMode m s0 := rfl
theorem exec_bra (o : Int) (s0 : State) :
    exec (.bra o) s0 = execBra o s0 := rfl
theorem exec_call (o : Int) (s0 : State) :
    exec (.call o) s0 = execCall o s0 := rfl
theorem exec_jmp (a : Nat) (i : Int) (s0 : State) :
    exec (.jmp a i) s0 = execJmp a i s0 := rfl
theorem exec_callr (a : Nat) (i : Int) (s0 : State) :
    exec (.callr a i) s0 = execCallr a i s0 := rfl
theorem exec_bc (c : Nat) (h : Nat) (a : Nat) (o : Int) (s0 : State) :
    exec (.bc c h a o) s0 = execBc c h a o s0 := rfl
theorem exec_split (k : Nat) (n : Nat) (t : Int) (j : Int) (s0 : State) :
    exec (.split k n t j) s0 = execSplit k n t j s0 := rfl
theorem exec_anyb (k : Nat) (h : Nat) (o : Int) (s0 : State) :
    exec (.anyb k h o) s0 = execAnyb k h o s0 := rfl
theorem exec_allb (k : Nat) (h : Nat) (o : Int) (s0 : State) :
    exec (.allb k h o) s0 = execAllb k h o s0 := rfl
theorem exec_mfc (d : Nat) (c : Nat) (s0 : State) :
    exec (.mfc d c) s0 = execMfc d c s0 := rfl
theorem exec_mtc (a : Nat) (c : Nat) (s0 : State) :
    exec (.mtc a c) s0 = execMtc a c s0 := rfl
theorem exec_chmapWrite (v : Nat) (s0 : State) :
    exec (.chmapWrite v) s0 = execChmapWrite v s0 := rfl
theorem exec_nop (s0 : State) :
    exec (.nop) s0 = execNop s0 := rfl
theorem exec_join (s0 : State) :
    exec (.join) s0 = execJoin s0 := rfl
theorem exec_exit (s0 : State) :
    exec (.exit) s0 = execExit s0 := rfl
theorem exec_yield (s0 : State) :
    exec (.yield) s0 = execYield s0 := rfl
theorem exec_safept (n : Nat) (s0 : State) :
    exec (.safept n) s0 = execSafept n s0 := rfl
theorem exec_rdv (s0 : State) :
    exec (.rdv) s0 = execRdv s0 := rfl
theorem exec_eend (s0 : State) :
    exec (.eend) s0 = execEend s0 := rfl
theorem exec_clk (d : Nat) (s0 : State) :
    exec (.clk d) s0 = execClk d s0 := rfl
theorem exec_rft (s0 : State) :
    exec (.rft) s0 = execRft s0 := rfl
theorem exec_halt (s0 : State) :
    exec (.halt) s0 = execHalt s0 := rfl
theorem exec_tlbi (a : Nat) (s0 : State) :
    exec (.tlbi a) s0 = execTlbi a s0 := rfl
theorem exec_tlbiAll (s0 : State) :
    exec (.tlbiAll) s0 = execTlbiAll s0 := rfl
theorem exec_cflush (a : Nat) (s0 : State) :
    exec (.cflush a) s0 = execCflush a s0 := rfl
theorem exec_cinv (a : Nat) (s0 : State) :
    exec (.cinv a) s0 = execCinv a s0 := rfl
theorem exec_fence (k : Nat) (s : Nat) (s0 : State) :
    exec (.fence k s) s0 = execFence k s s0 := rfl
theorem exec_brk (n : Nat) (s0 : State) :
    exec (.brk n) s0 = execBrk n s0 := rfl
theorem exec_sysc (n : Nat) (s0 : State) :
    exec (.sysc n) s0 = execSysc n s0 := rfl
theorem exec_chinj (a : Nat) (s0 : State) :
    exec (.chinj a) s0 = execChinj a s0 := rfl
theorem exec_fork (a : Nat) (b : Nat) (s0 : State) :
    exec (.fork a b) s0 = execFork a b s0 := rfl
theorem exec_spawn (d : Nat) (a : Nat) (b : Nat) (s0 : State) :
    exec (.spawn d a b) s0 = execSpawn d a b s0 := rfl
theorem exec_cont (d : Nat) (a : Nat) (b : Nat) (s0 : State) :
    exec (.cont d a b) s0 = execCont d a b s0 := rfl
theorem exec_wait (l : Nat) (s : Nat) (c : Nat) (t : Nat) (s0 : State) :
    exec (.wait l s c t) s0 = execWait l s c t s0 := rfl
theorem exec_bari (n : Nat) (a : Nat) (i : Nat) (s0 : State) :
    exec (.bari n a i) s0 = execBari n a i s0 := rfl
theorem exec_bara (n : Nat) (a : Nat) (i : Nat) (s0 : State) :
    exec (.bara n a i) s0 = execBara n a i s0 := rfl
theorem exec_barw (n : Nat) (a : Nat) (i : Nat) (s0 : State) :
    exec (.barw n a i) s0 = execBarw n a i s0 := rfl
theorem exec_bars (n : Nat) (a : Nat) (i : Nat) (s0 : State) :
    exec (.bars n a i) s0 = execBars n a i s0 := rfl
theorem exec_barx (n : Nat) (a : Nat) (i : Nat) (s0 : State) :
    exec (.barx n a i) s0 = execBarx n a i s0 := rfl
theorem exec_barq (n : Nat) (d : Nat) (i : Nat) (s0 : State) :
    exec (.barq n d i) s0 = execBarq n d i s0 := rfl
theorem exec_qinit (n : Nat) (a : Nat) (i : Nat) (s0 : State) :
    exec (.qinit n a i) s0 = execQinit n a i s0 := rfl
theorem exec_qpush (n : Nat) (a : Nat) (i : Nat) (s0 : State) :
    exec (.qpush n a i) s0 = execQpush n a i s0 := rfl
theorem exec_qpop (n : Nat) (d : Nat) (i : Nat) (s0 : State) :
    exec (.qpop n d i) s0 = execQpop n d i s0 := rfl
theorem exec_qtry (n : Nat) (d : Nat) (i : Nat) (s0 : State) :
    exec (.qtry n d i) s0 = execQtry n d i s0 := rfl
theorem exec_qgrant (n : Nat) (a : Nat) (i : Nat) (s0 : State) :
    exec (.qgrant n a i) s0 = execQgrant n a i s0 := rfl
theorem exec_qstat (n : Nat) (d : Nat) (i : Nat) (s0 : State) :
    exec (.qstat n d i) s0 = execQstat n d i s0 := rfl
theorem exec_cpb (n : Nat) (a : Nat) (s0 : State) :
    exec (.cpb n a) s0 = execCpb n a s0 := rfl
theorem exec_cpbStatus (d : Nat) (a : Nat) (s0 : State) :
    exec (.cpbStatus d a) s0 = execCpbStatus d a s0 := rfl
theorem exec_cpl (d : Nat) (b : Nat) (a : Nat) (s0 : State) :
    exec (.cpl d b a) s0 = execCpl d b a s0 := rfl
theorem exec_mma (t : Nat) (a : Nat) (b : Nat) (f : Nat) (g : Nat) (m : Nat) (s0 : State) :
    exec (.mma t a b f g m) s0 = execMma t a b f g m s0 := rfl
theorem exec_mmaClr (t : Nat) (a : Nat) (b : Nat) (f : Nat) (g : Nat) (m : Nat) (s0 : State) :
    exec (.mmaClr t a b f g m) s0 = execMmaClr t a b f g m s0 := rfl
theorem exec_aclr (t : Nat) (f : Int) (s0 : State) :
    exec (.aclr t f) s0 = execAclr t f s0 := rfl
theorem exec_adrn (t : Nat) (a : Nat) (b : Nat) (f : Nat) (x : Nat) (s0 : State) :
    exec (.adrn t a b f x) s0 = execAdrn t a b f x s0 := rfl
theorem exec_skupd (d : Nat) (b : Nat) (a : Nat) (h : Nat) (s0 : State) :
    exec (.skupd d b a h) s0 = execSkupd d b a h s0 := rfl
theorem exec_skqry (d : Nat) (b : Nat) (a : Nat) (h : Nat) (s0 : State) :
    exec (.skqry d b a h) s0 = execSkqry d b a h s0 := rfl
theorem exec_skadd (n : Nat) (a : Nat) (b : Nat) (s0 : State) :
    exec (.skadd n a b) s0 = execSkadd n a b s0 := rfl
theorem exec_skclr (n : Nat) (a : Nat) (s0 : State) :
    exec (.skclr n a) s0 = execSkclr n a s0 := rfl
theorem exec_skdec (n : Nat) (a : Nat) (b : Nat) (s0 : State) :
    exec (.skdec n a b) s0 = execSkdec n a b s0 := rfl
theorem exec_nwr (d : Nat) (a : Nat) (b : Nat) (s0 : State) :
    exec (.nwr d a b) s0 = execNwr d a b s0 := rfl
theorem exec_nrd (d : Nat) (a : Nat) (b : Nat) (s0 : State) :
    exec (.nrd d a b) s0 = execNrd d a b s0 := rfl
theorem exec_nred (d : Nat) (a : Nat) (b : Nat) (s0 : State) :
    exec (.nred d a b) s0 = execNred d a b s0 := rfl
theorem exec_ccall (n : Nat) (a : Nat) (s0 : State) :
    exec (.ccall n a) s0 = execCcall n a s0 := rfl
theorem exec_ccallStatus (d : Nat) (a : Nat) (s0 : State) :
    exec (.ccallStatus d a) s0 = execCcallStatus d a s0 := rfl
theorem exec_xalloc (d : Nat) (a : Nat) (b : Nat) (s0 : State) :
    exec (.xalloc d a b) s0 = execXalloc d a b s0 := rfl
theorem exec_xfree (d : Nat) (a : Nat) (b : Nat) (s0 : State) :
    exec (.xfree d a b) s0 = execXfree d a b s0 := rfl
theorem exec_xquota (d : Nat) (a : Nat) (b : Nat) (s0 : State) :
    exec (.xquota d a b) s0 = execXquota d a b s0 := rfl
theorem exec_rng (d : Nat) (a : Nat) (b : Nat) (s0 : State) :
    exec (.rng d a b) s0 = execRng d a b s0 := rfl
theorem exec_add (d : Nat) (a : Nat) (b : Nat) (s0 : State) :
    exec (.add d a b) s0 = execAdd d a b s0 := rfl
theorem exec_addScalar (d : Nat) (a : Nat) (b : Nat) (s0 : State) :
    exec (.addScalar d a b) s0 = execAddScalar d a b s0 := rfl
theorem exec_sub (d : Nat) (a : Nat) (b : Nat) (s0 : State) :
    exec (.sub d a b) s0 = execSub d a b s0 := rfl
theorem exec_subScalar (d : Nat) (a : Nat) (b : Nat) (s0 : State) :
    exec (.subScalar d a b) s0 = execSubScalar d a b s0 := rfl
theorem exec_mul (d : Nat) (a : Nat) (b : Nat) (s0 : State) :
    exec (.mul d a b) s0 = execMul d a b s0 := rfl
theorem exec_mulScalar (d : Nat) (a : Nat) (b : Nat) (s0 : State) :
    exec (.mulScalar d a b) s0 = execMulScalar d a b s0 := rfl
theorem exec_mulh (d : Nat) (a : Nat) (b : Nat) (s0 : State) :
    exec (.mulh d a b) s0 = execMulh d a b s0 := rfl
theorem exec_mulhScalar (d : Nat) (a : Nat) (b : Nat) (s0 : State) :
    exec (.mulhScalar d a b) s0 = execMulhScalar d a b s0 := rfl
theorem exec_mad (d : Nat) (a : Nat) (b : Nat) (s0 : State) :
    exec (.mad d a b) s0 = execMad d a b s0 := rfl
theorem exec_madScalar (d : Nat) (a : Nat) (b : Nat) (s0 : State) :
    exec (.madScalar d a b) s0 = execMadScalar d a b s0 := rfl
theorem exec_div (d : Nat) (a : Nat) (b : Nat) (s0 : State) :
    exec (.div d a b) s0 = execDiv d a b s0 := rfl
theorem exec_divScalar (d : Nat) (a : Nat) (b : Nat) (s0 : State) :
    exec (.divScalar d a b) s0 = execDivScalar d a b s0 := rfl
theorem exec_rem (d : Nat) (a : Nat) (b : Nat) (s0 : State) :
    exec (.rem d a b) s0 = execRem d a b s0 := rfl
theorem exec_remScalar (d : Nat) (a : Nat) (b : Nat) (s0 : State) :
    exec (.remScalar d a b) s0 = execRemScalar d a b s0 := rfl
theorem exec_min (d : Nat) (a : Nat) (b : Nat) (s0 : State) :
    exec (.min d a b) s0 = execMin d a b s0 := rfl
theorem exec_minScalar (d : Nat) (a : Nat) (b : Nat) (s0 : State) :
    exec (.minScalar d a b) s0 = execMinScalar d a b s0 := rfl
theorem exec_max (d : Nat) (a : Nat) (b : Nat) (s0 : State) :
    exec (.max d a b) s0 = execMax d a b s0 := rfl
theorem exec_maxScalar (d : Nat) (a : Nat) (b : Nat) (s0 : State) :
    exec (.maxScalar d a b) s0 = execMaxScalar d a b s0 := rfl
theorem exec_and (d : Nat) (a : Nat) (b : Nat) (s0 : State) :
    exec (.and d a b) s0 = execAnd d a b s0 := rfl
theorem exec_andScalar (d : Nat) (a : Nat) (b : Nat) (s0 : State) :
    exec (.andScalar d a b) s0 = execAndScalar d a b s0 := rfl
theorem exec_or (d : Nat) (a : Nat) (b : Nat) (s0 : State) :
    exec (.or d a b) s0 = execOr d a b s0 := rfl
theorem exec_orScalar (d : Nat) (a : Nat) (b : Nat) (s0 : State) :
    exec (.orScalar d a b) s0 = execOrScalar d a b s0 := rfl
theorem exec_xor (d : Nat) (a : Nat) (b : Nat) (s0 : State) :
    exec (.xor d a b) s0 = execXor d a b s0 := rfl
theorem exec_xorScalar (d : Nat) (a : Nat) (b : Nat) (s0 : State) :
    exec (.xorScalar d a b) s0 = execXorScalar d a b s0 := rfl
theorem exec_shl (d : Nat) (a : Nat) (b : Nat) (s0 : State) :
    exec (.shl d a b) s0 = execShl d a b s0 := rfl
theorem exec_shlScalar (d : Nat) (a : Nat) (b : Nat) (s0 : State) :
    exec (.shlScalar d a b) s0 = execShlScalar d a b s0 := rfl
theorem exec_shr (d : Nat) (a : Nat) (b : Nat) (s0 : State) :
    exec (.shr d a b) s0 = execShr d a b s0 := rfl
theorem exec_shrScalar (d : Nat) (a : Nat) (b : Nat) (s0 : State) :
    exec (.shrScalar d a b) s0 = execShrScalar d a b s0 := rfl
theorem exec_sar (d : Nat) (a : Nat) (b : Nat) (s0 : State) :
    exec (.sar d a b) s0 = execSar d a b s0 := rfl
theorem exec_sarScalar (d : Nat) (a : Nat) (b : Nat) (s0 : State) :
    exec (.sarScalar d a b) s0 = execSarScalar d a b s0 := rfl
theorem exec_sel (d : Nat) (a : Nat) (b : Nat) (s0 : State) :
    exec (.sel d a b) s0 = execSel d a b s0 := rfl
theorem exec_selScalar (d : Nat) (a : Nat) (b : Nat) (s0 : State) :
    exec (.selScalar d a b) s0 = execSelScalar d a b s0 := rfl
theorem exec_abs (d : Nat) (a : Nat) (s0 : State) :
    exec (.abs d a) s0 = execAbs d a s0 := rfl
theorem exec_neg (d : Nat) (a : Nat) (s0 : State) :
    exec (.neg d a) s0 = execNeg d a s0 := rfl
theorem exec_not (d : Nat) (a : Nat) (s0 : State) :
    exec (.not d a) s0 = execNot d a s0 := rfl
theorem exec_clz (d : Nat) (a : Nat) (s0 : State) :
    exec (.clz d a) s0 = execClz d a s0 := rfl
theorem exec_popc (d : Nat) (a : Nat) (s0 : State) :
    exec (.popc d a) s0 = execPopc d a s0 := rfl
theorem exec_mov (d : Nat) (b : Nat) (s0 : State) :
    exec (.mov d b) s0 = execMov d b s0 := rfl
theorem exec_movScalar (d : Nat) (b : Nat) (s0 : State) :
    exec (.movScalar d b) s0 = execMovScalar d b s0 := rfl
theorem exec_lid (d : Nat) (s0 : State) :
    exec (.lid d) s0 = execLid d s0 := rfl
theorem exec_cvt (d : Nat) (a : Nat) (t : Nat) (s0 : State) :
    exec (.cvt d a t) s0 = execCvt d a t s0 := rfl
theorem exec_rcp (d : Nat) (a : Nat) (s0 : State) :
    exec (.rcp d a) s0 = execRcp d a s0 := rfl
theorem exec_rsq (d : Nat) (a : Nat) (s0 : State) :
    exec (.rsq d a) s0 = execRsq d a s0 := rfl
theorem exec_sqrt (d : Nat) (a : Nat) (s0 : State) :
    exec (.sqrt d a) s0 = execSqrt d a s0 := rfl
theorem exec_exp2 (d : Nat) (a : Nat) (s0 : State) :
    exec (.exp2 d a) s0 = execExp2 d a s0 := rfl
theorem exec_log2 (d : Nat) (a : Nat) (s0 : State) :
    exec (.log2 d a) s0 = execLog2 d a s0 := rfl
theorem exec_sinp (d : Nat) (a : Nat) (s0 : State) :
    exec (.sinp d a) s0 = execSinp d a s0 := rfl
theorem exec_cosp (d : Nat) (a : Nat) (s0 : State) :
    exec (.cosp d a) s0 = execCosp d a s0 := rfl
theorem exec_rint (d : Nat) (a : Nat) (s0 : State) :
    exec (.rint d a) s0 = execRint d a s0 := rfl
theorem exec_addi (d : Nat) (a : Nat) (i : Int) (s0 : State) :
    exec (.addi d a i) s0 = execAddi d a i s0 := rfl
theorem exec_andi (d : Nat) (a : Nat) (i : Int) (s0 : State) :
    exec (.andi d a i) s0 = execAndi d a i s0 := rfl
theorem exec_shli (d : Nat) (a : Nat) (i : Nat) (s0 : State) :
    exec (.shli d a i) s0 = execShli d a i s0 := rfl
theorem exec_shri (d : Nat) (a : Nat) (i : Nat) (s0 : State) :
    exec (.shri d a i) s0 = execShri d a i s0 := rfl
theorem exec_sari (d : Nat) (a : Nat) (i : Nat) (s0 : State) :
    exec (.sari d a i) s0 = execSari d a i s0 := rfl
theorem exec_muli (d : Nat) (a : Nat) (i : Int) (s0 : State) :
    exec (.muli d a i) s0 = execMuli d a i s0 := rfl
theorem exec_cmp (m : Nat) (c : Nat) (a : Nat) (b : Nat) (s0 : State) :
    exec (.cmp m c a b) s0 = execCmp m c a b s0 := rfl
theorem exec_cmpScalar (m : Nat) (c : Nat) (a : Nat) (b : Nat) (s0 : State) :
    exec (.cmpScalar m c a b) s0 = execCmpScalar m c a b s0 := rfl
theorem exec_cmpi (m : Nat) (c : Nat) (a : Nat) (i : Int) (s0 : State) :
    exec (.cmpi m c a i) s0 = execCmpi m c a i s0 := rfl
theorem exec_mand (d : Nat) (a : Nat) (b : Nat) (s0 : State) :
    exec (.mand d a b) s0 = execMand d a b s0 := rfl
theorem exec_mor (d : Nat) (a : Nat) (b : Nat) (s0 : State) :
    exec (.mor d a b) s0 = execMor d a b s0 := rfl
theorem exec_mxor (d : Nat) (a : Nat) (b : Nat) (s0 : State) :
    exec (.mxor d a b) s0 = execMxor d a b s0 := rfl
theorem exec_mandn (d : Nat) (a : Nat) (b : Nat) (s0 : State) :
    exec (.mandn d a b) s0 = execMandn d a b s0 := rfl
theorem exec_mnot (d : Nat) (a : Nat) (s0 : State) :
    exec (.mnot d a) s0 = execMnot d a s0 := rfl
theorem exec_mset (k : Nat) (a : Nat) (s0 : State) :
    exec (.mset k a) s0 = execMset k a s0 := rfl
theorem exec_mget (d : Nat) (k : Nat) (s0 : State) :
    exec (.mget d k) s0 = execMget d k s0 := rfl
theorem exec_mpop (d : Nat) (k : Nat) (s0 : State) :
    exec (.mpop d k) s0 = execMpop d k s0 := rfl
theorem exec_mfst (d : Nat) (k : Nat) (s0 : State) :
    exec (.mfst d k) s0 = execMfst d k s0 := rfl
theorem exec_shfl (d : Nat) (a : Nat) (b : Nat) (s0 : State) :
    exec (.shfl d a b) s0 = execShfl d a b s0 := rfl
theorem exec_shflScalar (d : Nat) (a : Nat) (b : Nat) (s0 : State) :
    exec (.shflScalar d a b) s0 = execShflScalar d a b s0 := rfl
theorem exec_shflx (d : Nat) (a : Nat) (i : Int) (s0 : State) :
    exec (.shflx d a i) s0 = execShflx d a i s0 := rfl
theorem exec_shflu (d : Nat) (a : Nat) (i : Int) (s0 : State) :
    exec (.shflu d a i) s0 = execShflu d a i s0 := rfl
theorem exec_shfld (d : Nat) (a : Nat) (i : Int) (s0 : State) :
    exec (.shfld d a i) s0 = execShfld d a i s0 := rfl
theorem exec_bcast (d : Nat) (a : Nat) (i : Int) (s0 : State) :
    exec (.bcast d a i) s0 = execBcast d a i s0 := rfl
theorem exec_rsum (d : Nat) (a : Nat) (s0 : State) :
    exec (.rsum d a) s0 = execRsum d a s0 := rfl
theorem exec_rmin (d : Nat) (a : Nat) (s0 : State) :
    exec (.rmin d a) s0 = execRmin d a s0 := rfl
theorem exec_rmax (d : Nat) (a : Nat) (s0 : State) :
    exec (.rmax d a) s0 = execRmax d a s0 := rfl
theorem exec_rand (d : Nat) (a : Nat) (s0 : State) :
    exec (.rand d a) s0 = execRand d a s0 := rfl
theorem exec_ror (d : Nat) (a : Nat) (s0 : State) :
    exec (.ror d a) s0 = execRor d a s0 := rfl
theorem exec_rxor (d : Nat) (a : Nat) (s0 : State) :
    exec (.rxor d a) s0 = execRxor d a s0 := rfl
theorem exec_psum (d : Nat) (a : Nat) (s0 : State) :
    exec (.psum d a) s0 = execPsum d a s0 := rfl
theorem exec_psumx (d : Nat) (a : Nat) (s0 : State) :
    exec (.psumx d a) s0 = execPsumx d a s0 := rfl
theorem exec_pmin (d : Nat) (a : Nat) (s0 : State) :
    exec (.pmin d a) s0 = execPmin d a s0 := rfl
theorem exec_pmax (d : Nat) (a : Nat) (s0 : State) :
    exec (.pmax d a) s0 = execPmax d a s0 := rfl
theorem exec_sort (d : Nat) (a : Nat) (s0 : State) :
    exec (.sort d a) s0 = execSort d a s0 := rfl
theorem exec_sorti (d : Nat) (a : Nat) (s0 : State) :
    exec (.sorti d a) s0 = execSorti d a s0 := rfl
theorem exec_mrglo (d : Nat) (a : Nat) (b : Nat) (s0 : State) :
    exec (.mrglo d a b) s0 = execMrglo d a b s0 := rfl
theorem exec_mrghi (d : Nat) (a : Nat) (b : Nat) (s0 : State) :
    exec (.mrghi d a b) s0 = execMrghi d a b s0 := rfl
theorem exec_mrgi (d : Nat) (a : Nat) (b : Nat) (s0 : State) :
    exec (.mrgi d a b) s0 = execMrgi d a b s0 := rfl
theorem exec_lds (d : Nat) (a : Nat) (z : Nat) (o : Int) (s0 : State) :
    exec (.lds d a z o) s0 = execLds d a z o s0 := rfl
theorem exec_sts (d : Nat) (a : Nat) (z : Nat) (o : Int) (s0 : State) :
    exec (.sts d a z o) s0 = execSts d a z o s0 := rfl
theorem exec_ldaq (d : Nat) (a : Nat) (c : Nat) (w : Nat) (o : Int) (s0 : State) :
    exec (.ldaq d a c w o) s0 = execLdaq d a c w o s0 := rfl
theorem exec_strl (d : Nat) (a : Nat) (c : Nat) (w : Nat) (o : Int) (s0 : State) :
    exec (.strl d a c w o) s0 = execStrl d a c w o s0 := rfl
theorem exec_ldc (d : Nat) (a : Nat) (o : Int) (z : Nat) (s0 : State) :
    exec (.ldc d a o z) s0 = execLdc d a o z s0 := rfl
theorem exec_stc (d : Nat) (a : Nat) (o : Int) (z : Nat) (s0 : State) :
    exec (.stc d a o z) s0 = execStc d a o z s0 := rfl
theorem exec_ldv (d : Nat) (b : Nat) (a : Nat) (z : Nat) (h : Nat) (s0 : State) :
    exec (.ldv d b a z h) s0 = execLdv d b a z h s0 := rfl
theorem exec_stv (d : Nat) (b : Nat) (a : Nat) (z : Nat) (h : Nat) (s0 : State) :
    exec (.stv d b a z h) s0 = execStv d b a z h s0 := rfl
theorem exec_pref (a : Nat) (l : Nat) (o : Int) (s0 : State) :
    exec (.pref a l o) s0 = execPref a l o s0 := rfl
theorem exec_atadd (d : Nat) (a : Nat) (b : Nat) (h : Nat) (s0 : State) :
    exec (.atadd d a b h) s0 = execAtadd d a b h s0 := rfl
theorem exec_atmin (d : Nat) (a : Nat) (b : Nat) (h : Nat) (s0 : State) :
    exec (.atmin d a b h) s0 = execAtmin d a b h s0 := rfl
theorem exec_atmax (d : Nat) (a : Nat) (b : Nat) (h : Nat) (s0 : State) :
    exec (.atmax d a b h) s0 = execAtmax d a b h s0 := rfl
theorem exec_atand (d : Nat) (a : Nat) (b : Nat) (h : Nat) (s0 : State) :
    exec (.atand d a b h) s0 = execAtand d a b h s0 := rfl
theorem exec_ator (d : Nat) (a : Nat) (b : Nat) (h : Nat) (s0 : State) :
    exec (.ator d a b h) s0 = execAtor d a b h s0 := rfl
theorem exec_atxor (d : Nat) (a : Nat) (b : Nat) (h : Nat) (s0 : State) :
    exec (.atxor d a b h) s0 = execAtxor d a b h s0 := rfl
theorem exec_atxch (d : Nat) (a : Nat) (b : Nat) (h : Nat) (s0 : State) :
    exec (.atxch d a b h) s0 = execAtxch d a b h s0 := rfl
theorem exec_atcas (d : Nat) (a : Nat) (b : Nat) (h : Nat) (s0 : State) :
    exec (.atcas d a b h) s0 = execAtcas d a b h s0 := rfl
theorem exec_impreciseTrapDelivery (s0 : State) :
    exec (.impreciseTrapDelivery) s0 = execImpreciseTrapDelivery s0 := rfl
theorem exec_memoryResponse (s0 : State) :
    exec (.memoryResponse) s0 = execMemoryResponse s0 := rfl
theorem exec_storeAck (s0 : State) :
    exec (.storeAck) s0 = execStoreAck s0 := rfl
theorem exec_frespWrite (s0 : State) :
    exec (.frespWrite) s0 = execFrespWrite s0 := rfl
theorem exec_faultReplay (s0 : State) :
    exec (.faultReplay) s0 = execFaultReplay s0 := rfl
theorem exec_faultDoorbellRepeat (s0 : State) :
    exec (.faultDoorbellRepeat) s0 = execFaultDoorbellRepeat s0 := rfl
theorem exec_faultRingRetry (s0 : State) :
    exec (.faultRingRetry) s0 = execFaultRingRetry s0 := rfl
theorem exec_epochTick (s0 : State) :
    exec (.epochTick) s0 = execEpochTick s0 := rfl
theorem exec_pinRelease (s0 : State) :
    exec (.pinRelease) s0 = execPinRelease s0 := rfl
theorem exec_nearAtomicService (s0 : State) :
    exec (.nearAtomicService) s0 = execNearAtomicService s0 := rfl
theorem exec_atomicServiceRestart (s0 : State) :
    exec (.atomicServiceRestart) s0 = execAtomicServiceRestart s0 := rfl
theorem exec_copyExecute (s0 : State) :
    exec (.copyExecute) s0 = execCopyExecute s0 := rfl
theorem exec_copyComplete (s0 : State) :
    exec (.copyComplete) s0 = execCopyComplete s0 := rfl
theorem exec_followOnMma (s0 : State) :
    exec (.followOnMma) s0 = execFollowOnMma s0 := rfl
theorem exec_cplLaneLand (s0 : State) :
    exec (.cplLaneLand) s0 = execCplLaneLand s0 := rfl
theorem exec_tileOpStart (s0 : State) :
    exec (.tileOpStart) s0 = execTileOpStart s0 := rfl
theorem exec_mmaComplete (s0 : State) :
    exec (.mmaComplete) s0 = execMmaComplete s0 := rfl
theorem exec_adrnComplete (s0 : State) :
    exec (.adrnComplete) s0 = execAdrnComplete s0 := rfl
theorem exec_sketchCounterStep (s0 : State) :
    exec (.sketchCounterStep) s0 = execSketchCounterStep s0 := rfl
theorem exec_skopCounterStep (s0 : State) :
    exec (.skopCounterStep) s0 = execSkopCounterStep s0 := rfl
theorem exec_skqryResponse (s0 : State) :
    exec (.skqryResponse) s0 = execSkqryResponse s0 := rfl
theorem exec_dieLastingFault (s0 : State) :
    exec (.dieLastingFault) s0 = execDieLastingFault s0 := rfl
theorem exec_errorWindowBoundary (s0 : State) :
    exec (.errorWindowBoundary) s0 = execErrorWindowBoundary s0 := rfl
theorem exec_rowGroupRetire (s0 : State) :
    exec (.rowGroupRetire) s0 = execRowGroupRetire s0 := rfl
theorem exec_wavelengthRetire (s0 : State) :
    exec (.wavelengthRetire) s0 = execWavelengthRetire s0 := rfl
theorem exec_bankAcknowledge (s0 : State) :
    exec (.bankAcknowledge) s0 = execBankAcknowledge s0 := rfl
theorem exec_sequencerStart (s0 : State) :
    exec (.sequencerStart) s0 = execSequencerStart s0 := rfl
theorem exec_tailWrite (s0 : State) :
    exec (.tailWrite) s0 = execTailWrite s0 := rfl
theorem exec_launchTake (s0 : State) :
    exec (.launchTake) s0 = execLaunchTake s0 := rfl
theorem exec_recordAdmit (s0 : State) :
    exec (.recordAdmit) s0 = execRecordAdmit s0 := rfl
theorem exec_stookEnd (s0 : State) :
    exec (.stookEnd) s0 = execStookEnd s0 := rfl
theorem exec_sheafSwap (s0 : State) :
    exec (.sheafSwap) s0 = execSheafSwap s0 := rfl
theorem exec_sheafDisplace (s0 : State) :
    exec (.sheafDisplace) s0 = execSheafDisplace s0 := rfl
theorem exec_preemptRequest (s0 : State) :
    exec (.preemptRequest) s0 = execPreemptRequest s0 := rfl
theorem exec_preemptDeadline (s0 : State) :
    exec (.preemptDeadline) s0 = execPreemptDeadline s0 := rfl
theorem exec_preemptResume (s0 : State) :
    exec (.preemptResume) s0 = execPreemptResume s0 := rfl
theorem exec_flitBoundary (s0 : State) :
    exec (.flitBoundary) s0 = execFlitBoundary s0 := rfl
theorem exec_flitReceive (s0 : State) :
    exec (.flitReceive) s0 = execFlitReceive s0 := rfl
theorem exec_retry (s0 : State) :
    exec (.retry) s0 = execRetry s0 := rfl
theorem exec_berThreshold (s0 : State) :
    exec (.berThreshold) s0 = execBerThreshold s0 := rfl
theorem exec_retrain (s0 : State) :
    exec (.retrain) s0 = execRetrain s0 := rfl
theorem exec_traindone (s0 : State) :
    exec (.traindone) s0 = execTraindone s0 := rfl
theorem exec_trainingTimeout (s0 : State) :
    exec (.trainingTimeout) s0 = execTrainingTimeout s0 := rfl
theorem exec_berWindow (s0 : State) :
    exec (.berWindow) s0 = execBerWindow s0 := rfl
theorem exec_linkTrain (s0 : State) :
    exec (.linkTrain) s0 = execLinkTrain s0 := rfl
theorem exec_linkPark (s0 : State) :
    exec (.linkPark) s0 = execLinkPark s0 := rfl
theorem exec_parkset (s0 : State) :
    exec (.parkset) s0 = execParkset s0 := rfl
theorem exec_wake (s0 : State) :
    exec (.wake) s0 = execWake s0 := rfl
theorem exec_aligned (s0 : State) :
    exec (.aligned) s0 = execAligned s0 := rfl
theorem exec_wakeComplete (s0 : State) :
    exec (.wakeComplete) s0 = execWakeComplete s0 := rfl
theorem exec_beacon (s0 : State) :
    exec (.beacon) s0 = execBeacon s0 := rfl
theorem exec_fabricRequest (s0 : State) :
    exec (.fabricRequest) s0 = execFabricRequest s0 := rfl
theorem exec_granaryRequest (s0 : State) :
    exec (.granaryRequest) s0 = execGranaryRequest s0 := rfl
theorem exec_xmemResult (s0 : State) :
    exec (.xmemResult) s0 = execXmemResult s0 := rfl
theorem exec_responseTimeout (s0 : State) :
    exec (.responseTimeout) s0 = execResponseTimeout s0 := rfl
theorem exec_granaryLost (s0 : State) :
    exec (.granaryLost) s0 = execGranaryLost s0 := rfl
theorem exec_firstPacket (s0 : State) :
    exec (.firstPacket) s0 = execFirstPacket s0 := rfl
theorem exec_collectiveAbort (s0 : State) :
    exec (.collectiveAbort) s0 = execCollectiveAbort s0 := rfl
theorem exec_pause (s0 : State) :
    exec (.pause) s0 = execPause s0 := rfl
theorem exec_resume (s0 : State) :
    exec (.resume) s0 = execResume s0 := rfl
theorem exec_pauseQuotaRelease (s0 : State) :
    exec (.pauseQuotaRelease) s0 = execPauseQuotaRelease s0 := rfl
theorem exec_pauseBudgetExpire (s0 : State) :
    exec (.pauseBudgetExpire) s0 = execPauseBudgetExpire s0 := rfl
theorem exec_slotOccurrence (s0 : State) :
    exec (.slotOccurrence) s0 = execSlotOccurrence s0 := rfl
theorem exec_collectiveComplete (s0 : State) :
    exec (.collectiveComplete) s0 = execCollectiveComplete s0 := rfl
theorem exec_groupTableWrite (s0 : State) :
    exec (.groupTableWrite) s0 = execGroupTableWrite s0 := rfl
theorem exec_graticuleWrite (s0 : State) :
    exec (.graticuleWrite) s0 = execGraticuleWrite s0 := rfl
theorem exec_loaderRequest (s0 : State) :
    exec (.loaderRequest) s0 = execLoaderRequest s0 := rfl
theorem exec_contextRegister (s0 : State) :
    exec (.contextRegister) s0 = execContextRegister s0 := rfl
theorem exec_readbackRegister (s0 : State) :
    exec (.readbackRegister) s0 = execReadbackRegister s0 := rfl
theorem exec_reset (s0 : State) :
    exec (.reset) s0 = execReset s0 := rfl
theorem exec_powerCap (s0 : State) :
    exec (.powerCap) s0 = execPowerCap s0 := rfl
theorem exec_idleEntry (s0 : State) :
    exec (.idleEntry) s0 = execIdleEntry s0 := rfl
theorem exec_idleExit (s0 : State) :
    exec (.idleExit) s0 = execIdleExit s0 := rfl
theorem exec_thermalTrip (s0 : State) :
    exec (.thermalTrip) s0 = execThermalTrip s0 := rfl
theorem exec_reservedEncoding (s0 : State) :
    exec (.reservedEncoding) s0 = execReservedEncoding s0 := rfl
theorem exec_fetchFault (s0 : State) :
    exec (.fetchFault) s0 = execFetchFault s0 := rfl
theorem exec_hostAccess (s0 : State) :
    exec (.hostAccess) s0 = execHostAccess s0 := rfl
theorem exec_collectiveContribution (s0 : State) :
    exec (.collectiveContribution) s0 = execCollectiveContribution s0 := rfl
theorem exec_aclrComplete (s0 : State) :
    exec (.aclrComplete) s0 = execAclrComplete s0 := rfl
theorem exec_chinjComplete (s0 : State) :
    exec (.chinjComplete) s0 = execChinjComplete s0 := rfl
theorem exec_remapComplete (s0 : State) :
    exec (.remapComplete) s0 = execRemapComplete s0 := rfl
theorem exec_readbackRequest (s0 : State) :
    exec (.readbackRequest) s0 = execReadbackRequest s0 := rfl
theorem exec_quoteRequest (s0 : State) :
    exec (.quoteRequest) s0 = execQuoteRequest s0 := rfl

end Sys2Proof.Machine
end

