-- ==== Sys2Proof/Laws/Sparse.lean ====
section
/-!
SUPPORT. What the operations of Machine/Sparse.lean do: a read after a write, and that every write keeps the canonical form.
-/
namespace Sys2Proof.Machine

variable {α : Type} [DecidableEq α] {d : α}

/-- The keys of a canonical list's tail lie above its head, and the tail is canonical. -/
theorem smWf_cons {k : Nat} {v : α} {r : List (Nat × α)} :
    smWf d ((k, v) :: r) = true ↔ v ≠ d ∧ (∀ p ∈ r, k < p.1) ∧ smWf d r = true := by
  simp [smWf, and_assoc]

omit [DecidableEq α] in
/-- A key below every listed key reads as the default. -/
theorem smGet_below {m : List (Nat × α)} {i : Nat} (h : ∀ p ∈ m, i < p.1) : smGet d m i = d := by
  induction m with
  | nil => rfl
  | cons p r ih =>
    obtain ⟨k, v⟩ := p
    have hk : i < k := h (k, v) (by simp)
    have : k ≠ i := by omega
    simp only [smGet, this, if_false]
    exact ih (fun q hq => h q (by simp [hq]))

omit [DecidableEq α] in
/-- Every key of a list with an insertion was there or is the key inserted. -/
theorem smIns_keys {m : List (Nat × α)} {i : Nat} {v : α} {p : Nat × α} (h : p ∈ smIns m i v) : p ∈ m ∨ p.1 = i := by
  induction m with
  | nil => simp only [smIns, List.mem_singleton] at h; exact .inr (by rw [h])
  | cons q r ih =>
    obtain ⟨k, x⟩ := q
    simp only [smIns] at h
    split at h
    · rcases List.mem_cons.1 h with rfl | h
      · exact .inr rfl
      · exact .inl h
    · split at h
      · rcases List.mem_cons.1 h with rfl | h
        · exact .inr rfl
        · exact .inl (List.mem_cons_of_mem _ h)
      · rcases List.mem_cons.1 h with rfl | h
        · simp
        · rcases ih h with h | h
          · exact .inl (List.mem_cons_of_mem _ h)
          · exact .inr h

/-- Removing entries keeps the canonical form. -/
theorem smFilter_wf {m : List (Nat × α)} {f : Nat × α → Bool} (h : smWf d m = true) : smWf d (m.filter f) = true := by
  induction m with
  | nil => rfl
  | cons q r ih =>
    obtain ⟨k, x⟩ := q
    obtain ⟨hx, hk, hr⟩ := smWf_cons.1 h
    simp only [List.filter_cons]
    split
    · exact smWf_cons.2 ⟨hx, fun p hp => hk p (List.mem_filter.1 hp).1, ih hr⟩
    · exact ih hr

/-- An insertion of a value that is not the default keeps the canonical form. -/
theorem smIns_wf {m : List (Nat × α)} {i : Nat} {v : α} (hv : v ≠ d) (h : smWf d m = true) :
    smWf d (smIns m i v) = true := by
  induction m with
  | nil => simp [smIns, smWf, hv]
  | cons q r ih =>
    obtain ⟨k, x⟩ := q
    obtain ⟨hx, hk, hr⟩ := smWf_cons.1 h
    simp only [smIns]
    split
    · next hlt =>
      refine smWf_cons.2 ⟨hv, ?_, h⟩
      intro p hp
      rcases List.mem_cons.1 hp with rfl | hp
      · exact hlt
      · have := hk p hp; omega
    · split
      · next heq => subst heq; exact smWf_cons.2 ⟨hv, hk, hr⟩
      · refine smWf_cons.2 ⟨hx, ?_, ih hr⟩
        intro p hp
        rcases smIns_keys hp with hp | hp
        · exact hk p hp
        · omega

/-- A write keeps the canonical form. -/
theorem smPut_wf {m : List (Nat × α)} {i : Nat} {v : α} (h : smWf d m = true) : smWf d (smPut d m i v) = true := by
  unfold smPut
  split
  · exact smFilter_wf h
  · next hv => exact smIns_wf hv h

omit [DecidableEq α] in
/-- A read after an insertion, whatever the list's form. -/
theorem smGet_smIns {m : List (Nat × α)} {i j : Nat} {v : α} :
    smGet d (smIns m i v) j = if j = i then v else smGet d m j := by
  induction m with
  | nil => simp only [smIns, smGet, eq_comm]
  | cons q r ih =>
    obtain ⟨k, x⟩ := q
    simp only [smIns]
    by_cases hj : j = i
    · subst hj
      split
      · simp [smGet]
      · split
        · simp [smGet]
        · next hne =>
          have : ¬ k = j := fun e => hne e.symm
          simp [smGet, this, ih]
    · have hj' : ¬ i = j := fun e => hj e.symm
      split
      · simp [smGet, hj']
      · split
        · next heq => subst heq; simp [smGet, hj']
        · simp [smGet, hj, ih]

omit [DecidableEq α] in
/-- A read after every entry of a key is removed. -/
theorem smGet_filter_ne {m : List (Nat × α)} {i j : Nat} :
    smGet d (m.filter (fun p => decide (p.1 ≠ i))) j = if j = i then d else smGet d m j := by
  induction m with
  | nil => simp [smGet]
  | cons q r ih =>
    obtain ⟨k, x⟩ := q
    by_cases hk : k = i
    · subst hk
      simp only [List.filter_cons, ne_eq, not_true_eq_false, decide_false, Bool.false_eq_true, if_false, ih, smGet]
      by_cases hj : j = k
      · simp [hj]
      · have : ¬ k = j := fun e => hj e.symm
        simp [hj, this]
    · simp only [List.filter_cons, ne_eq, hk, not_false_eq_true, decide_true, if_true, smGet, ih]
      by_cases hj : j = i
      · subst hj; simp [hk]
      · simp [hj]

/-- A read after a write, whatever the list's form. -/
theorem smGet_smPut {m : List (Nat × α)} {i j : Nat} {v : α} :
    smGet d (smPut d m i v) j = if j = i then v else smGet d m j := by
  unfold smPut
  split
  · next hv => subst hv; exact smGet_filter_ne
  · exact smGet_smIns

/-- A read of another key than the one written. -/
theorem smGet_smPut_ne {m : List (Nat × α)} {i j : Nat} {v : α} (h : j ≠ i) :
    smGet d (smPut d m i v) j = smGet d m j := by rw [smGet_smPut, if_neg h]

/-- A read of the key written. -/
theorem smGet_smPut_same {m : List (Nat × α)} {i : Nat} {v : α} : smGet d (smPut d m i v) i = v := by
  rw [smGet_smPut, if_pos rfl]

/-- Writing a list keeps the canonical form. -/
theorem smPutList_wf {m : List (Nat × α)} {i : Nat} {vs : List α} (h : smWf d m = true) :
    smWf d (smPutList d m i vs) = true := by
  induction vs generalizing m i with
  | nil => exact h
  | cons v vs ih => exact ih (smPut_wf h)

/-- A read after a list is written. -/
theorem smGet_smPutList {m : List (Nat × α)} {i j : Nat} {vs : List α} :
    smGet d (smPutList d m i vs) j = if h : i ≤ j ∧ j < i + vs.length then vs[j - i] else smGet d m j := by
  induction vs generalizing m i with
  | nil => simp only [smPutList, List.length_nil]; rw [dif_neg (by omega)]
  | cons v vs ih =>
    simp only [smPutList]
    rw [ih, smGet_smPut]
    by_cases h1 : i + 1 ≤ j ∧ j < i + 1 + vs.length
    · rw [dif_pos h1, dif_pos (by simp only [List.length_cons]; omega)]
      have : j - i = (j - (i + 1)) + 1 := by omega
      simp only [this, List.getElem_cons_succ]
    · rw [dif_neg h1]
      by_cases h2 : j = i
      · subst h2
        rw [if_pos rfl, dif_pos (by simp only [List.length_cons]; omega)]
        simp
      · rw [if_neg h2, dif_neg (by simp only [List.length_cons]; omega)]

/-- A read outside a written list. -/
theorem smGet_smPutList_out {m : List (Nat × α)} {i j : Nat} {vs : List α} (h : j < i ∨ i + vs.length ≤ j) :
    smGet d (smPutList d m i vs) j = smGet d m j := by
  induction vs generalizing m i with
  | nil => rfl
  | cons v vs ih =>
    simp only [List.length_cons] at h
    simp only [smPutList]
    rw [ih (by omega), smGet_smPut_ne (by omega)]

/-- Removing a range of keys keeps the canonical form. -/
theorem smDrop_wf {m : List (Nat × α)} {lo hi : Nat} (h : smWf d m = true) : smWf d (smDrop m lo hi) = true :=
  smFilter_wf h

omit [DecidableEq α] in
/-- A read after a range of keys is removed. -/
theorem smGet_smDrop {m : List (Nat × α)} {lo hi j : Nat} :
    smGet d (smDrop m lo hi) j = if lo ≤ j ∧ j < hi then d else smGet d m j := by
  induction m with
  | nil => simp [smDrop, smGet]
  | cons q r ih =>
    obtain ⟨k, x⟩ := q
    simp only [smDrop] at ih
    simp only [smDrop, List.filter_cons]
    split
    · next hf =>
      simp only [smGet, ih]
      by_cases hkj : k = j
      · subst hkj
        have : ¬ (lo ≤ k ∧ k < hi) := by simp at hf; omega
        simp [this]
      · simp [hkj]
    · next hf =>
      rw [ih]
      by_cases hkj : k = j
      · subst hkj
        have : lo ≤ k ∧ k < hi := by simp at hf; omega
        simp [this]
      · simp [smGet, hkj]

end Sys2Proof.Machine
end

