-- ==== Sys2Proof/Laws/State.lean ====
section
/-!
SUPPORT. State's fields after an update, one lemma for each, so that no later proof unfolds a record update. Every update of
the agent in focus is an `onCur` (first section); the other sections say each field of `onCur` and of the agent's updates.
-/
namespace Sys2Proof.Machine

variable (s : State) (a : Agent) (f g : Agent → Agent)

/-! ### Updates of the agent in focus are onCur -/

theorem setSlot_onCur (x : Slot) : setSlot s x = onCur s (fun a => putSlot a s.slot x) := rfl
theorem setS_onCur (n : Nat) (v : Word) : setS s n v = onCur s (fun a => putSA a n v) := rfl
theorem setV_onCur (n i : Nat) (x : Lane) : setV s n i x = onCur s (fun a => putVA a n i x) := rfl
theorem setV2_onCur (n i : Nat) (x : Word) : setV2 s n i x = onCur s (fun a => putV2A a n i x) := rfl
theorem setFlags_onCur (x : BitVec 8) : setFlags s x = onCur s (fun a => { a with sstat := a.sstat ||| x }) := rfl
theorem setPc_onCur (pc : Word) : setPc s pc = onCur s (fun a => putSlot a s.slot { slotOf s with pc := pc }) := rfl
theorem advance_onCur : advance s = onCur s (fun a => putSlot a s.slot { slotOf s with pc := pcOf s + 4 }) := rfl
theorem countUp_onCur (c : Cls) : countUp s c = onCur s (fun a => cntUpd a c (· + 1)) := rfl

@[simp] theorem onCur_onCur : onCur (onCur s f) g = onCur s (fun a => g (f a)) := rfl
@[simp] theorem onCur_id : onCur s (fun a => a) = s := rfl

/-! ### onCur -/

@[simp] theorem onCur_cur : (onCur s f).cur = f s.cur := rfl
@[simp] theorem onCur_slot : (onCur s f).slot = s.slot := rfl
@[simp] theorem onCur_agents : (onCur s f).agents = s.agents := rfl
@[simp] theorem onCur_stooks : (onCur s f).stooks = s.stooks := rfl
@[simp] theorem onCur_mem : (onCur s f).mem = s.mem := rfl
@[simp] theorem onCur_poison : (onCur s f).poison = s.poison := rfl
@[simp] theorem onCur_latent : (onCur s f).latent = s.latent := rfl
@[simp] theorem onCur_cached : (onCur s f).cached = s.cached := rfl
@[simp] theorem onCur_evictFirst : (onCur s f).evictFirst = s.evictFirst := rfl
@[simp] theorem onCur_l1 : (onCur s f).l1 = s.l1 := rfl
@[simp] theorem onCur_measured : (onCur s f).measured = s.measured := rfl
@[simp] theorem onCur_tlb : (onCur s f).tlb = s.tlb := rfl
@[simp] theorem onCur_pins : (onCur s f).pins = s.pins := rfl
@[simp] theorem onCur_epoch : (onCur s f).epoch = s.epoch := rfl
@[simp] theorem onCur_epochAt : (onCur s f).epochAt = s.epochAt := rfl
@[simp] theorem onCur_reqs : (onCur s f).reqs = s.reqs := rfl
@[simp] theorem onCur_lost : (onCur s f).lost = s.lost := rfl
@[simp] theorem onCur_sent : (onCur s f).sent = s.sent := rfl
@[simp] theorem onCur_asks : (onCur s f).asks = s.asks := rfl
@[simp] theorem onCur_atomQ : (onCur s f).atomQ = s.atomQ := rfl
@[simp] theorem onCur_faults : (onCur s f).faults = s.faults := rfl
@[simp] theorem onCur_rings : (onCur s f).rings = s.rings := rfl
@[simp] theorem onCur_ctxs : (onCur s f).ctxs = s.ctxs := rfl
@[simp] theorem onCur_barriers : (onCur s f).barriers = s.barriers := rfl
@[simp] theorem onCur_queues : (onCur s f).queues = s.queues := rfl
@[simp] theorem onCur_bounds : (onCur s f).bounds = s.bounds := rfl
@[simp] theorem onCur_forkQ : (onCur s f).forkQ = s.forkQ := rfl
@[simp] theorem onCur_chmap : (onCur s f).chmap = s.chmap := rfl
@[simp] theorem onCur_chcnt : (onCur s f).chcnt = s.chcnt := rfl
@[simp] theorem onCur_chcon : (onCur s f).chcon = s.chcon := rfl
@[simp] theorem onCur_mxstat : (onCur s f).mxstat = s.mxstat := rfl
@[simp] theorem onCur_cvstat : (onCur s f).cvstat = s.cvstat := rfl
@[simp] theorem onCur_banks : (onCur s f).banks = s.banks := rfl
@[simp] theorem onCur_wcfg : (onCur s f).wcfg = s.wcfg := rfl
@[simp] theorem onCur_rowWin : (onCur s f).rowWin = s.rowWin := rfl
@[simp] theorem onCur_rowOrder : (onCur s f).rowOrder = s.rowOrder := rfl
@[simp] theorem onCur_rowRetired : (onCur s f).rowRetired = s.rowRetired := rfl
@[simp] theorem onCur_winAt : (onCur s f).winAt = s.winAt := rfl
@[simp] theorem onCur_dieWin : (onCur s f).dieWin = s.dieWin := rfl
@[simp] theorem onCur_eseq : (onCur s f).eseq = s.eseq := rfl
@[simp] theorem onCur_time : (onCur s f).time = s.time := rfl
@[simp] theorem onCur_lqueues : (onCur s f).lqueues = s.lqueues := rfl
@[simp] theorem onCur_rr : (onCur s f).rr = s.rr := rfl
@[simp] theorem onCur_deadline : (onCur s f).deadline = s.deadline := rfl
@[simp] theorem onCur_pool : (onCur s f).pool = s.pool := rfl
@[simp] theorem onCur_launches : (onCur s f).launches = s.launches := rfl
@[simp] theorem onCur_recQ : (onCur s f).recQ = s.recQ := rfl
@[simp] theorem onCur_msix : (onCur s f).msix = s.msix := rfl
@[simp] theorem onCur_disabled : (onCur s f).disabled = s.disabled := rfl
@[simp] theorem onCur_halted : (onCur s f).halted = s.halted := rfl
@[simp] theorem onCur_imageDue : (onCur s f).imageDue = s.imageDue := rfl
@[simp] theorem onCur_copies : (onCur s f).copies = s.copies := rfl
@[simp] theorem onCur_cpls : (onCur s f).cpls = s.cpls := rfl
@[simp] theorem onCur_skops : (onCur s f).skops = s.skops := rfl
@[simp] theorem onCur_tiles : (onCur s f).tiles = s.tiles := rfl
@[simp] theorem onCur_tileOps : (onCur s f).tileOps = s.tileOps := rfl
@[simp] theorem onCur_remap : (onCur s f).remap = s.remap := rfl
@[simp] theorem onCur_node : (onCur s f).node = s.node := rfl
@[simp] theorem onCur_allocs : (onCur s f).allocs = s.allocs := rfl
@[simp] theorem onCur_quota : (onCur s f).quota = s.quota := rfl
@[simp] theorem onCur_swGroups : (onCur s f).swGroups = s.swGroups := rfl
@[simp] theorem onCur_groups : (onCur s f).groups = s.groups := rfl
@[simp] theorem onCur_xmems : (onCur s f).xmems = s.xmems := rfl
@[simp] theorem onCur_calls : (onCur s f).calls = s.calls := rfl
@[simp] theorem onCur_early : (onCur s f).early = s.early := rfl
@[simp] theorem onCur_skipped : (onCur s f).skipped = s.skipped := rfl
@[simp] theorem onCur_grat : (onCur s f).grat = s.grat := rfl
@[simp] theorem onCur_slotAt : (onCur s f).slotAt = s.slotAt := rfl
@[simp] theorem onCur_slotSent : (onCur s f).slotSent = s.slotSent := rfl
@[simp] theorem onCur_relays : (onCur s f).relays = s.relays := rfl
@[simp] theorem onCur_sync : (onCur s f).sync = s.sync := rfl
@[simp] theorem onCur_syncAt : (onCur s f).syncAt = s.syncAt := rfl
@[simp] theorem onCur_hold : (onCur s f).hold = s.hold := rfl
@[simp] theorem onCur_slew : (onCur s f).slew = s.slew := rfl
@[simp] theorem onCur_goodSkews : (onCur s f).goodSkews = s.goodSkews := rfl
@[simp] theorem onCur_ports : (onCur s f).ports = s.ports := rfl
@[simp] theorem onCur_suspended : (onCur s f).suspended = s.suspended := rfl
@[simp] theorem onCur_attest : (onCur s f).attest = s.attest := rfl
@[simp] theorem onCur_cfgVer : (onCur s f).cfgVer = s.cfgVer := rfl
@[simp] theorem onCur_boot : (onCur s f).boot = s.boot := rfl
@[simp] theorem onCur_bootFail : (onCur s f).bootFail = s.bootFail := rfl
@[simp] theorem onCur_bootCause : (onCur s f).bootCause = s.bootCause := rfl
@[simp] theorem onCur_power : (onCur s f).power = s.power := rfl
@[simp] theorem onCur_mhz : (onCur s f).mhz = s.mhz := rfl
@[simp] theorem onCur_busyAt : (onCur s f).busyAt = s.busyAt := rfl
@[simp] theorem onCur_loader : (onCur s f).loader = s.loader := rfl
@[simp] theorem onCur_rbBase : (onCur s f).rbBase = s.rbBase := rfl
@[simp] theorem onCur_rbLen : (onCur s f).rbLen = s.rbLen := rfl
@[simp] theorem onCur_quote : (onCur s f).quote = s.quote := rfl
@[simp] theorem onCur_stalls : (onCur s f).stalls = s.stalls := rfl
@[simp] theorem onCur_issues : (onCur s f).issues = s.issues := rfl
@[simp] theorem onCur_agenda : (onCur s f).agenda = s.agenda := rfl
@[simp] theorem onCur_inp : (onCur s f).inp = s.inp := rfl
@[simp] theorem onCur_defer : (onCur s f).defer = s.defer := rfl
@[simp] theorem onCur_nextId : (onCur s f).nextId = s.nextId := rfl
@[simp] theorem onCur_free : (onCur s f).free = s.free := rfl

/-! ### The agent's updates -/

@[simp] theorem getSlot_putSlot (b : Bool) (x : Slot) : getSlot (putSlot a b x) b = x := by cases b <;> rfl
@[simp] theorem getSlot_putSlot_other (b : Bool) (x : Slot) : getSlot (putSlot a b x) (!b) = getSlot a (!b) := by
  cases b <;> rfl
@[simp] theorem putSlot_putSlot (b : Bool) (x y : Slot) : putSlot (putSlot a b x) b y = putSlot a b y := by cases b <;> rfl
@[simp] theorem putSlot_getSlot (b : Bool) : putSlot a b (getSlot a b) = a := by cases b <;> rfl
@[simp] theorem getSlot_putSA (n : Nat) (v : Word) (b : Bool) : getSlot (putSA a n v) b = getSlot a b := by
  cases b <;> unfold putSA <;> by_cases h : n = 0 <;> simp [h, getSlot]
@[simp] theorem getSlot_putVA (n i : Nat) (x : Lane) (b : Bool) : getSlot (putVA a n i x) b = getSlot a b := by
  cases b <;> rfl
@[simp] theorem getSlot_putV2A (n i : Nat) (x : Word) (b : Bool) : getSlot (putV2A a n i x) b = getSlot a b := by
  cases b <;> rfl

@[simp] theorem putSlot_kind (b : Bool) (x : Slot) : (putSlot a b x).kind = a.kind := by cases b <;> rfl
@[simp] theorem putSlot_id (b : Bool) (x : Slot) : (putSlot a b x).id = a.id := by cases b <;> rfl
@[simp] theorem putSlot_stook (b : Bool) (x : Slot) : (putSlot a b x).stook = a.stook := by cases b <;> rfl
@[simp] theorem putSlot_core (b : Bool) (x : Slot) : (putSlot a b x).core = a.core := by cases b <;> rfl
@[simp] theorem putSlot_slotNo (b : Bool) (x : Slot) : (putSlot a b x).slotNo = a.slotNo := by cases b <;> rfl
@[simp] theorem putSlot_hx1 (b : Bool) (x : Slot) : (putSlot a b x).hx1 = a.hx1 := by cases b <;> rfl
@[simp] theorem putSlot_k (b : Bool) (x : Slot) : (putSlot a b x).k = a.k := by cases b <;> rfl
@[simp] theorem putSlot_v (b : Bool) (x : Slot) : (putSlot a b x).v = a.v := by cases b <;> rfl
@[simp] theorem putSlot_s (b : Bool) (x : Slot) : (putSlot a b x).s = a.s := by cases b <;> rfl
@[simp] theorem putSlot_m (b : Bool) (x : Slot) : (putSlot a b x).m = a.m := by cases b <;> rfl
@[simp] theorem putSlot_md (b : Bool) (x : Slot) : (putSlot a b x).md = a.md := by cases b <;> rfl
@[simp] theorem putSlot_sstat (b : Bool) (x : Slot) : (putSlot a b x).sstat = a.sstat := by cases b <;> rfl
@[simp] theorem putSlot_divmask (b : Bool) (x : Slot) : (putSlot a b x).divmask = a.divmask := by cases b <;> rfl
@[simp] theorem putSlot_srkey (b : Bool) (x : Slot) : (putSlot a b x).srkey = a.srkey := by cases b <;> rfl
@[simp] theorem putSlot_srseq (b : Bool) (x : Slot) : (putSlot a b x).srseq = a.srseq := by cases b <;> rfl
@[simp] theorem putSlot_rngstream (b : Bool) (x : Slot) : (putSlot a b x).rngstream = a.rngstream := by cases b <;> rfl
@[simp] theorem putSlot_tcause (b : Bool) (x : Slot) : (putSlot a b x).tcause = a.tcause := by cases b <;> rfl
@[simp] theorem putSlot_tpc (b : Bool) (x : Slot) : (putSlot a b x).tpc = a.tpc := by cases b <;> rfl
@[simp] theorem putSlot_taddr (b : Bool) (x : Slot) : (putSlot a b x).taddr = a.taddr := by cases b <;> rfl
@[simp] theorem putSlot_tinfo (b : Bool) (x : Slot) : (putSlot a b x).tinfo = a.tinfo := by cases b <;> rfl
@[simp] theorem putSlot_tmask (b : Bool) (x : Slot) : (putSlot a b x).tmask = a.tmask := by cases b <;> rfl
@[simp] theorem putSlot_tslot (b : Bool) (x : Slot) : (putSlot a b x).tslot = a.tslot := by cases b <;> rfl
@[simp] theorem putSlot_thnd (b : Bool) (x : Slot) : (putSlot a b x).thnd = a.thnd := by cases b <;> rfl
@[simp] theorem putSlot_tseq (b : Bool) (x : Slot) : (putSlot a b x).tseq = a.tseq := by cases b <;> rfl
@[simp] theorem putSlot_priv (b : Bool) (x : Slot) : (putSlot a b x).priv = a.priv := by cases b <;> rfl
@[simp] theorem putSlot_turn (b : Bool) (x : Slot) : (putSlot a b x).turn = a.turn := by cases b <;> rfl
@[simp] theorem putSlot_stack (b : Bool) (x : Slot) : (putSlot a b x).stack = a.stack := by cases b <;> rfl
@[simp] theorem putSlot_cntLd (b : Bool) (x : Slot) : (putSlot a b x).cntLd = a.cntLd := by cases b <;> rfl
@[simp] theorem putSlot_cntSt (b : Bool) (x : Slot) : (putSlot a b x).cntSt = a.cntSt := by cases b <;> rfl
@[simp] theorem putSlot_cntCp (b : Bool) (x : Slot) : (putSlot a b x).cntCp = a.cntCp := by cases b <;> rfl
@[simp] theorem putSlot_cntTl (b : Bool) (x : Slot) : (putSlot a b x).cntTl = a.cntTl := by cases b <;> rfl
@[simp] theorem putSlot_sPend (b : Bool) (x : Slot) : (putSlot a b x).sPend = a.sPend := by cases b <;> rfl
@[simp] theorem putSlot_vPend (b : Bool) (x : Slot) : (putSlot a b x).vPend = a.vPend := by cases b <;> rfl
@[simp] theorem putSlot_forker (b : Bool) (x : Slot) : (putSlot a b x).forker = a.forker := by cases b <;> rfl
@[simp] theorem putSlot_ended (b : Bool) (x : Slot) : (putSlot a b x).ended = a.ended := by cases b <;> rfl
@[simp] theorem putSlot_stopPt (b : Bool) (x : Slot) : (putSlot a b x).stopPt = a.stopPt := by cases b <;> rfl
@[simp] theorem putSlot_saving (b : Bool) (x : Slot) : (putSlot a b x).saving = a.saving := by cases b <;> rfl
@[simp] theorem putSlot_active (b : Bool) (x : Slot) : (putSlot a b x).active = a.active := by cases b <;> rfl
@[simp] theorem putSlot_since (b : Bool) (x : Slot) : (putSlot a b x).since = a.since := by cases b <;> rfl
@[simp] theorem putSlot_last (b : Bool) (x : Slot) : (putSlot a b x).last = a.last := by cases b <;> rfl

@[simp] theorem putSA_kind (n : Nat) (v : Word) : (putSA a n v).kind = a.kind := by unfold putSA; split <;> rfl
@[simp] theorem putSA_id (n : Nat) (v : Word) : (putSA a n v).id = a.id := by unfold putSA; split <;> rfl
@[simp] theorem putSA_stook (n : Nat) (v : Word) : (putSA a n v).stook = a.stook := by unfold putSA; split <;> rfl
@[simp] theorem putSA_core (n : Nat) (v : Word) : (putSA a n v).core = a.core := by unfold putSA; split <;> rfl
@[simp] theorem putSA_slotNo (n : Nat) (v : Word) : (putSA a n v).slotNo = a.slotNo := by unfold putSA; split <;> rfl
@[simp] theorem putSA_hx1 (n : Nat) (v : Word) : (putSA a n v).hx1 = a.hx1 := by unfold putSA; split <;> rfl
@[simp] theorem putSA_k (n : Nat) (v : Word) : (putSA a n v).k = a.k := by unfold putSA; split <;> rfl
@[simp] theorem putSA_v (n : Nat) (v : Word) : (putSA a n v).v = a.v := by unfold putSA; split <;> rfl
@[simp] theorem putSA_m (n : Nat) (v : Word) : (putSA a n v).m = a.m := by unfold putSA; split <;> rfl
@[simp] theorem putSA_md (n : Nat) (v : Word) : (putSA a n v).md = a.md := by unfold putSA; split <;> rfl
@[simp] theorem putSA_sstat (n : Nat) (v : Word) : (putSA a n v).sstat = a.sstat := by unfold putSA; split <;> rfl
@[simp] theorem putSA_divmask (n : Nat) (v : Word) : (putSA a n v).divmask = a.divmask := by unfold putSA; split <;> rfl
@[simp] theorem putSA_srkey (n : Nat) (v : Word) : (putSA a n v).srkey = a.srkey := by unfold putSA; split <;> rfl
@[simp] theorem putSA_srseq (n : Nat) (v : Word) : (putSA a n v).srseq = a.srseq := by unfold putSA; split <;> rfl
@[simp] theorem putSA_rngstream (n : Nat) (v : Word) : (putSA a n v).rngstream = a.rngstream := by unfold putSA; split <;> rfl
@[simp] theorem putSA_tcause (n : Nat) (v : Word) : (putSA a n v).tcause = a.tcause := by unfold putSA; split <;> rfl
@[simp] theorem putSA_tpc (n : Nat) (v : Word) : (putSA a n v).tpc = a.tpc := by unfold putSA; split <;> rfl
@[simp] theorem putSA_taddr (n : Nat) (v : Word) : (putSA a n v).taddr = a.taddr := by unfold putSA; split <;> rfl
@[simp] theorem putSA_tinfo (n : Nat) (v : Word) : (putSA a n v).tinfo = a.tinfo := by unfold putSA; split <;> rfl
@[simp] theorem putSA_tmask (n : Nat) (v : Word) : (putSA a n v).tmask = a.tmask := by unfold putSA; split <;> rfl
@[simp] theorem putSA_tslot (n : Nat) (v : Word) : (putSA a n v).tslot = a.tslot := by unfold putSA; split <;> rfl
@[simp] theorem putSA_thnd (n : Nat) (v : Word) : (putSA a n v).thnd = a.thnd := by unfold putSA; split <;> rfl
@[simp] theorem putSA_tseq (n : Nat) (v : Word) : (putSA a n v).tseq = a.tseq := by unfold putSA; split <;> rfl
@[simp] theorem putSA_priv (n : Nat) (v : Word) : (putSA a n v).priv = a.priv := by unfold putSA; split <;> rfl
@[simp] theorem putSA_pri (n : Nat) (v : Word) : (putSA a n v).pri = a.pri := by unfold putSA; split <;> rfl
@[simp] theorem putSA_sec (n : Nat) (v : Word) : (putSA a n v).sec = a.sec := by unfold putSA; split <;> rfl
@[simp] theorem putSA_turn (n : Nat) (v : Word) : (putSA a n v).turn = a.turn := by unfold putSA; split <;> rfl
@[simp] theorem putSA_stack (n : Nat) (v : Word) : (putSA a n v).stack = a.stack := by unfold putSA; split <;> rfl
@[simp] theorem putSA_cntLd (n : Nat) (v : Word) : (putSA a n v).cntLd = a.cntLd := by unfold putSA; split <;> rfl
@[simp] theorem putSA_cntSt (n : Nat) (v : Word) : (putSA a n v).cntSt = a.cntSt := by unfold putSA; split <;> rfl
@[simp] theorem putSA_cntCp (n : Nat) (v : Word) : (putSA a n v).cntCp = a.cntCp := by unfold putSA; split <;> rfl
@[simp] theorem putSA_cntTl (n : Nat) (v : Word) : (putSA a n v).cntTl = a.cntTl := by unfold putSA; split <;> rfl
@[simp] theorem putSA_sPend (n : Nat) (v : Word) : (putSA a n v).sPend = a.sPend := by unfold putSA; split <;> rfl
@[simp] theorem putSA_vPend (n : Nat) (v : Word) : (putSA a n v).vPend = a.vPend := by unfold putSA; split <;> rfl
@[simp] theorem putSA_forker (n : Nat) (v : Word) : (putSA a n v).forker = a.forker := by unfold putSA; split <;> rfl
@[simp] theorem putSA_ended (n : Nat) (v : Word) : (putSA a n v).ended = a.ended := by unfold putSA; split <;> rfl
@[simp] theorem putSA_stopPt (n : Nat) (v : Word) : (putSA a n v).stopPt = a.stopPt := by unfold putSA; split <;> rfl
@[simp] theorem putSA_saving (n : Nat) (v : Word) : (putSA a n v).saving = a.saving := by unfold putSA; split <;> rfl
@[simp] theorem putSA_active (n : Nat) (v : Word) : (putSA a n v).active = a.active := by unfold putSA; split <;> rfl
@[simp] theorem putSA_since (n : Nat) (v : Word) : (putSA a n v).since = a.since := by unfold putSA; split <;> rfl
@[simp] theorem putSA_last (n : Nat) (v : Word) : (putSA a n v).last = a.last := by unfold putSA; split <;> rfl

@[simp] theorem putVA_kind (n i : Nat) (x : Lane) : (putVA a n i x).kind = a.kind := rfl
@[simp] theorem putVA_id (n i : Nat) (x : Lane) : (putVA a n i x).id = a.id := rfl
@[simp] theorem putVA_stook (n i : Nat) (x : Lane) : (putVA a n i x).stook = a.stook := rfl
@[simp] theorem putVA_core (n i : Nat) (x : Lane) : (putVA a n i x).core = a.core := rfl
@[simp] theorem putVA_slotNo (n i : Nat) (x : Lane) : (putVA a n i x).slotNo = a.slotNo := rfl
@[simp] theorem putVA_hx1 (n i : Nat) (x : Lane) : (putVA a n i x).hx1 = a.hx1 := rfl
@[simp] theorem putVA_k (n i : Nat) (x : Lane) : (putVA a n i x).k = a.k := rfl
@[simp] theorem putVA_s (n i : Nat) (x : Lane) : (putVA a n i x).s = a.s := rfl
@[simp] theorem putVA_m (n i : Nat) (x : Lane) : (putVA a n i x).m = a.m := rfl
@[simp] theorem putVA_md (n i : Nat) (x : Lane) : (putVA a n i x).md = a.md := rfl
@[simp] theorem putVA_sstat (n i : Nat) (x : Lane) : (putVA a n i x).sstat = a.sstat := rfl
@[simp] theorem putVA_divmask (n i : Nat) (x : Lane) : (putVA a n i x).divmask = a.divmask := rfl
@[simp] theorem putVA_srkey (n i : Nat) (x : Lane) : (putVA a n i x).srkey = a.srkey := rfl
@[simp] theorem putVA_srseq (n i : Nat) (x : Lane) : (putVA a n i x).srseq = a.srseq := rfl
@[simp] theorem putVA_rngstream (n i : Nat) (x : Lane) : (putVA a n i x).rngstream = a.rngstream := rfl
@[simp] theorem putVA_tcause (n i : Nat) (x : Lane) : (putVA a n i x).tcause = a.tcause := rfl
@[simp] theorem putVA_tpc (n i : Nat) (x : Lane) : (putVA a n i x).tpc = a.tpc := rfl
@[simp] theorem putVA_taddr (n i : Nat) (x : Lane) : (putVA a n i x).taddr = a.taddr := rfl
@[simp] theorem putVA_tinfo (n i : Nat) (x : Lane) : (putVA a n i x).tinfo = a.tinfo := rfl
@[simp] theorem putVA_tmask (n i : Nat) (x : Lane) : (putVA a n i x).tmask = a.tmask := rfl
@[simp] theorem putVA_tslot (n i : Nat) (x : Lane) : (putVA a n i x).tslot = a.tslot := rfl
@[simp] theorem putVA_thnd (n i : Nat) (x : Lane) : (putVA a n i x).thnd = a.thnd := rfl
@[simp] theorem putVA_tseq (n i : Nat) (x : Lane) : (putVA a n i x).tseq = a.tseq := rfl
@[simp] theorem putVA_priv (n i : Nat) (x : Lane) : (putVA a n i x).priv = a.priv := rfl
@[simp] theorem putVA_pri (n i : Nat) (x : Lane) : (putVA a n i x).pri = a.pri := rfl
@[simp] theorem putVA_sec (n i : Nat) (x : Lane) : (putVA a n i x).sec = a.sec := rfl
@[simp] theorem putVA_turn (n i : Nat) (x : Lane) : (putVA a n i x).turn = a.turn := rfl
@[simp] theorem putVA_stack (n i : Nat) (x : Lane) : (putVA a n i x).stack = a.stack := rfl
@[simp] theorem putVA_cntLd (n i : Nat) (x : Lane) : (putVA a n i x).cntLd = a.cntLd := rfl
@[simp] theorem putVA_cntSt (n i : Nat) (x : Lane) : (putVA a n i x).cntSt = a.cntSt := rfl
@[simp] theorem putVA_cntCp (n i : Nat) (x : Lane) : (putVA a n i x).cntCp = a.cntCp := rfl
@[simp] theorem putVA_cntTl (n i : Nat) (x : Lane) : (putVA a n i x).cntTl = a.cntTl := rfl
@[simp] theorem putVA_sPend (n i : Nat) (x : Lane) : (putVA a n i x).sPend = a.sPend := rfl
@[simp] theorem putVA_vPend (n i : Nat) (x : Lane) : (putVA a n i x).vPend = a.vPend := rfl
@[simp] theorem putVA_forker (n i : Nat) (x : Lane) : (putVA a n i x).forker = a.forker := rfl
@[simp] theorem putVA_ended (n i : Nat) (x : Lane) : (putVA a n i x).ended = a.ended := rfl
@[simp] theorem putVA_stopPt (n i : Nat) (x : Lane) : (putVA a n i x).stopPt = a.stopPt := rfl
@[simp] theorem putVA_saving (n i : Nat) (x : Lane) : (putVA a n i x).saving = a.saving := rfl
@[simp] theorem putVA_active (n i : Nat) (x : Lane) : (putVA a n i x).active = a.active := rfl
@[simp] theorem putVA_since (n i : Nat) (x : Lane) : (putVA a n i x).since = a.since := rfl
@[simp] theorem putVA_last (n i : Nat) (x : Lane) : (putVA a n i x).last = a.last := rfl

@[simp] theorem putV2A_kind (n i : Nat) (x : Word) : (putV2A a n i x).kind = a.kind := rfl
@[simp] theorem putV2A_id (n i : Nat) (x : Word) : (putV2A a n i x).id = a.id := rfl
@[simp] theorem putV2A_stook (n i : Nat) (x : Word) : (putV2A a n i x).stook = a.stook := rfl
@[simp] theorem putV2A_core (n i : Nat) (x : Word) : (putV2A a n i x).core = a.core := rfl
@[simp] theorem putV2A_slotNo (n i : Nat) (x : Word) : (putV2A a n i x).slotNo = a.slotNo := rfl
@[simp] theorem putV2A_hx1 (n i : Nat) (x : Word) : (putV2A a n i x).hx1 = a.hx1 := rfl
@[simp] theorem putV2A_k (n i : Nat) (x : Word) : (putV2A a n i x).k = a.k := rfl
@[simp] theorem putV2A_s (n i : Nat) (x : Word) : (putV2A a n i x).s = a.s := rfl
@[simp] theorem putV2A_m (n i : Nat) (x : Word) : (putV2A a n i x).m = a.m := rfl
@[simp] theorem putV2A_md (n i : Nat) (x : Word) : (putV2A a n i x).md = a.md := rfl
@[simp] theorem putV2A_sstat (n i : Nat) (x : Word) : (putV2A a n i x).sstat = a.sstat := rfl
@[simp] theorem putV2A_divmask (n i : Nat) (x : Word) : (putV2A a n i x).divmask = a.divmask := rfl
@[simp] theorem putV2A_srkey (n i : Nat) (x : Word) : (putV2A a n i x).srkey = a.srkey := rfl
@[simp] theorem putV2A_srseq (n i : Nat) (x : Word) : (putV2A a n i x).srseq = a.srseq := rfl
@[simp] theorem putV2A_rngstream (n i : Nat) (x : Word) : (putV2A a n i x).rngstream = a.rngstream := rfl
@[simp] theorem putV2A_tcause (n i : Nat) (x : Word) : (putV2A a n i x).tcause = a.tcause := rfl
@[simp] theorem putV2A_tpc (n i : Nat) (x : Word) : (putV2A a n i x).tpc = a.tpc := rfl
@[simp] theorem putV2A_taddr (n i : Nat) (x : Word) : (putV2A a n i x).taddr = a.taddr := rfl
@[simp] theorem putV2A_tinfo (n i : Nat) (x : Word) : (putV2A a n i x).tinfo = a.tinfo := rfl
@[simp] theorem putV2A_tmask (n i : Nat) (x : Word) : (putV2A a n i x).tmask = a.tmask := rfl
@[simp] theorem putV2A_tslot (n i : Nat) (x : Word) : (putV2A a n i x).tslot = a.tslot := rfl
@[simp] theorem putV2A_thnd (n i : Nat) (x : Word) : (putV2A a n i x).thnd = a.thnd := rfl
@[simp] theorem putV2A_tseq (n i : Nat) (x : Word) : (putV2A a n i x).tseq = a.tseq := rfl
@[simp] theorem putV2A_priv (n i : Nat) (x : Word) : (putV2A a n i x).priv = a.priv := rfl
@[simp] theorem putV2A_pri (n i : Nat) (x : Word) : (putV2A a n i x).pri = a.pri := rfl
@[simp] theorem putV2A_sec (n i : Nat) (x : Word) : (putV2A a n i x).sec = a.sec := rfl
@[simp] theorem putV2A_turn (n i : Nat) (x : Word) : (putV2A a n i x).turn = a.turn := rfl
@[simp] theorem putV2A_stack (n i : Nat) (x : Word) : (putV2A a n i x).stack = a.stack := rfl
@[simp] theorem putV2A_cntLd (n i : Nat) (x : Word) : (putV2A a n i x).cntLd = a.cntLd := rfl
@[simp] theorem putV2A_cntSt (n i : Nat) (x : Word) : (putV2A a n i x).cntSt = a.cntSt := rfl
@[simp] theorem putV2A_cntCp (n i : Nat) (x : Word) : (putV2A a n i x).cntCp = a.cntCp := rfl
@[simp] theorem putV2A_cntTl (n i : Nat) (x : Word) : (putV2A a n i x).cntTl = a.cntTl := rfl
@[simp] theorem putV2A_sPend (n i : Nat) (x : Word) : (putV2A a n i x).sPend = a.sPend := rfl
@[simp] theorem putV2A_vPend (n i : Nat) (x : Word) : (putV2A a n i x).vPend = a.vPend := rfl
@[simp] theorem putV2A_forker (n i : Nat) (x : Word) : (putV2A a n i x).forker = a.forker := rfl
@[simp] theorem putV2A_ended (n i : Nat) (x : Word) : (putV2A a n i x).ended = a.ended := rfl
@[simp] theorem putV2A_stopPt (n i : Nat) (x : Word) : (putV2A a n i x).stopPt = a.stopPt := rfl
@[simp] theorem putV2A_saving (n i : Nat) (x : Word) : (putV2A a n i x).saving = a.saving := rfl
@[simp] theorem putV2A_active (n i : Nat) (x : Word) : (putV2A a n i x).active = a.active := rfl
@[simp] theorem putV2A_since (n i : Nat) (x : Word) : (putV2A a n i x).since = a.since := rfl
@[simp] theorem putV2A_last (n i : Nat) (x : Word) : (putV2A a n i x).last = a.last := rfl

end Sys2Proof.Machine
end

