-- ==== Sys2Proof/Laws/Ops.lean ====
section
/-!
SUPPORT. What the shared operations of Machine/Ops.lean do: registers, the slot in issue, and `run`, which gives every
instruction its checks.
-/
namespace Sys2Proof.Machine

open Sys2Proof

/-! ### Registers -/

theorem getSA_putSA (a : Agent) (n m : Nat) (v : Word) :
    getSA (putSA a n v) m = if m = n ∧ n ≠ 0 then v else getSA a m := by
  unfold putSA getSA
  by_cases hn : n = 0
  · by_cases hm : m = 0 <;> simp [hn, hm]
  · by_cases hm : m = 0
    · have : ¬ (0 = n) := fun e => hn e.symm
      simp [hm, this]
    · simp only [hn, hm, if_false, smGet_smPut]; simp [hn]

/-- A register that an instruction does not write reads as before. -/
theorem getSA_putSA_ne (a : Agent) (n m : Nat) (v : Word) (h : m ≠ n) : getSA (putSA a n v) m = getSA a m := by
  unfold putSA getSA
  by_cases hn : n = 0 <;> by_cases hm : m = 0 <;> simp [hn, hm, smGet_smPut_ne h]

theorem getS_setS_ne (s : State) (n m : Nat) (v : Word) (h : m ≠ n) : getS (setS s n v) m = getS s m :=
  getSA_putSA_ne s.cur n m v h

/-- S0 reads zero. -/
@[simp] theorem getS_zero (s : State) : getS s 0 = 0 := rfl

/-- A write to S0 is discarded. -/
@[simp] theorem setS_zero (s : State) (v : Word) : setS s 0 v = s := rfl

/-- M0 reads as the lanes that exist. -/
@[simp] theorem getM_zero (s : State) : getM s 0 = allLanes (wOf s) := rfl

/-- A write to M0 is discarded. -/
@[simp] theorem setM_zero (s : State) (v : Word) : setM s 0 v = s := rfl

theorem getM_setM_ne (s : State) (n m : Nat) (v : Word) (h : m ≠ n) : getM (setM s n v) m = getM s m := by
  unfold setM getM getMA
  by_cases hn : n = 0 <;> by_cases hm : m = 0 <;> simp [hn, hm, smGet_smPut_ne h, widthOf]

/-- A sheaf is at most 64 lanes wide. -/
theorem wOf_le (s : State) : wOf s ≤ 64 := by unfold wOf widthOf; split <;> (try split) <;> omega

/-- A sheaf is 16, 32 or 64 lanes wide. -/
theorem wOf_cases (s : State) : wOf s = 16 ∨ wOf s = 32 ∨ wOf s = 64 := by
  unfold wOf widthOf; split <;> (try split) <;> simp

/-- The keys of two lanes differ where the registers or the lanes do. -/
theorem vkey_inj {n m i j : Nat} (hi : i < 64) (hj : j < 64) (h : vkey n i = vkey m j) : n = m ∧ i = j := by
  unfold vkey at h; omega

theorem putVA_get_ne (a : Agent) (n i m j : Nat) (x : Lane) (h : vkey m j ≠ vkey n i) :
    smGet 0 (putVA a n i x).v (vkey m j) = smGet 0 a.v (vkey m j) := by
  simp only [putVA]; exact smGet_smPut_ne h

/-! ### The slot in issue -/

theorem slotOf_get (s : State) : slotOf s = getSlot s.cur s.slot := rfl

@[simp] theorem slotOf_setSlot (s : State) (x : Slot) : slotOf (setSlot s x) = x := by
  simp only [setSlot, slotOf_get]; exact getSlot_putSlot _ _ _

@[simp] theorem slotOf_setS (s : State) (n : Nat) (v : Word) : slotOf (setS s n v) = slotOf s := by
  simp only [setS, slotOf_get, getSlot_putSA]

@[simp] theorem slotOf_setV (s : State) (n i : Nat) (x : Lane) : slotOf (setV s n i x) = slotOf s := by
  simp only [setV, slotOf_get, getSlot_putVA]

@[simp] theorem pcOf_setPc (s : State) (pc : Word) : pcOf (setPc s pc) = pc := by simp [pcOf, setPc]

@[simp] theorem pcOf_setS (s : State) (n : Nat) (v : Word) : pcOf (setS s n v) = pcOf s := by simp [pcOf]

@[simp] theorem pcOf_advance (s : State) : pcOf (advance s) = pcOf s + 4 := pcOf_setPc s _

@[simp] theorem setPc_setPc (s : State) (x y : Word) : setPc (setPc s x) y = setPc s y := by
  show setSlot (setSlot s _) { slotOf (setSlot s _) with pc := y } = _
  rw [slotOf_setSlot]; simp only [setPc, setSlot, putSlot_putSlot]

@[simp] theorem getS_setPc (s : State) (pc : Word) (n : Nat) : getS (setPc s pc) n = getS s n := by
  unfold getS getSA setPc setSlot; simp

@[simp] theorem getM_setPc (s : State) (pc : Word) (n : Nat) : getM (setPc s pc) n = getM s n := by
  unfold getM getMA widthOf setPc setSlot; simp

@[simp] theorem getV_setPc (s : State) (pc : Word) (n i : Nat) : getV (setPc s pc) n i = getV s n i := by
  unfold getV setPc setSlot; simp

@[simp] theorem getS_advance (s : State) (n : Nat) : getS (advance s) n = getS s n := getS_setPc s _ n
@[simp] theorem getM_advance (s : State) (n : Nat) : getM (advance s) n = getM s n := getM_setPc s _ n
@[simp] theorem getV_advance (s : State) (n i : Nat) : getV (advance s) n i = getV s n i := getV_setPc s _ n i

/-! ### Issue -/

/-- A slot that is ready passes every check before the instruction's own rule. -/
theorem precheck_ready {u : Use} {s : State} (i : Instr) (h : ready u s = true) : precheck i u s = none := by
  simp only [ready, Bool.and_eq_true, decide_eq_true_eq, Bool.not_eq_true', Option.isNone_iff_eq_none, Bool.or_eq_true] at h
  obtain ⟨⟨⟨⟨⟨⟨⟨⟨_, _⟩, hc⟩, hw⟩, hp⟩, hs⟩, hv⟩, hi⟩, hf⟩ := h
  have hpriv : ¬ (u.sys = true ∧ s.cur.priv = false) := by rcases hs with h | h <;> simp [h]
  have hreg : (u.vr.any (fun n => decide (s.cur.k.vregs ≤ n)) || u.vw.any (fun n => decide (s.cur.k.vregs ≤ n))) = false := by
    simp only [List.all_eq_true, List.mem_append, decide_eq_true_eq] at hv
    simp only [Bool.or_eq_false_iff, List.any_eq_false, decide_eq_true_eq]
    exact ⟨fun n hn => by have := hv n (.inl hn); omega, fun n hn => by have := hv n (.inr hn); omega⟩
  unfold precheck
  simp [hc, hw, hp, hpriv, hreg, hi, hf]

/-- A ready slot's instruction is what its own rule says. -/
theorem run_ready {u : Use} {s : State} (i : Instr) (f : State → Issue) (h : ready u s = true) :
    run i u f s = .next (settle s (f s)) := by
  have hp := precheck_ready i h
  simp only [ready, Bool.and_eq_true, decide_eq_true_eq, Bool.not_eq_true'] at h
  obtain ⟨⟨⟨⟨⟨⟨⟨⟨hk, hn⟩, _⟩, _⟩, _⟩, _⟩, _⟩, _⟩, _⟩ := h
  simp [run, hk, hn, issueOf, hp]

/-- A slot that may issue an instruction may issue one that touches less. -/
theorem ready_mono {u v : Use} {s : State} (h : ready u s = true) (h1 : ∀ n, n ∈ v.vr → n ∈ u.vr) (h2 : ∀ n, n ∈ v.vw → n ∈ u.vw)
   (h3 : ∀ n, n ∈ v.sr → n ∈ u.sr) (h4 : ∀ n, n ∈ v.sw → n ∈ u.sw) (h5 : v.sys = true → u.sys = true)
   (h6 : u.eng = true → v.eng = true) (h7 : v.cls = none ∨ v.cls = u.cls) : ready v s = true := by
  simp only [ready, Bool.and_eq_true] at h ⊢
  obtain ⟨⟨⟨⟨⟨⟨⟨⟨a, b⟩, c⟩, d⟩, e⟩, f⟩, g⟩, i⟩, j⟩ := h
  refine ⟨⟨⟨⟨⟨⟨⟨⟨a, ?_⟩, c⟩, d⟩, ?_⟩, ?_⟩, ?_⟩, ?_⟩, ?_⟩
  · simp only [notForEngine, Bool.not_eq_true', Bool.and_eq_false_iff, Bool.or_eq_false_iff, Bool.not_eq_false', List.any_eq_false, decide_eq_true_eq] at b ⊢
    rcases b with b | ⟨⟨b1, b2⟩, b3⟩
    · exact .inl b
    · exact .inr ⟨⟨h6 b1, fun n hn => b2 n (h3 n hn)⟩, fun n hn => b3 n (h4 n hn)⟩
  · rw [Option.isNone_iff_eq_none] at e ⊢
    unfold poisonHit at e ⊢
    rw [List.find?_eq_none] at e ⊢
    intro p hp; have := e p hp
    simp only [Bool.or_eq_true, List.any_eq_true, List.contains_iff_mem, not_or, not_exists, not_and] at this ⊢
    exact ⟨fun x hx hv => this.1 x hx (h1 _ hv), fun x hx hv => this.2 x hx (h3 _ hv)⟩
  · simp only [Bool.or_eq_true, Bool.not_eq_true'] at f ⊢
    rcases f with f | f
    · left; cases hv : v.sys; rfl; simp [h5 hv] at f
    · exact .inr f
  · simp only [List.all_eq_true, List.mem_append] at g ⊢
    exact fun n hn => g n (hn.imp (h1 n) (h2 n))
  · simp only [interlocked, Bool.not_eq_true', Bool.or_eq_false_iff, List.any_eq_false] at i ⊢
    obtain ⟨⟨⟨i1, i2⟩, i3⟩, i4⟩ := i
    exact ⟨⟨⟨fun n hn => i1 n (h1 n hn), fun n hn => i2 n (h2 n hn)⟩, fun n hn => i3 n (h3 n hn)⟩, fun n hn => i4 n (h4 n hn)⟩
  · simp only [classFull] at j ⊢
    rcases h7 with h7 | h7 <;> rw [h7]
    · rfl
    · exact j

/-- The rule of a ready slot's instruction executes. -/
theorem run_done {u : Use} {s t : State} (i : Instr) (f : State → Issue) (h : ready u s = true) (hf : f s = .done t) :
    run i u f s = .next t := by
  rw [run_ready i f h, hf]; rfl

/-- Putting back the slot in issue changes nothing. -/
@[simp] theorem setSlot_slotOf (s : State) : setSlot s (slotOf s) = s := by
  unfold setSlot; rw [slotOf_get, putSlot_getSlot]

/-- A slot that is ready waits for nothing. -/
theorem ready_wait {u : Use} {s : State} (h : ready u s = true) : (slotOf s).wait = .ready := by
  simp only [ready, Bool.and_eq_true, decide_eq_true_eq] at h
  exact h.1.1.1.1.1.2

/-- A slot that is ready may issue. -/
theorem ready_canIssue {u : Use} {s : State} (h : ready u s = true) : canIssue s = true := by
  simp only [ready, Bool.and_eq_true, decide_eq_true_eq] at h
  exact h.1.1.1.1.1.1.2

/-- An agent is in focus where a slot is ready. -/
theorem ready_kind {u : Use} {s : State} (h : ready u s = true) : s.cur.kind ≠ .none := by
  simp only [ready, Bool.and_eq_true, decide_eq_true_eq] at h
  exact h.1.1.1.1.1.1.1.1

/-- A trap of a slot that waits for nothing clears nothing. -/
theorem clearPending_ready (s : State) (hw : (slotOf s).wait = .ready) : clearPending s = s := by
  unfold clearPending; rw [hw]

@[simp] theorem settle_done (s t : State) : settle s (.done t) = t := rfl
@[simp] theorem settle_stall (s : State) : settle s .stall = s := rfl

/-- A trap of a slot that waits for nothing is raised in the state as it was. -/
theorem settle_trap (s : State) (t : TrapInfo) (hw : (slotOf s).wait = .ready) : settle s (.trap t) = raiseTrap s t := by
  simp only [settle, clearPending_ready s hw]

/-- ILLEGAL of a slot that waits for nothing. -/
theorem settle_illegal (s : State) (i : Instr) (hw : (slotOf s).wait = .ready) :
    settle s (illegal s i) = raiseTrap s (illegalTrap s (word0 i)) :=
  settle_trap s _ hw

/-- A trap after a sheaf's lanes are written. -/
theorem settle_after (s t : State) (x : TrapInfo) (hk : s.cur.kind = .sheaf) : settle s (.after t x) = raiseTrap t x := by
  simp only [settle, hk, if_true]

/-- The rule of a ready slot's instruction traps. -/
theorem run_trap {u : Use} {s : State} (i : Instr) (f : State → Issue) (t : TrapInfo) (h : ready u s = true)
    (hf : f s = .trap t) : run i u f s = .next (raiseTrap s t) := by
  rw [run_ready i f h, hf, settle_trap s t (ready_wait h)]

/-- The rule of a ready slot's instruction traps ILLEGAL. -/
theorem run_illegal {u : Use} {s : State} (i : Instr) (f : State → Issue) (h : ready u s = true)
    (hf : f s = illegal s i) : run i u f s = .next (raiseTrap s (illegalTrap s (word0 i))) :=
  run_trap i f _ h hf

/-- The rule of a ready slot's instruction stalls. -/
theorem run_stall {u : Use} {s : State} (i : Instr) (f : State → Issue) (h : ready u s = true) (hf : f s = .stall) :
    run i u f s = .next s := by
  rw [run_ready i f h, hf]; rfl

/-- The rule of a ready slot's instruction traps after its lanes are written. -/
theorem run_after {u : Use} {s t : State} {x : TrapInfo} (i : Instr) (f : State → Issue) (h : ready u s = true)
    (hf : f s = .after t x) (hk : s.cur.kind = .sheaf) : run i u f s = .next (raiseTrap t x) := by
  rw [run_ready i f h, hf]; simp only [settle, hk, if_true]

/-- The lanes that exist. -/
theorem bit_allLanes (w l : Nat) (h : l < 64) : bit (allLanes w) l = decide (l < w) := by
  unfold bit allLanes wd
  rw [BitVec.getLsbD_ofNat, Nat.testBit_two_pow_sub_one]; simp [h]

/-- The program's V and S registers and mode do not matter to `run` beyond its checks: an instruction's issue is a next
state wherever an agent is in focus. -/
theorem run_next {i : Instr} {u : Use} {f : State → Issue} {s : State} (h : s.cur.kind ≠ .none) :
    ∃ t, run i u f s = .next t := by
  unfold run
  rw [if_neg h]
  split <;> exact ⟨_, rfl⟩

/-- Everything that the issue of an instruction can do: no agent is in focus; the engine stops; a check before its own rule
answers; or its own rule does. -/
theorem run_cases (i : Instr) (u : Use) (f : State → Issue) (s : State) :
    (s.cur.kind = .none ∧ run i u f s = .fault .noAgent) ∨
    (s.cur.kind ≠ .none ∧ (run i u f s = .next (stopEngine s (trapCause (issueOf i u f s))) ∨ (∃ r, precheck i u s = some r ∧ run i u f s = .next (settle s r)) ∨
      (precheck i u s = none ∧ run i u f s = .next (settle s (f s))))) := by
  unfold run
  by_cases hk : s.cur.kind = .none
  · exact .inl ⟨hk, if_pos hk⟩
  · refine .inr ⟨hk, ?_⟩
    rw [if_neg hk]
    split
    · exact .inl rfl
    · cases hr : precheck i u s with
      | some r => exact .inr (.inl ⟨r, rfl, by simp [issueOf, hr]⟩)
      | none => exact .inr (.inr ⟨rfl, by simp [issueOf, hr]⟩)

end Sys2Proof.Machine
end

