-- ==== Sys2Proof/Laws/Traps.lean ====
section
/-!
SUPPORT. What taking a trap does: the three ways a precise trap ends, and when two states show the same bytes.
-/
namespace Sys2Proof.Machine

open Sys2Proof

/-! ### Stooks -/

/-- The stook with a number, after it was changed. -/
theorem findStook_updStook {s : State} {id : Nat} {k : Stook} {f : Stook → Stook} (h : findStook s id = some k)
    (hf : ∀ k, (f k).id = k.id) : findStook (updStook s id f) id = some (f k) := by
  unfold findStook updStook at *
  revert h
  generalize s.stooks = l
  intro h
  induction l with
  | nil => cases h
  | cons x r ih =>
    rw [List.find?_cons] at h
    rw [List.map_cons, List.find?_cons]
    by_cases hx : x.id = id
    · rw [if_pos hx, hf x, hx, beq_self_eq_true]
      rw [hx, beq_self_eq_true] at h
      cases h; rfl
    · have hx' : (x.id == id) = false := beq_eq_false_iff_ne.2 hx
      rw [if_neg hx, hx']
      rw [hx'] at h
      exact ih h

/-- A stook that is looked for in a state whose stooks are the same. -/
theorem findStook_congr {s t : State} (id : Nat) (h : t.stooks = s.stooks) : findStook t id = findStook s id := by
  unfold findStook; rw [h]

/-! ### Precise traps -/

/-- A sheaf with a handler takes the trap (R372). -/
theorem raiseTrap_enter {s : State} {x : TrapInfo} (hk : s.cur.kind = .sheaf) (ht : s.cur.thnd ≠ 0)
    (hm : masked s.cur = false) (hf : ¬ (x.cause = FETCH ∧ x.taddr = s.cur.thnd)) :
    raiseTrap s x = onCur { forgetAsks s s.cur.id s.slot with eseq := s.eseq + 1 } (fun a => enterTrap a s.slot false x (s.eseq + 1)) := by
  unfold raiseTrap
  rw [if_pos hk]
  refine if_neg ?_
  rintro (h | h | h)
  · exact ht h
  · exact absurd (hm.symm.trans h) (by decide)
  · exact hf h

/-- A sheaf without a handler for the trap aborts its stook (R373). -/
theorem raiseTrap_abort {s : State} {x : TrapInfo} (hk : s.cur.kind = .sheaf)
    (h : s.cur.thnd = 0 ∨ masked s.cur = true ∨ (x.cause = FETCH ∧ x.taddr = s.cur.thnd)) :
    raiseTrap s x = abortStook (onCur { forgetAsks s s.cur.id s.slot with eseq := s.eseq + 1 } (fun a => writeTrapRegs a s.slot false x (s.eseq + 1)))
      s.cur.stook s.cur.core s.cur.slotNo x.cause (s.eseq + 1) := by
  unfold raiseTrap
  rw [if_pos hk]
  exact if_pos h

/-- An engine program that meets a trap stops (R265). -/
theorem raiseTrap_engine {s : State} {x : TrapInfo} (hk : s.cur.kind ≠ .sheaf) : raiseTrap s x = stopEngine s x.cause := by
  unfold raiseTrap; rw [if_neg hk]

/-- A stook that has not aborted aborts: it is marked, and the abort is logged. -/
theorem abortStook_eq {s : State} {stook core slotNo cause : Nat} {e : Word} {k : Stook} (h : findStook s stook = some k)
    (ha : k.abort = none) : abortStook s stook core slotNo cause e =
      logAt (updStook s stook (fun t => { t with abort := some e })) 107 8 2
        (wd (core + slotNo * 2 ^ 7 + cause * 2 ^ 13 + min k.dropped 65535 * 2 ^ 48)) (wd (2 ^ 56)) e := by
  unfold abortStook; rw [h]; simp [ha]

/-- An imprecise trap of a stook that has not aborted and holds fewer than 16 is held (R374). -/
theorem raiseImprecise_eq {s : State} {stook cause : Nat} {taddr tinfo : Word} {k : Stook} (h : findStook s stook = some k)
    (ha : k.abort = none) (hl : k.held.length < 16) : raiseImprecise s stook cause taddr tinfo =
      updStook { s with eseq := s.eseq + 1 } stook (fun t => { t with held := t.held ++ [⟨cause, taddr, tinfo, s.eseq + 1⟩] }) := by
  unfold raiseImprecise; rw [h]; simp [ha, hl, takeEseq]

/-! ### Bytes as they are seen -/

/-- What a byte of a location depends on. -/
theorem rdByte_congr {s t : State} {coh : Bool} {loc : Nat} (hm : smGet 0 t.mem loc = smGet 0 s.mem loc)
    (hc : smGet none t.cached (loc / 32) = smGet none s.cached (loc / 32)) (hb : t.barriers = s.barriers)
    (hw : barFile loc ≠ none → ∀ c pb, waitersOn t c pb = waitersOn s c pb) : rdByte t coh loc = rdByte s coh loc := by
  have e : homeByte t loc = homeByte s loc := by
    unfold homeByte
    split
    · rfl
    · split
      · next c pb o h =>
        unfold barWord barGet
        rw [hb, hw (by rw [h]; simp)]
      · exact hm
  unfold rdByte held
  rw [hc, e]

/-- The waiters on a barrier depend on what the slots wait for. -/
theorem waitersOn_cur {s t : State} (ha : t.agents = s.agents) (hc : t.cur.core = s.cur.core)
    (hp : t.cur.pri.wait = s.cur.pri.wait) (hs : t.cur.sec.wait = s.cur.sec.wait) (c pb : Nat) :
    waitersOn t c pb = waitersOn s c pb := by
  unfold waitersOn allAgents
  simp only [List.foldl_cons]
  rw [ha, hc, hp, hs]

/-- A change of the agent in focus that leaves what its slots wait for shows the same bytes. -/
theorem sameBytes_cur {s t : State} (hm : t.mem = s.mem) (hc : t.cached = s.cached) (hb : t.barriers = s.barriers)
    (ha : t.agents = s.agents) (hco : t.cur.core = s.cur.core) (hp : t.cur.pri.wait = s.cur.pri.wait)
    (hs : t.cur.sec.wait = s.cur.sec.wait) : sameBytes s t := by
  intro coh loc
  exact rdByte_congr (by rw [hm]) (by rw [hc]) hb (fun _ c pb => waitersOn_cur ha hco hp hs c pb)

end Sys2Proof.Machine
end

