-- ==== Sys2Proof/Laws/Frames.lean ====
section
/-!
SUPPORT. The frames of the register updates, once for each update.
-/
namespace Sys2Proof.Machine

open Sys2Proof

/-- Moving a slot's program counter leaves what the slots wait for. -/
theorem setPc_pri_wait (s : State) (p : Word) : (setPc s p).cur.pri.wait = s.cur.pri.wait := by
  unfold setPc setSlot putSlot slotOf; cases s.slot <;> simp

theorem setPc_sec_wait (s : State) (p : Word) : (setPc s p).cur.sec.wait = s.cur.sec.wait := by
  unfold setPc setSlot putSlot slotOf; cases s.slot <;> simp

theorem sansRegs_setPc (s : State) (p : Word) : sansRegs (setPc s p).cur = sansRegs s.cur := by
  unfold setPc setSlot putSlot slotOf sansRegs; cases s.slot <;> simp

theorem sansRegs_putSA (a : Agent) (n : Nat) (v : Word) : sansRegs (putSA a n v) = sansRegs a := by
  unfold putSA; split <;> rfl

/-- A chain of frames. -/
theorem regFrame_trans {r s t : State} {v₁ v₂ s₁ s₂ m₁ m₂ : List Nat} (h₁ : regFrame r s v₁ s₁ m₁)
    (h₂ : regFrame s t v₂ s₂ m₂) (hs : s.slot = r.slot) : regFrame r t (v₁ ++ v₂) (s₁ ++ s₂) (m₁ ++ m₂) := by
  obtain ⟨a1, a2, a3, a4, a5, a6, a7⟩ := h₁
  obtain ⟨b1, b2, b3, b4, b5, b6, b7⟩ := h₂
  refine ⟨?_, ?_, ?_, b4.trans a4, ?_, ?_, fun c l => (b7 c l).trans (a7 c l)⟩
  · intro n l hn hl
    simp only [List.mem_append, not_or] at hn
    exact (b1 n l hn.2 hl).trans (a1 n l hn.1 hl)
  · intro n hn
    simp only [List.mem_append, not_or] at hn
    exact (b2 n hn.2).trans (a2 n hn.1)
  · intro n hn
    simp only [List.mem_append, not_or] at hn
    exact (b3 n hn.2).trans (a3 n hn.1)
  · rw [hs] at b5; exact b5.trans a5
  · have : ({ t with cur := r.cur } : State) = { ({ t with cur := s.cur } : State) with cur := r.cur } := rfl
    rw [this, b6]; exact a6

/-- Moving the program counter of the slot in issue. -/
theorem regFrame_setPc (s : State) (p : Word) : regFrame s (setPc s p) [] [] [] := by
  refine ⟨fun n l _ _ => getV_setPc s p n l, fun n _ => getS_setPc s p n, fun n _ => getM_setPc s p n, sansRegs_setPc s p,
    ?_, rfl, sameBytes_cur rfl rfl rfl rfl ?_ (setPc_pri_wait s p) (setPc_sec_wait s p)⟩
  · unfold setPc setSlot; rw [getSlot_putSlot_other]
  · unfold setPc setSlot; simp

/-- Writing an S register. -/
theorem regFrame_setS (s : State) (d : Nat) (v : Word) : regFrame s (setS s d v) [] [d] [] := by
  refine ⟨fun n l _ _ => by simp [getV, setS], fun n hn => getS_setS_ne s d n v (by simpa using hn),
    fun n _ => by simp [getM, getMA, widthOf, setS], sansRegs_putSA s.cur d v, by simp [setS], rfl,
    sameBytes_cur rfl rfl rfl rfl (by simp [setS]) (by simp [setS]) (by simp [setS])⟩

/-- Writing an M register. -/
theorem regFrame_setM (s : State) (d : Nat) (v : Word) : regFrame s (setM s d v) [] [] [d] := by
  by_cases h : d = 0
  · subst h; rw [setM_zero]
    exact ⟨fun _ _ _ _ => rfl, fun _ _ => rfl, fun _ _ => rfl, rfl, rfl, rfl, fun _ _ => rfl⟩
  · have e : setM s d v = { s with cur := { s.cur with m := smPut 0 s.cur.m d (v &&& allLanes (wOf s)) } } := by
      unfold setM; rw [if_neg h]
    refine ⟨fun n l _ _ => ?_, fun n _ => ?_, fun n hn => getM_setM_ne s d n v (by simpa using hn), ?_, ?_, ?_, ?_⟩
    all_goals rw [e]
    · rfl
    · rfl
    · rfl
    · cases s.slot <;> rfl
    · exact sameBytes_cur rfl rfl rfl rfl rfl rfl rfl

/-- Writing an S register and moving the program counter. -/
theorem regFrame_setS_setPc (s : State) (d : Nat) (v p : Word) : regFrame s (setPc (setS s d v) p) [] [d] [] :=
  regFrame_trans (regFrame_setS s d v) (regFrame_setPc _ p) rfl

end Sys2Proof.Machine
end

