-- ==== Sys2Proof/Laws/Lanes.lean ====
section
/-!
SUPPORT. What a lane-wise instruction does, once for all of them: its lanes, its flags, its traps, and nothing else.
-/
namespace Sys2Proof.Machine

open Sys2Proof

/-- Lane i of Vn of an agent. -/
def laneA (a : Agent) (n i : Nat) : Lane := smGet 0 a.v (vkey n i)

theorem laneA_putVA (a : Agent) (n i m j : Nat) (x : Lane) (hi : i < 64) (hj : j < 64) :
    laneA (putVA a n i x) m j = if m = n ∧ j = i then x else laneA a m j := by
  unfold laneA putVA
  simp only
  by_cases h : m = n ∧ j = i
  · obtain ⟨rfl, rfl⟩ := h; rw [smGet_smPut_same]; simp
  · rw [if_neg h, smGet_smPut_ne]
    intro e
    have := vkey_inj hj hi e
    exact h ⟨this.1, this.2⟩

theorem sansRegs_putVA (a : Agent) (n i : Nat) (x : Lane) : sansRegs (putVA a n i x) = sansRegs a := rfl

/-- Only the lane written, of the element's registers, changes. -/
theorem laneA_putElem_ne (a : Agent) (et d i n j : Nat) (x : Word) (hi : i < 64) (hj : j < 64)
    (h : n ∉ regs (is64 et) d ∨ j ≠ i) : laneA (putElem a et d i x) n j = laneA a n j := by
  unfold putElem putV2A
  cases hw : is64 et
  · simp only [Bool.false_eq_true, if_false]
    rw [laneA_putVA _ _ _ _ _ _ hi hj, if_neg]
    rintro ⟨rfl, rfl⟩; simp [regs, hw] at h
  · simp only [if_true]
    rw [laneA_putVA _ _ _ _ _ _ hi hj, if_neg, laneA_putVA _ _ _ _ _ _ hi hj, if_neg]
    · rintro ⟨rfl, rfl⟩; simp [regs, hw] at h
    · rintro ⟨rfl, rfl⟩; simp [regs, hw] at h

/-- The element an agent's lane holds, as `holds` says of the agent in focus. -/
def holdsA (a : Agent) (et d l : Nat) (x : Word) : Prop :=
  if is64 et then laneA a (d + 1) l ++ laneA a d l = x else laneA a d l = x.setWidth 32

theorem halves (x : Word) : x.extractLsb' 32 32 ++ x.extractLsb' 0 32 = x := by
  apply BitVec.eq_of_getLsbD_eq
  intro i hi
  simp only [BitVec.getLsbD_append, BitVec.getLsbD_extractLsb']
  by_cases h : i < 32
  · simp [h]
  · simp [h, show 32 + (i - 32) = i by omega, show i - 32 < 32 by omega]

/-- The lane written holds its element. -/
theorem holdsA_putElem (a : Agent) (et d i : Nat) (x : Word) (hi : i < 64) : holdsA (putElem a et d i x) et d i x := by
  unfold holdsA putElem putV2A
  cases hw : is64 et
  · simp only [Bool.false_eq_true, if_false]
    rw [laneA_putVA _ _ _ _ _ _ hi hi]; simp
  · simp only [if_true]
    rw [laneA_putVA _ _ _ _ _ _ hi hi, if_pos ⟨rfl, rfl⟩, laneA_putVA _ _ _ _ _ _ hi hi,
      if_neg (by omega), laneA_putVA _ _ _ _ _ _ hi hi, if_pos ⟨rfl, rfl⟩]
    exact halves x

/-- An element in another lane is kept. -/
theorem holdsA_putElem_ne (a : Agent) (et d i l : Nat) (x y : Word) (hi : i < 64) (hl : l < 64) (h : l ≠ i)
    (hh : holdsA a et d l y) : holdsA (putElem a et d i x) et d l y := by
  unfold holdsA at *
  rw [laneA_putElem_ne _ _ _ _ _ _ _ hi hl (.inr h), laneA_putElem_ne _ _ _ _ _ _ _ hi hl (.inr h)]
  exact hh

/-- Lanes and registers that the list does not name are kept. -/
theorem writeLanes_ne (et d n j : Nat) (hj : j < 64) : ∀ (l : List (Nat × LRes)) (a : Agent), (∀ p ∈ l, p.1 < 64) →
    (n ∉ regs (is64 et) d ∨ ∀ p ∈ l, j ≠ p.1) → laneA (writeLanes a et d l) n j = laneA a n j := by
  intro l
  induction l with
  | nil => intro a _ _; rfl
  | cons p l ih =>
    intro a h64 h
    show laneA (writeLanes (putElem a et d p.1 p.2.val) et d l) n j = _
    rw [ih _ (fun q hq => h64 q (.tail _ hq)) (h.imp id (fun h q hq => h q (.tail _ hq)))]
    exact laneA_putElem_ne _ _ _ _ _ _ _ (h64 p (.head _)) hj (h.imp id (fun h => h p (.head _)))

/-- An element in a lane that the list does not name is kept. -/
theorem writeLanes_keep (et d l0 : Nat) (y : Word) (h0 : l0 < 64) : ∀ (l : List (Nat × LRes)) (a : Agent),
    (∀ p ∈ l, p.1 < 64) → (∀ p ∈ l, l0 ≠ p.1) → holdsA a et d l0 y → holdsA (writeLanes a et d l) et d l0 y := by
  intro l
  induction l with
  | nil => intro a _ _ h; exact h
  | cons p l ih =>
    intro a h64 h hh
    exact ih _ (fun q hq => h64 q (.tail _ hq)) (fun q hq => h q (.tail _ hq))
      (holdsA_putElem_ne _ _ _ _ _ _ _ (h64 p (.head _)) h0 (h p (.head _)) hh)

/-- Each lane of a list without repeats holds its result. -/
theorem writeLanes_holds (et d : Nat) (f : Nat → LRes) : ∀ (act : List Nat) (a : Agent), (∀ l ∈ act, l < 64) → act.Nodup →
    ∀ l ∈ act, holdsA (writeLanes a et d (act.map (fun l => (l, f l)))) et d l (f l).val := by
  intro act
  induction act with
  | nil => intro a _ _ l hl; cases hl
  | cons k act ih =>
    intro a h64 hn l hl
    have hn := List.nodup_cons.1 hn
    show holdsA (writeLanes (putElem a et d k (f k).val) et d (act.map (fun l => (l, f l)))) et d l _
    cases hl with
    | head =>
      refine writeLanes_keep _ _ _ _ (h64 _ (.head _)) _ _ ?_ ?_ (holdsA_putElem _ _ _ _ _ (h64 _ (.head _)))
      · intro p hp; obtain ⟨q, hq, rfl⟩ := List.mem_map.1 hp; exact h64 q (.tail _ hq)
      · intro p hp; obtain ⟨q, hq, rfl⟩ := List.mem_map.1 hp; intro e; exact hn.1 (e ▸ hq)
    | tail _ hl => exact ih _ (fun q hq => h64 q (.tail _ hq)) hn.2 l hl

/-- What writing lanes keeps of the agent. -/
theorem writeLanes_sans (et d : Nat) : ∀ (l : List (Nat × LRes)) (a : Agent),
    sansRegs (writeLanes a et d l) = sansRegs a ∧ (writeLanes a et d l).s = a.s ∧ (writeLanes a et d l).m = a.m ∧
    (writeLanes a et d l).pri = a.pri ∧ (writeLanes a et d l).sec = a.sec ∧ (writeLanes a et d l).k = a.k := by
  intro l
  induction l with
  | nil => intro a; exact ⟨rfl, rfl, rfl, rfl, rfl, rfl⟩
  | cons p l ih =>
    intro a
    have h := ih (putElem a et d p.1 p.2.val)
    have e : sansRegs (putElem a et d p.1 p.2.val) = sansRegs a ∧ (putElem a et d p.1 p.2.val).s = a.s ∧
        (putElem a et d p.1 p.2.val).m = a.m ∧ (putElem a et d p.1 p.2.val).pri = a.pri ∧
        (putElem a et d p.1 p.2.val).sec = a.sec ∧ (putElem a et d p.1 p.2.val).k = a.k := by
      unfold putElem putV2A; split <;> exact ⟨rfl, rfl, rfl, rfl, rfl, rfl⟩
    exact ⟨h.1.trans e.1, h.2.1.trans e.2.1, h.2.2.1.trans e.2.2.1, h.2.2.2.1.trans e.2.2.2.1,
      h.2.2.2.2.1.trans e.2.2.2.2.1, h.2.2.2.2.2.trans e.2.2.2.2.2⟩

/-- A mask of lanes below 64 is zero for no lanes alone. -/
theorem maskList_eq_zero (l : List Nat) (h : ∀ i ∈ l, i < 64) : maskList l = 0 ↔ l = [] := by
  have key : ∀ (l : List Nat) (m : Word) (i : Nat), i < 64 → m.getLsbD i = true →
      (l.foldl (fun m i => m ||| (wd 1 <<< i)) m).getLsbD i = true := by
    intro l
    induction l with
    | nil => intro m i _ hm; exact hm
    | cons k l ih => intro m i hi hm; exact ih _ i hi (by rw [BitVec.getLsbD_or, hm]; rfl)
  constructor
  · intro e
    cases l with
    | nil => rfl
    | cons k l =>
      have hk := h k (.head _)
      have := key l (0 ||| (wd 1 <<< k)) k hk (by
        rw [BitVec.getLsbD_or, BitVec.getLsbD_shiftLeft]; simp [hk, wd])
      unfold maskList at e
      rw [List.foldl_cons, show (0 : Word) ||| (wd 1 <<< k) = 0 ||| (wd 1 <<< k) from rfl] at e
      rw [e] at this; simp at this
  · rintro rfl; rfl

theorem foldl_or_init {n : Nat} (g : Nat → BitVec n) : ∀ (l : List Nat) (x : BitVec n),
    l.foldl (fun y i => y ||| g i) x = x ||| l.foldl (fun y i => y ||| g i) 0 := by
  intro l
  induction l with
  | nil => intro x; simp
  | cons k l ih =>
    intro x
    rw [List.foldl_cons, List.foldl_cons, ih (x ||| g k), ih ((0 : BitVec n) ||| g k), BitVec.or_assoc]
    congr 1; simp

/-- The active lanes exist. -/
theorem activeLanes_lt (s : State) : ∀ l ∈ activeLanes s, l < 64 := by
  intro l hl
  have := (List.mem_filter.1 hl).1
  exact Nat.lt_of_lt_of_le (List.mem_range.1 this) (wOf_le s)

theorem activeLanes_nodup (s : State) : (activeLanes s).Nodup := List.Pairwise.filter _ List.nodup_range

/-- What the registers, memory and the rest of the machine see of a change to the agent in focus and the converter counts. -/
theorem lanes_written (s : State) (et d : Nat) (act : List Nat) (f : Nat → LRes) (h64 : ∀ l ∈ act, l < 64) (hn : act.Nodup) :
    LanesWritten s (advance (countCv (onCur s (fun a =>
      let b := writeLanes a et d (act.map (fun l => (l, f l)))
      { b with sstat := b.sstat ||| allFlags (act.map (fun l => (l, f l))),
               divmask := if maskList (((act.map (fun l => (l, f l))).filter (·.2.div)).map (·.1)) = 0 then b.divmask
                 else maskList (((act.map (fun l => (l, f l))).filter (·.2.div)).map (·.1)) })) s.cur.core
      (allEv (act.map (fun l => (l, f l)))))) et d act f := by
  have hw := writeLanes_sans et d (act.map (fun l => (l, f l))) s.cur
  have h64' : ∀ p ∈ act.map (fun l => (l, f l)), p.1 < 64 := by
    intro p hp; obtain ⟨q, hq, rfl⟩ := List.mem_map.1 hp; exact h64 q hq
  have hss : (writeLanes s.cur et d (act.map (fun l => (l, f l)))).sstat = s.cur.sstat :=
    (congrArg Agent.sstat hw.1 : (sansRegs _).sstat = (sansRegs s.cur).sstat)
  have hdm : (writeLanes s.cur et d (act.map (fun l => (l, f l)))).divmask = s.cur.divmask :=
    (congrArg Agent.divmask hw.1 : (sansRegs _).divmask = (sansRegs s.cur).divmask)
  have hdiv : (((act.map (fun l => (l, f l))).filter (·.2.div)).map (·.1)) = act.filter (fun l => (f l).div) := by
    rw [List.filter_map, List.map_map]; simp [Function.comp_def]
  rw [hdiv]
  have hcv : ∀ (t : State) (c : Nat) (e : CvEv), (countCv t c e).cur = t.cur ∧
      { countCv t c e with cvstat := t.cvstat } = t ∧ (countCv t c e).slot = t.slot := by
    intro t c e; unfold countCv; split <;> exact ⟨rfl, rfl, rfl⟩
  generalize hu : onCur s _ = u
  obtain ⟨hc1, hc2, hc3⟩ := hcv u s.cur.core (allEv (act.map (fun l => (l, f l))))
  have hslot : u.slot = s.slot := by rw [← hu]; rfl
  have hucur : u.cur = { (writeLanes s.cur et d (act.map (fun l => (l, f l)))) with
      sstat := (writeLanes s.cur et d (act.map (fun l => (l, f l)))).sstat ||| allFlags (act.map (fun l => (l, f l))),
      divmask := if maskList (act.filter (fun l => (f l).div)) = 0
        then (writeLanes s.cur et d (act.map (fun l => (l, f l)))).divmask
        else maskList (act.filter (fun l => (f l).div)) } := by rw [← hu]; rfl
  have hpc : pcOf (countCv u s.cur.core (allEv (act.map (fun l => (l, f l))))) = pcOf s := by
    unfold pcOf slotOf
    rw [hc1, hc3, hslot, hucur]
    cases s.slot
    · simp only [Bool.false_eq_true, if_false]; rw [hw.2.2.2.1]
    · simp only [if_true]; rw [hw.2.2.2.2.1]
  have hgv : ∀ n l, getV (advance (countCv u s.cur.core (allEv (act.map (fun l => (l, f l)))))) n l =
      laneA (writeLanes s.cur et d (act.map (fun l => (l, f l)))) n l := by
    intro n l
    rw [getV_advance]; unfold getV; rw [hc1, hucur]; rfl
  have hpl : (putSlot (countCv u s.cur.core (allEv (act.map (fun l => (l, f l))))).cur
      (countCv u s.cur.core (allEv (act.map (fun l => (l, f l))))).slot
      { slotOf (countCv u s.cur.core (allEv (act.map (fun l => (l, f l))))) with
        pc := pcOf (countCv u s.cur.core (allEv (act.map (fun l => (l, f l))))) + 4 }) =
      (advance (countCv u s.cur.core (allEv (act.map (fun l => (l, f l)))))).cur := rfl
  refine ⟨?_, ?_, ?_, ?_, ?_, ?_, ?_, ?_, ?_, ?_⟩
  · intro l hl
    have := writeLanes_holds et d f act s.cur h64 hn l hl
    unfold holds getV2
    unfold holdsA at this
    simp only [hgv]; exact this
  · intro n l hl h
    rw [hgv, writeLanes_ne et d n l hl _ _ h64']
    · rfl
    · refine h.imp id (fun h p hp => ?_)
      obtain ⟨q, hq, rfl⟩ := List.mem_map.1 hp
      intro e; exact h (e ▸ hq)
  · have : (advance (countCv u s.cur.core (allEv (act.map (fun l => (l, f l)))))).cur.sstat = u.cur.sstat := by
      rw [← hc1]; unfold advance setPc setSlot; simp
    rw [this, hucur]
    show _ ||| allFlags _ = _
    rw [hss, foldl_or_init (fun l => (f l).flags)]
    unfold allFlags; rw [List.foldl_map]
  · have : (advance (countCv u s.cur.core (allEv (act.map (fun l => (l, f l)))))).cur.divmask = u.cur.divmask := by
      rw [← hc1]; unfold advance setPc setSlot; simp
    rw [this, hucur]
    show (if _ then _ else _) = _
    rw [hdm]
    have hz := maskList_eq_zero (act.filter (fun l => (f l).div)) (fun i hi => h64 i (List.mem_filter.1 hi).1)
    by_cases h : act.filter (fun l => (f l).div) = []
    · rw [if_pos (hz.2 h), if_neg]
      rw [List.filter_eq_nil_iff] at h
      simpa using h
    · rw [if_neg (fun e => h (hz.1 e)), if_pos]
      rw [List.filter_eq_nil_iff] at h
      simpa using h
  · rw [pcOf_advance, hpc]
  · have h1 := sansRegs_setPc (countCv u s.cur.core (allEv (act.map (fun l => (l, f l)))))
      (pcOf (countCv u s.cur.core (allEv (act.map (fun l => (l, f l))))) + 4)
    unfold advance
    have h2 : ∀ a b : Agent, sansRegs a = sansRegs b →
        sansRegs { a with sstat := s.cur.sstat, divmask := s.cur.divmask } =
        sansRegs { b with sstat := s.cur.sstat, divmask := s.cur.divmask } := by
      intro a b h
      have : ∀ c : Agent, sansRegs { c with sstat := s.cur.sstat, divmask := s.cur.divmask } =
        { sansRegs c with sstat := s.cur.sstat, divmask := s.cur.divmask } := fun _ => rfl
      rw [this, this, h]
    rw [h2 _ _ h1, hc1, hucur]
    have h3 := h2 _ _ hw.1
    exact h3
  · intro n _
    rw [getS_advance]; unfold getS getSA; rw [hc1, hucur]; simp only [hw.2.1]
  · intro n _
    rw [getM_advance]; unfold getM getMA widthOf; rw [hc1, hucur]; simp only [hw.2.2.1, hw.2.2.2.2.2]
  · have h1 : { advance (countCv u s.cur.core (allEv (act.map (fun l => (l, f l))))) with cur := s.cur, cvstat := s.cvstat } =
        { countCv u s.cur.core (allEv (act.map (fun l => (l, f l)))) with cur := s.cur, cvstat := s.cvstat } := rfl
    rw [h1]
    have h2 : u.cvstat = s.cvstat := by rw [← hu]; rfl
    rw [← h2]
    have h3 : { countCv u s.cur.core (allEv (act.map (fun l => (l, f l)))) with cur := s.cur, cvstat := u.cvstat } =
        { { countCv u s.cur.core (allEv (act.map (fun l => (l, f l)))) with cvstat := u.cvstat } with cur := s.cur } := rfl
    rw [h3, hc2, ← hu]; rfl
  · have hc := hc1.trans hucur
    refine sameBytes_cur ?_ ?_ ?_ ?_ ?_ ?_ ?_
    · exact (congrArg State.mem hc2).trans (by rw [← hu]; rfl)
    · exact (congrArg State.cached hc2).trans (by rw [← hu]; rfl)
    · exact (congrArg State.barriers hc2).trans (by rw [← hu]; rfl)
    · exact (congrArg State.agents hc2).trans (by rw [← hu]; rfl)
    · unfold advance setPc setSlot
      simp only [putSlot_core]
      rw [hc]; exact (congrArg Agent.core hw.1 : (sansRegs _).core = (sansRegs s.cur).core)
    · unfold advance; rw [setPc_pri_wait, hc]; simp only [hw.2.2.2.1]
    · unfold advance; rw [setPc_sec_wait, hc]; simp only [hw.2.2.2.2.1]

/-- The end of a lane-wise instruction, whatever its rule: its lanes are written, and a trap that MD enables follows. -/
theorem lanesEnd_written (s : State) (i : Instr) (et d : Nat) (act : List Nat) (f : Nat → LRes)
    (h64 : ∀ l ∈ act, l < 64) (hn : act.Nodup) (hk : s.cur.kind = .sheaf) :
    ∃ t, settle s (lanesEnd s i et d (act.map (fun l => (l, f l)))) = lanesOut s t i act f ∧ LanesWritten s t et d act f := by
  refine ⟨_, ?_, lanes_written s et d act f h64 hn⟩
  have hdiv : (((act.map (fun l => (l, f l))).filter (·.2.div)).map (·.1)) = act.filter (fun l => (f l).div) := by
    rw [List.filter_map, List.map_map]; simp [Function.comp_def]
  have hinv : (((act.map (fun l => (l, f l))).filter (·.2.inv)).map (·.1)) = act.filter (fun l => (f l).inv) := by
    rw [List.filter_map, List.map_map]; simp [Function.comp_def]
  unfold lanesEnd lanesOut
  simp only [hdiv, hinv]
  have zd := maskList_eq_zero (act.filter (fun l => (f l).div)) (fun i hi => h64 i (List.mem_filter.1 hi).1)
  have zi := maskList_eq_zero (act.filter (fun l => (f l).inv)) (fun i hi => h64 i (List.mem_filter.1 hi).1)
  simp only [ne_eq, zd, zi]
  split
  · rw [settle_after _ _ _ hk]; rfl
  · split
    · rw [settle_after _ _ _ hk]; rfl
    · rfl

/-- An instruction outside the engine subset issues in a sheaf alone. -/
theorem ready_sheaf {u : Use} {s : State} (h : ready u s = true) (he : u.eng = false) : s.cur.kind = .sheaf := by
  simp only [ready, Bool.and_eq_true] at h
  obtain ⟨⟨⟨⟨⟨⟨⟨⟨_, b⟩, _⟩, _⟩, _⟩, _⟩, _⟩, _⟩, _⟩ := h
  simpa [notForEngine, he] using b

/-- A lane-wise instruction of the type in force completes, its registers being even where the type takes pairs. -/
theorem lanewise_written {i : Instr} {ok : Nat → Bool} {d : Nat} {ops : List Src} {rd : Bool} {f : State → Nat → LRes}
    {s : State}
    (h : ready {
      vr := (if rd then regs (is64 (etOf s)) d else []) ++ ops.flatMap (srcV (is64 (etOf s)))
      vw := regs (is64 (etOf s)) d
      sr := ops.flatMap srcS } s = true) (hok : ok (etOf s) = true)
    (heven : is64 (etOf s) = true → d % 2 = 0 ∧ ops.any oddSrc = false) :
    ∃ t, lanewise i ok d ops rd f s = .next (lanesOut s t i (activeLanes s) (f s)) ∧
      LanesWritten s t (etOf s) d (activeLanes s) (f s) := by
  obtain ⟨t, h1, h2⟩ := lanesEnd_written s i (etOf s) d (activeLanes s) (f s) (activeLanes_lt s) (activeLanes_nodup s)
    (ready_sheaf h rfl)
  refine ⟨t, ?_, h2⟩
  unfold lanewise
  rw [run_ready _ _ h]
  simp only [hok, Bool.true_eq_false, if_false]
  rw [if_neg, h1]
  rintro ⟨hw, ho⟩
  have := heven hw
  simp [this.2] at ho; omega

end Sys2Proof.Machine
end

