-- ==== Sys2Proof/Laws/Memory.lean ====
section
/-!
SUPPORT. The operations of memory keep its canonical form, and what one write to a sector does.
-/
namespace Sys2Proof.Machine

open Sys2Proof

/-- A state with another's memory is canonical where that is. -/
theorem memOk_of_mem {s t : State} (h : memOk s) (e : t.mem = s.mem) : memOk t := by
  unfold memOk; rw [e]; exact h

/-- Memory at reset is canonical. -/
theorem memOk_reset : memOk State.reset := rfl

/-- Zeroing a range keeps the canonical form. -/
theorem memOk_zeroRange {s : State} (h : memOk s) (loc n : Nat) : memOk (zeroRange s loc n) := smDrop_wf h

/-- With no error lying in a sector, a controller's read detects nothing. -/
@[simp] theorem eccTouch_calm {s : State} (h : s.latent = []) (k : Nat) : eccTouch s k = s := by
  unfold eccTouch; rw [h]; rfl

/-- With no error lying in a sector, a read detects nothing. -/
theorem eccRead_calm {s : State} (h : s.latent = []) (coh : Bool) (loc n : Nat) : eccRead s coh loc n = s := by
  unfold eccRead; rw [h]; rfl

/-- With no error lying in a sector, a walk detects nothing. -/
theorem walkRead_calm {s : State} (h : s.latent = []) (w : Who) (va : Word) : walkRead s w va = s := by
  unfold walkRead; rw [h]; rfl

/-- Logging an event writes no byte. -/
@[simp] theorem logAt_mem (s : State) (u k v : Nat) (a y e : Word) : (logAt s u k v a y e).mem = s.mem := by
  unfold logAt; split <;> rfl

/-- Logging an event writes no byte. -/
@[simp] theorem logOpen_mem (s : State) (u k v : Nat) (a : Word) : (logOpen s u k v a).mem = s.mem := logAt_mem ..

/-- Logging an event of free fields writes no byte. -/
@[simp] theorem logFree_mem (s : State) (u k v : Nat) : (logFree s u k v).mem = s.mem := logAt_mem ..

/-- Rolling a window over writes no byte. -/
@[simp] theorem rollWin_mem (s : State) (u : Nat) : (rollWin s u).mem = s.mem := by
  unfold rollWin; exact (apply_ite State.mem _ _ _).trans (ite_self _)

/-- Retiring a row-group writes no byte. -/
@[simp] theorem retireRow_mem (s : State) (u k : Nat) : (retireRow s u k).mem = s.mem := by
  unfold retireRow; split
  · rfl
  · exact logAt_mem ..

/-- Tracking a row-group writes no byte. -/
@[simp] theorem trackRow_mem (s : State) (u key : Nat) : (trackRow s u key).mem = s.mem := by
  unfold trackRow; exact (apply_ite State.mem _ _ _).trans (ite_self _)

/-- Noting the order and the counts of row-groups writes no byte. -/
theorem withRows_mem (s : State) (a : List Nat) (b : List (Nat × Nat)) : ({ s with rowOrder := a, rowWin := b } : State).mem = s.mem := rfl

/-- Counting a corrected sector once the window is that of now writes no byte. -/
theorem countNow_mem (t : State) (u key : Nat) : (if t.rowRetired.contains key = true then t else
    let s := trackRow t u key
    retireRow { s with rowOrder := s.rowOrder.erase key ++ [key], rowWin := smPut 0 s.rowWin key (smGet 0 s.rowWin key + 1) }
      u key).mem = t.mem := by
  split
  · rfl
  · rw [retireRow_mem, withRows_mem, trackRow_mem]

/-- Counting a corrected sector writes no byte. -/
@[simp] theorem countRow_mem (s : State) (u key : Nat) : (countRow s u key).mem = s.mem := by
  rw [← rollWin_mem s u]
  have h := countNow_mem (rollWin s u) u key
  delta countRow
  exact h

/-- Logging what a read detects writes no byte. -/
@[simp] theorem logEcc_mem (s : State) (e k v : Nat) : (logEcc s e k v).mem = s.mem := by
  unfold logEcc; dsimp only; split
  · exact logOpen_mem ..
  · exact logFree_mem ..

/-- Leaving a sector poisoned writes no byte. -/
@[simp] theorem poisonAt_mem (s : State) (e : Nat) (t : BitVec 12) : (poisonAt s e t).mem = s.mem := by
  unfold poisonAt; split
  · split <;> rfl
  · rfl

/-- What a controller's read detects changes no byte. -/
@[simp] theorem eccTouch_mem (s : State) (k : Nat) : (eccTouch s k).mem = s.mem := by
  unfold eccTouch; dsimp only
  split
  · rfl
  · split
    · rw [countRow_mem, logEcc_mem]
    · exact logEcc_mem ..
  · rw [logEcc_mem, poisonAt_mem]

/-- Reads one after another change no byte where each changes none. -/
theorem foldl_mem {α : Type} (f : State → α → State) (h : ∀ s a, (f s a).mem = s.mem) :
    ∀ (l : List α) (s : State), (l.foldl f s).mem = s.mem
  | [], _ => rfl
  | a :: r, s => by rw [List.foldl_cons, foldl_mem f h r, h]

/-- What reads detect changes no byte. -/
@[simp] theorem eccRead_mem (s : State) (coh : Bool) (loc n : Nat) : (eccRead s coh loc n).mem = s.mem := by
  unfold eccRead; split
  · rfl
  · exact foldl_mem _ (fun s j => eccTouch_mem s _) _ s

/-- What a walk detects changes no byte. -/
theorem walkErrors_mem (w : Who) (va : Nat) : ∀ (f : Nat) (s : State) (level table : Nat),
    (walkErrors w va f s level table).mem = s.mem
  | 0, _, _, _ => rfl
  | f + 1, s, level, table => by
    unfold walkErrors; dsimp only
    split
    · exact walkErrors_mem w va f s _ _
    · split
      · exact eccRead_mem ..
      · rw [walkErrors_mem w va f, eccRead_mem]

/-- What a translation's walk detects changes no byte. -/
@[simp] theorem walkRead_mem (s : State) (w : Who) (va : Word) : (walkRead s w va).mem = s.mem := by
  unfold walkRead
  split
  · rfl
  · split
    · rfl
    · split
      · rfl
      · exact walkErrors_mem ..

/-- Writing a held sector home leaves memory as it was, or writes the sector's 32 bytes. -/
theorem writeHome_mem (s : State) (k : Nat) :
    (writeHome s k).mem = s.mem ∨ ∃ bs : List Byte, (writeHome s k).mem = smPutList 0 s.mem (32 * k) bs := by
  have key : ∀ u : State, u.mem = s.mem → ∀ c : Option Sector,
      (match c with
        | none => u
        | some c => if c.dirty || locClass (32 * k) = 1 then
            { u with cached := smPut none u.cached k (some { c with dirty := false }), latent := smPut 0 u.latent k 0,
                     mem := smPutList 0 u.mem (32 * k) ((List.range 32).map (fun j => c.data.extractLsb' (8 * j) 8)),
                     poison := smPut none u.poison k c.tag }
          else u).mem = s.mem ∨ ∃ bs : List Byte, (match c with
        | none => u
        | some c => if c.dirty || locClass (32 * k) = 1 then
            { u with cached := smPut none u.cached k (some { c with dirty := false }), latent := smPut 0 u.latent k 0,
                     mem := smPutList 0 u.mem (32 * k) ((List.range 32).map (fun j => c.data.extractLsb' (8 * j) 8)),
                     poison := smPut none u.poison k c.tag }
          else u).mem = smPutList 0 s.mem (32 * k) bs := by
    intro u hu c
    cases c with
    | none => exact .inl hu
    | some c =>
      by_cases hc : (c.dirty || locClass (32 * k) = 1) = true
      · refine .inr ⟨(List.range 32).map (fun j => c.data.extractLsb' (8 * j) 8), ?_⟩
        simp only [if_pos hc]
        rw [hu]
      · simp only [if_neg hc]
        exact .inl hu
  unfold writeHome
  exact key _ (by split <;> simp) _

/-- Writing a held sector home keeps the canonical form. -/
theorem memOk_writeHome {s : State} (h : memOk s) (k : Nat) : memOk (writeHome s k) := by
  unfold memOk
  rcases writeHome_mem s k with e | ⟨bs, e⟩ <;> rw [e]
  · exact h
  · exact smPutList_wf h

/-- Writing a held sector back keeps the canonical form. -/
theorem memOk_writeBack {s : State} (h : memOk s) (k : Nat) : memOk (writeBack s k) := memOk_of_mem (memOk_writeHome h k) rfl

/-- Writing one sector leaves memory as it was, or writes the bytes to the home array, in host memory after what the caches held of
the sector. -/
theorem wrSector_mem (s : State) (coh : Bool) (loc : Nat) (bs : List Byte) (tag : Option (BitVec 12)) :
    (wrSector s coh loc bs tag).mem = s.mem ∨ (wrSector s coh loc bs tag).mem = smPutList 0 s.mem loc bs ∨
      ∃ t : State, t.mem = s.mem ∧ (wrSector s coh loc bs tag).mem = smPutList 0 (writeBack t (loc / 32)).mem loc bs := by
  unfold wrSector
  split
  · exact .inl rfl
  · dsimp only
    split
    · split
      · exact .inl rfl
      · exact .inl rfl
    · split
      · exact .inr (.inr ⟨_, (by split <;> rfl), rfl⟩)
      · exact .inr (.inl (by split <;> rfl))

/-- A write to one sector keeps the canonical form. -/
theorem memOk_wrSector {s : State} (h : memOk s) (coh : Bool) (loc : Nat) (bs : List Byte) (tag : Option (BitVec 12)) :
    memOk (wrSector s coh loc bs tag) := by
  unfold memOk
  rcases wrSector_mem s coh loc bs tag with e | e | ⟨t, ht, e⟩ <;> rw [e]
  · exact h
  · exact smPutList_wf h
  · exact smPutList_wf (memOk_writeBack (memOk_of_mem h ht) _)

/-- So does a write over several sectors. -/
theorem memOk_wrRange (f : Nat) {s : State} (h : memOk s) (coh : Bool) (loc : Nat) (bs : List Byte) (tag : Option (BitVec 12)) :
    memOk (wrRange f s coh loc bs tag) := by
  induction f generalizing s loc bs with
  | zero => exact h
  | succ f ih =>
    unfold wrRange
    split
    · exact h
    · exact ih (memOk_wrSector h ..) ..

theorem memOk_wrBytes {s : State} (h : memOk s) (coh : Bool) (loc : Nat) (bs : List Byte) (tag : Option (BitVec 12)) :
    memOk (wrBytes s coh loc bs tag) := memOk_wrRange _ h ..

/-- A home write inside one sector, outside host memory, reads back byte by byte, and no other byte changes. -/
theorem homeByte_wrSector {s : State} {loc : Nat} {bs : List Byte} {tag : Option (BitVec 12)} (h1 : locClass loc ≠ 1)
    (h5 : locClass loc ≠ 5) (hb : barFile loc = none) (j : Nat) (j5 : locClass j ≠ 5) (jb : barFile j = none) :
    homeByte (wrSector s false loc bs tag) j =
      if h : loc ≤ j ∧ j < loc + bs.length then bs[j - loc] else homeByte s j := by
  have e : (wrSector s false loc bs tag).mem = smPutList 0 s.mem loc bs := by
    unfold wrSector
    rw [if_neg (by simp [h5, hb])]
    dsimp only
    rw [if_neg (by decide), if_neg h1]
    split <;> rfl
  unfold homeByte
  rw [if_neg j5, if_neg j5, jb, e, smGet_smPutList]

theorem memOk_writeBackRange {s : State} (h : memOk s) (lo hi : Nat) : memOk (writeBackRange s lo hi) := by
  unfold writeBackRange
  generalize s.cached.filter _ = l
  induction l generalizing s with
  | nil => exact h
  | cons p l ih => exact ih (memOk_writeBack h p.1)

end Sys2Proof.Machine
end

