-- ==== Sys2Proof/Laws/PerInstr.lean ====
section
/-!
SUPPORT. Per instruction: a well-formed instruction's words fit in 32 bits each, and there are at most two of them (R34, R35).
-/
namespace Sys2Proof.Laws

open Sys2Proof

/-- The words of i are words: 32 bits each, and no more than two. -/
def encodable.Statement (i : Instr) : Prop :=
  i.WellFormed = true → (encode i).length ≤ 2 ∧ ∀ w ∈ encode i, w < 2 ^ 32

/-- A signed field fits its width. -/
theorem toField_lt {n : Nat} (i : Int) : toField n i < 2 ^ n := by
  have h : (0 : Int) < 2 ^ n := Int.pow_pos (by decide)
  have h2 := Int.emod_lt_of_pos i h
  have h3 := Int.emod_nonneg i (Int.ne_of_gt h)
  unfold toField
  have e : ((2 ^ n : Nat) : Int) = 2 ^ n := by simp
  omega

/-- An unsigned field fits its width. -/
theorem okU_lt {n v : Nat} (h : okU n v = true) : v < 2 ^ n := of_decide_eq_true h

/-- The parts of a conjunction. -/
theorem and_l {a b : Bool} (h : (a && b) = true) : a = true := (Bool.and_eq_true_iff.mp h).1

theorem and_r {a b : Bool} (h : (a && b) = true) : b = true := (Bool.and_eq_true_iff.mp h).2

/-- No word, one word, two words. -/
theorem no_word : ([] : List Nat).length ≤ 2 ∧ ∀ w ∈ ([] : List Nat), w < 2 ^ 32 := ⟨by decide, fun _ h => nomatch h⟩

theorem one_word {v : Nat} (h : v < 2 ^ 32) : [v].length ≤ 2 ∧ ∀ w ∈ [v], w < 2 ^ 32 :=
  ⟨Nat.le_succ 1, fun _ m => by rw [List.mem_singleton.mp m]; exact h⟩

theorem two_words {u v : Nat} (h : u < 2 ^ 32) (k : v < 2 ^ 32) : [u, v].length ≤ 2 ∧ ∀ w ∈ [u, v], w < 2 ^ 32 :=
  ⟨Nat.le_refl 2, fun w m => by
    rcases List.mem_cons.mp m with e | m
    · rw [e]; exact h
    · rw [List.mem_singleton.mp m]; exact k⟩

/-- A word fits where its fields do. -/
theorem word1_lt {m p0 x0 b0 : Nat} (h0 : x0 < b0)
    (h : m + (b0 - 1) * 2 ^ p0 < 2 ^ 32) : word1 m p0 x0 < 2 ^ 32 := by
  have a0 : x0 * 2 ^ p0 ≤ (b0 - 1) * 2 ^ p0 := Nat.mul_le_mul_right _ (by omega)
  unfold word1
  omega

theorem word2_lt {m p0 x0 p1 x1 b0 b1 : Nat} (h0 : x0 < b0) (h1 : x1 < b1)
    (h : m + (b0 - 1) * 2 ^ p0 + (b1 - 1) * 2 ^ p1 < 2 ^ 32) : word2 m p0 x0 p1 x1 < 2 ^ 32 := by
  have a0 : x0 * 2 ^ p0 ≤ (b0 - 1) * 2 ^ p0 := Nat.mul_le_mul_right _ (by omega)
  have a1 : x1 * 2 ^ p1 ≤ (b1 - 1) * 2 ^ p1 := Nat.mul_le_mul_right _ (by omega)
  unfold word2
  omega

theorem word3_lt {m p0 x0 p1 x1 p2 x2 b0 b1 b2 : Nat} (h0 : x0 < b0) (h1 : x1 < b1) (h2 : x2 < b2)
    (h : m + (b0 - 1) * 2 ^ p0 + (b1 - 1) * 2 ^ p1 + (b2 - 1) * 2 ^ p2 < 2 ^ 32) : word3 m p0 x0 p1 x1 p2 x2 < 2 ^ 32 := by
  have a0 : x0 * 2 ^ p0 ≤ (b0 - 1) * 2 ^ p0 := Nat.mul_le_mul_right _ (by omega)
  have a1 : x1 * 2 ^ p1 ≤ (b1 - 1) * 2 ^ p1 := Nat.mul_le_mul_right _ (by omega)
  have a2 : x2 * 2 ^ p2 ≤ (b2 - 1) * 2 ^ p2 := Nat.mul_le_mul_right _ (by omega)
  unfold word3
  omega

theorem word4_lt {m p0 x0 p1 x1 p2 x2 p3 x3 b0 b1 b2 b3 : Nat} (h0 : x0 < b0) (h1 : x1 < b1) (h2 : x2 < b2) (h3 : x3 < b3)
    (h : m + (b0 - 1) * 2 ^ p0 + (b1 - 1) * 2 ^ p1 + (b2 - 1) * 2 ^ p2 + (b3 - 1) * 2 ^ p3 < 2 ^ 32) : word4 m p0 x0 p1 x1 p2 x2 p3 x3 < 2 ^ 32 := by
  have a0 : x0 * 2 ^ p0 ≤ (b0 - 1) * 2 ^ p0 := Nat.mul_le_mul_right _ (by omega)
  have a1 : x1 * 2 ^ p1 ≤ (b1 - 1) * 2 ^ p1 := Nat.mul_le_mul_right _ (by omega)
  have a2 : x2 * 2 ^ p2 ≤ (b2 - 1) * 2 ^ p2 := Nat.mul_le_mul_right _ (by omega)
  have a3 : x3 * 2 ^ p3 ≤ (b3 - 1) * 2 ^ p3 := Nat.mul_le_mul_right _ (by omega)
  unfold word4
  omega

theorem word5_lt {m p0 x0 p1 x1 p2 x2 p3 x3 p4 x4 b0 b1 b2 b3 b4 : Nat} (h0 : x0 < b0) (h1 : x1 < b1) (h2 : x2 < b2) (h3 : x3 < b3) (h4 : x4 < b4)
    (h : m + (b0 - 1) * 2 ^ p0 + (b1 - 1) * 2 ^ p1 + (b2 - 1) * 2 ^ p2 + (b3 - 1) * 2 ^ p3 + (b4 - 1) * 2 ^ p4 < 2 ^ 32) : word5 m p0 x0 p1 x1 p2 x2 p3 x3 p4 x4 < 2 ^ 32 := by
  have a0 : x0 * 2 ^ p0 ≤ (b0 - 1) * 2 ^ p0 := Nat.mul_le_mul_right _ (by omega)
  have a1 : x1 * 2 ^ p1 ≤ (b1 - 1) * 2 ^ p1 := Nat.mul_le_mul_right _ (by omega)
  have a2 : x2 * 2 ^ p2 ≤ (b2 - 1) * 2 ^ p2 := Nat.mul_le_mul_right _ (by omega)
  have a3 : x3 * 2 ^ p3 ≤ (b3 - 1) * 2 ^ p3 := Nat.mul_le_mul_right _ (by omega)
  have a4 : x4 * 2 ^ p4 ≤ (b4 - 1) * 2 ^ p4 := Nat.mul_le_mul_right _ (by omega)
  unfold word5
  omega

theorem word6_lt {m p0 x0 p1 x1 p2 x2 p3 x3 p4 x4 p5 x5 b0 b1 b2 b3 b4 b5 : Nat} (h0 : x0 < b0) (h1 : x1 < b1) (h2 : x2 < b2) (h3 : x3 < b3) (h4 : x4 < b4) (h5 : x5 < b5)
    (h : m + (b0 - 1) * 2 ^ p0 + (b1 - 1) * 2 ^ p1 + (b2 - 1) * 2 ^ p2 + (b3 - 1) * 2 ^ p3 + (b4 - 1) * 2 ^ p4 + (b5 - 1) * 2 ^ p5 < 2 ^ 32) : word6 m p0 x0 p1 x1 p2 x2 p3 x3 p4 x4 p5 x5 < 2 ^ 32 := by
  have a0 : x0 * 2 ^ p0 ≤ (b0 - 1) * 2 ^ p0 := Nat.mul_le_mul_right _ (by omega)
  have a1 : x1 * 2 ^ p1 ≤ (b1 - 1) * 2 ^ p1 := Nat.mul_le_mul_right _ (by omega)
  have a2 : x2 * 2 ^ p2 ≤ (b2 - 1) * 2 ^ p2 := Nat.mul_le_mul_right _ (by omega)
  have a3 : x3 * 2 ^ p3 ≤ (b3 - 1) * 2 ^ p3 := Nat.mul_le_mul_right _ (by omega)
  have a4 : x4 * 2 ^ p4 ≤ (b4 - 1) * 2 ^ p4 := Nat.mul_le_mul_right _ (by omega)
  have a5 : x5 * 2 ^ p5 ≤ (b5 - 1) * 2 ^ p5 := Nat.mul_le_mul_right _ (by omega)
  unfold word6
  omega

theorem encodable.trap (n : Nat) : encodable.Statement (.trap n) :=
  fun h => one_word (word1_lt (okU_lt (h)) (by decide))

theorem encodable.sadd (d : Nat) (a : Nat) (b : Nat) : encodable.Statement (.sadd d a b) :=
  fun h => one_word (word3_lt (okU_lt (and_l (and_l h))) (okU_lt (and_r (and_l h))) (okU_lt (and_r h)) (by decide))

theorem encodable.ssub (d : Nat) (a : Nat) (b : Nat) : encodable.Statement (.ssub d a b) :=
  fun h => one_word (word3_lt (okU_lt (and_l (and_l h))) (okU_lt (and_r (and_l h))) (okU_lt (and_r h)) (by decide))

theorem encodable.smul (d : Nat) (a : Nat) (b : Nat) : encodable.Statement (.smul d a b) :=
  fun h => one_word (word3_lt (okU_lt (and_l (and_l h))) (okU_lt (and_r (and_l h))) (okU_lt (and_r h)) (by decide))

theorem encodable.smulh (d : Nat) (a : Nat) (b : Nat) : encodable.Statement (.smulh d a b) :=
  fun h => one_word (word3_lt (okU_lt (and_l (and_l h))) (okU_lt (and_r (and_l h))) (okU_lt (and_r h)) (by decide))

theorem encodable.smulhu (d : Nat) (a : Nat) (b : Nat) : encodable.Statement (.smulhu d a b) :=
  fun h => one_word (word3_lt (okU_lt (and_l (and_l h))) (okU_lt (and_r (and_l h))) (okU_lt (and_r h)) (by decide))

theorem encodable.sdiv (d : Nat) (a : Nat) (b : Nat) : encodable.Statement (.sdiv d a b) :=
  fun h => one_word (word3_lt (okU_lt (and_l (and_l h))) (okU_lt (and_r (and_l h))) (okU_lt (and_r h)) (by decide))

theorem encodable.sdivu (d : Nat) (a : Nat) (b : Nat) : encodable.Statement (.sdivu d a b) :=
  fun h => one_word (word3_lt (okU_lt (and_l (and_l h))) (okU_lt (and_r (and_l h))) (okU_lt (and_r h)) (by decide))

theorem encodable.srem (d : Nat) (a : Nat) (b : Nat) : encodable.Statement (.srem d a b) :=
  fun h => one_word (word3_lt (okU_lt (and_l (and_l h))) (okU_lt (and_r (and_l h))) (okU_lt (and_r h)) (by decide))

theorem encodable.sremu (d : Nat) (a : Nat) (b : Nat) : encodable.Statement (.sremu d a b) :=
  fun h => one_word (word3_lt (okU_lt (and_l (and_l h))) (okU_lt (and_r (and_l h))) (okU_lt (and_r h)) (by decide))

theorem encodable.sand (d : Nat) (a : Nat) (b : Nat) : encodable.Statement (.sand d a b) :=
  fun h => one_word (word3_lt (okU_lt (and_l (and_l h))) (okU_lt (and_r (and_l h))) (okU_lt (and_r h)) (by decide))

theorem encodable.sor (d : Nat) (a : Nat) (b : Nat) : encodable.Statement (.sor d a b) :=
  fun h => one_word (word3_lt (okU_lt (and_l (and_l h))) (okU_lt (and_r (and_l h))) (okU_lt (and_r h)) (by decide))

theorem encodable.sxor (d : Nat) (a : Nat) (b : Nat) : encodable.Statement (.sxor d a b) :=
  fun h => one_word (word3_lt (okU_lt (and_l (and_l h))) (okU_lt (and_r (and_l h))) (okU_lt (and_r h)) (by decide))

theorem encodable.sshl (d : Nat) (a : Nat) (b : Nat) : encodable.Statement (.sshl d a b) :=
  fun h => one_word (word3_lt (okU_lt (and_l (and_l h))) (okU_lt (and_r (and_l h))) (okU_lt (and_r h)) (by decide))

theorem encodable.sshr (d : Nat) (a : Nat) (b : Nat) : encodable.Statement (.sshr d a b) :=
  fun h => one_word (word3_lt (okU_lt (and_l (and_l h))) (okU_lt (and_r (and_l h))) (okU_lt (and_r h)) (by decide))

theorem encodable.ssar (d : Nat) (a : Nat) (b : Nat) : encodable.Statement (.ssar d a b) :=
  fun h => one_word (word3_lt (okU_lt (and_l (and_l h))) (okU_lt (and_r (and_l h))) (okU_lt (and_r h)) (by decide))

theorem encodable.smin (d : Nat) (a : Nat) (b : Nat) : encodable.Statement (.smin d a b) :=
  fun h => one_word (word3_lt (okU_lt (and_l (and_l h))) (okU_lt (and_r (and_l h))) (okU_lt (and_r h)) (by decide))

theorem encodable.sminu (d : Nat) (a : Nat) (b : Nat) : encodable.Statement (.sminu d a b) :=
  fun h => one_word (word3_lt (okU_lt (and_l (and_l h))) (okU_lt (and_r (and_l h))) (okU_lt (and_r h)) (by decide))

theorem encodable.smax (d : Nat) (a : Nat) (b : Nat) : encodable.Statement (.smax d a b) :=
  fun h => one_word (word3_lt (okU_lt (and_l (and_l h))) (okU_lt (and_r (and_l h))) (okU_lt (and_r h)) (by decide))

theorem encodable.smaxu (d : Nat) (a : Nat) (b : Nat) : encodable.Statement (.smaxu d a b) :=
  fun h => one_word (word3_lt (okU_lt (and_l (and_l h))) (okU_lt (and_r (and_l h))) (okU_lt (and_r h)) (by decide))

theorem encodable.sseq (d : Nat) (a : Nat) (b : Nat) : encodable.Statement (.sseq d a b) :=
  fun h => one_word (word3_lt (okU_lt (and_l (and_l h))) (okU_lt (and_r (and_l h))) (okU_lt (and_r h)) (by decide))

theorem encodable.ssne (d : Nat) (a : Nat) (b : Nat) : encodable.Statement (.ssne d a b) :=
  fun h => one_word (word3_lt (okU_lt (and_l (and_l h))) (okU_lt (and_r (and_l h))) (okU_lt (and_r h)) (by decide))

theorem encodable.sslt (d : Nat) (a : Nat) (b : Nat) : encodable.Statement (.sslt d a b) :=
  fun h => one_word (word3_lt (okU_lt (and_l (and_l h))) (okU_lt (and_r (and_l h))) (okU_lt (and_r h)) (by decide))

theorem encodable.ssltu (d : Nat) (a : Nat) (b : Nat) : encodable.Statement (.ssltu d a b) :=
  fun h => one_word (word3_lt (okU_lt (and_l (and_l h))) (okU_lt (and_r (and_l h))) (okU_lt (and_r h)) (by decide))

theorem encodable.sclz (d : Nat) (a : Nat) : encodable.Statement (.sclz d a) :=
  fun h => one_word (word2_lt (okU_lt (and_l h)) (okU_lt (and_r h)) (by decide))

theorem encodable.spopc (d : Nat) (a : Nat) : encodable.Statement (.spopc d a) :=
  fun h => one_word (word2_lt (okU_lt (and_l h)) (okU_lt (and_r h)) (by decide))

theorem encodable.saddi (d : Nat) (a : Nat) (i : Int) : encodable.Statement (.saddi d a i) :=
  fun h => one_word (word3_lt (okU_lt (and_l (and_l h))) (okU_lt (and_r (and_l h))) (toField_lt i) (by decide))

theorem encodable.sandi (d : Nat) (a : Nat) (i : Int) : encodable.Statement (.sandi d a i) :=
  fun h => one_word (word3_lt (okU_lt (and_l (and_l h))) (okU_lt (and_r (and_l h))) (toField_lt i) (by decide))

theorem encodable.sori (d : Nat) (a : Nat) (i : Int) : encodable.Statement (.sori d a i) :=
  fun h => one_word (word3_lt (okU_lt (and_l (and_l h))) (okU_lt (and_r (and_l h))) (toField_lt i) (by decide))

theorem encodable.sxori (d : Nat) (a : Nat) (i : Int) : encodable.Statement (.sxori d a i) :=
  fun h => one_word (word3_lt (okU_lt (and_l (and_l h))) (okU_lt (and_r (and_l h))) (toField_lt i) (by decide))

theorem encodable.sshli (d : Nat) (a : Nat) (i : Nat) : encodable.Statement (.sshli d a i) :=
  fun h => one_word (word3_lt (okU_lt (and_l (and_l h))) (okU_lt (and_r (and_l h))) (of_decide_eq_true (and_r h)) (by decide))

theorem encodable.sshri (d : Nat) (a : Nat) (i : Nat) : encodable.Statement (.sshri d a i) :=
  fun h => one_word (word3_lt (okU_lt (and_l (and_l h))) (okU_lt (and_r (and_l h))) (of_decide_eq_true (and_r h)) (by decide))

theorem encodable.ssari (d : Nat) (a : Nat) (i : Nat) : encodable.Statement (.ssari d a i) :=
  fun h => one_word (word3_lt (okU_lt (and_l (and_l h))) (okU_lt (and_r (and_l h))) (of_decide_eq_true (and_r h)) (by decide))

theorem encodable.sslti (d : Nat) (a : Nat) (i : Int) : encodable.Statement (.sslti d a i) :=
  fun h => one_word (word3_lt (okU_lt (and_l (and_l h))) (okU_lt (and_r (and_l h))) (toField_lt i) (by decide))

theorem encodable.sli (d : Nat) (i : Int) : encodable.Statement (.sli d i) :=
  fun h => one_word (word2_lt (okU_lt (and_l h)) (toField_lt i) (by decide))

theorem encodable.sliw (d : Nat) (i : Int) : encodable.Statement (.sliw d i) :=
  fun h => two_words (word1_lt (okU_lt (and_l h)) (by decide)) (toField_lt i)

theorem encodable.slih (d : Nat) (i : Nat) : encodable.Statement (.slih d i) :=
  fun h => two_words (word1_lt (okU_lt (and_l h)) (by decide)) (okU_lt (and_r h))

theorem encodable.sget (d : Nat) (a : Nat) (b : Nat) : encodable.Statement (.sget d a b) :=
  fun h => one_word (word3_lt (okU_lt (and_l (and_l h))) (okU_lt (and_r (and_l h))) (okU_lt (and_r h)) (by decide))

theorem encodable.vset (d : Nat) (a : Nat) (b : Nat) : encodable.Statement (.vset d a b) :=
  fun h => one_word (word3_lt (okU_lt (and_l (and_l h))) (okU_lt (and_r (and_l h))) (okU_lt (and_r h)) (by decide))

theorem encodable.mode (m : Nat) : encodable.Statement (.mode m) := by
  intro h
  simp only [Instr.WellFormed, okMode, Bool.and_eq_true, decide_eq_true_eq] at h
  exact one_word (by unfold word1; omega)

theorem encodable.bra (o : Int) : encodable.Statement (.bra o) :=
  fun h => one_word (word1_lt (toField_lt o) (by decide))

theorem encodable.call (o : Int) : encodable.Statement (.call o) :=
  fun h => one_word (word1_lt (toField_lt o) (by decide))

theorem encodable.jmp (a : Nat) (i : Int) : encodable.Statement (.jmp a i) :=
  fun h => one_word (word2_lt (okU_lt (and_l h)) (toField_lt i) (by decide))

theorem encodable.callr (a : Nat) (i : Int) : encodable.Statement (.callr a i) :=
  fun h => one_word (word2_lt (okU_lt (and_l h)) (toField_lt i) (by decide))

theorem encodable.bc (c : Nat) (h : Nat) (a : Nat) (o : Int) : encodable.Statement (.bc c h a o) :=
  fun h => one_word (word4_lt (of_decide_eq_true (and_l (and_l (and_l h)))) (okU_lt (and_r (and_l (and_l h)))) (okU_lt (and_r (and_l h))) (toField_lt o) (by decide))

theorem encodable.split (k : Nat) (n : Nat) (t : Int) (j : Int) : encodable.Statement (.split k n t j) :=
  fun h => one_word (word4_lt (okU_lt (and_l (and_l (and_l h)))) (okU_lt (and_r (and_l (and_l h)))) (toField_lt t) (toField_lt j) (by decide))

theorem encodable.anyb (k : Nat) (h : Nat) (o : Int) : encodable.Statement (.anyb k h o) :=
  fun h => one_word (word3_lt (okU_lt (and_l (and_l h))) (okU_lt (and_r (and_l h))) (toField_lt o) (by decide))

theorem encodable.allb (k : Nat) (h : Nat) (o : Int) : encodable.Statement (.allb k h o) :=
  fun h => one_word (word3_lt (okU_lt (and_l (and_l h))) (okU_lt (and_r (and_l h))) (toField_lt o) (by decide))

theorem encodable.mfc (d : Nat) (c : Nat) : encodable.Statement (.mfc d c) :=
  fun h => one_word (word2_lt (okU_lt (and_l (and_l h))) (of_decide_eq_true (and_r (and_l h))) (by decide))

theorem encodable.mtc (a : Nat) (c : Nat) : encodable.Statement (.mtc a c) :=
  fun h => one_word (word2_lt (okU_lt (and_l (and_l h))) (of_decide_eq_true (and_r (and_l h))) (by decide))

theorem encodable.chmapWrite (x0 : Nat) : encodable.Statement (.chmapWrite x0) := fun _ => no_word

theorem encodable.nop : encodable.Statement .nop := fun _ => one_word (by decide)

theorem encodable.join : encodable.Statement .join := fun _ => one_word (by decide)

theorem encodable.exit : encodable.Statement .exit := fun _ => one_word (by decide)

theorem encodable.yield : encodable.Statement .yield := fun _ => one_word (by decide)

theorem encodable.safept (n : Nat) : encodable.Statement (.safept n) :=
  fun h => one_word (word1_lt (okU_lt (h)) (by decide))

theorem encodable.rdv : encodable.Statement .rdv := fun _ => one_word (by decide)

theorem encodable.eend : encodable.Statement .eend := fun _ => one_word (by decide)

theorem encodable.clk (d : Nat) : encodable.Statement (.clk d) := fun h => one_word (word1_lt (okU_lt (h)) (by decide))

theorem encodable.rft : encodable.Statement .rft := fun _ => one_word (by decide)

theorem encodable.halt : encodable.Statement .halt := fun _ => one_word (by decide)

theorem encodable.tlbi (a : Nat) : encodable.Statement (.tlbi a) :=
  fun h => one_word (word1_lt (okU_lt (h)) (by decide))

theorem encodable.tlbiAll : encodable.Statement .tlbiAll := fun _ => one_word (by decide)

theorem encodable.cflush (a : Nat) : encodable.Statement (.cflush a) :=
  fun h => one_word (word1_lt (okU_lt (h)) (by decide))

theorem encodable.cinv (a : Nat) : encodable.Statement (.cinv a) :=
  fun h => one_word (word1_lt (okU_lt (h)) (by decide))

theorem encodable.fence (k : Nat) (s : Nat) : encodable.Statement (.fence k s) :=
  fun h => one_word (word2_lt (okU_lt (and_l h)) (of_decide_eq_true (and_r h)) (by decide))

theorem encodable.brk (n : Nat) : encodable.Statement (.brk n) := fun h => one_word (word1_lt (okU_lt (h)) (by decide))

theorem encodable.sysc (n : Nat) : encodable.Statement (.sysc n) :=
  fun h => one_word (word1_lt (okU_lt (h)) (by decide))

theorem encodable.chinj (a : Nat) : encodable.Statement (.chinj a) :=
  fun h => one_word (word1_lt (okU_lt (h)) (by decide))

theorem encodable.fork (a : Nat) (b : Nat) : encodable.Statement (.fork a b) :=
  fun h => one_word (word2_lt (okU_lt (and_l h)) (okU_lt (and_r h)) (by decide))

theorem encodable.spawn (d : Nat) (a : Nat) (b : Nat) : encodable.Statement (.spawn d a b) :=
  fun h => one_word (word3_lt (okU_lt (and_l (and_l h))) (okU_lt (and_r (and_l h))) (okU_lt (and_r h)) (by decide))

theorem encodable.cont (d : Nat) (a : Nat) (b : Nat) : encodable.Statement (.cont d a b) :=
  fun h => one_word (word3_lt (okU_lt (and_l (and_l h))) (okU_lt (and_r (and_l h))) (okU_lt (and_r h)) (by decide))

theorem encodable.wait (l : Nat) (s : Nat) (c : Nat) (t : Nat) : encodable.Statement (.wait l s c t) :=
  fun h => one_word (word4_lt (okU_lt (and_l (and_l (and_l h)))) (okU_lt (and_r (and_l (and_l h)))) (okU_lt (and_r (and_l h))) (okU_lt (and_r h)) (by decide))

theorem encodable.bari (n : Nat) (a : Nat) (i : Nat) : encodable.Statement (.bari n a i) :=
  fun h => one_word (word3_lt (okU_lt (and_l (and_l h))) (okU_lt (and_r (and_l h))) (okU_lt (and_r h)) (by decide))

theorem encodable.bara (n : Nat) (a : Nat) (i : Nat) : encodable.Statement (.bara n a i) :=
  fun h => one_word (word3_lt (okU_lt (and_l (and_l h))) (okU_lt (and_r (and_l h))) (okU_lt (and_r h)) (by decide))

theorem encodable.barw (n : Nat) (a : Nat) (i : Nat) : encodable.Statement (.barw n a i) :=
  fun h => one_word (word3_lt (okU_lt (and_l (and_l h))) (okU_lt (and_r (and_l h))) (okU_lt (and_r h)) (by decide))

theorem encodable.bars (n : Nat) (a : Nat) (i : Nat) : encodable.Statement (.bars n a i) :=
  fun h => one_word (word3_lt (okU_lt (and_l (and_l h))) (okU_lt (and_r (and_l h))) (okU_lt (and_r h)) (by decide))

theorem encodable.barx (n : Nat) (a : Nat) (i : Nat) : encodable.Statement (.barx n a i) :=
  fun h => one_word (word3_lt (okU_lt (and_l (and_l h))) (okU_lt (and_r (and_l h))) (okU_lt (and_r h)) (by decide))

theorem encodable.barq (n : Nat) (d : Nat) (i : Nat) : encodable.Statement (.barq n d i) :=
  fun h => one_word (word3_lt (okU_lt (and_l (and_l h))) (okU_lt (and_r (and_l h))) (okU_lt (and_r h)) (by decide))

theorem encodable.qinit (n : Nat) (a : Nat) (i : Nat) : encodable.Statement (.qinit n a i) :=
  fun h => one_word (word3_lt (okU_lt (and_l (and_l h))) (okU_lt (and_r (and_l h))) (okU_lt (and_r h)) (by decide))

theorem encodable.qpush (n : Nat) (a : Nat) (i : Nat) : encodable.Statement (.qpush n a i) :=
  fun h => one_word (word3_lt (okU_lt (and_l (and_l h))) (okU_lt (and_r (and_l h))) (okU_lt (and_r h)) (by decide))

theorem encodable.qpop (n : Nat) (d : Nat) (i : Nat) : encodable.Statement (.qpop n d i) :=
  fun h => one_word (word3_lt (okU_lt (and_l (and_l h))) (okU_lt (and_r (and_l h))) (okU_lt (and_r h)) (by decide))

theorem encodable.qtry (n : Nat) (d : Nat) (i : Nat) : encodable.Statement (.qtry n d i) :=
  fun h => one_word (word3_lt (okU_lt (and_l (and_l h))) (okU_lt (and_r (and_l h))) (okU_lt (and_r h)) (by decide))

theorem encodable.qgrant (n : Nat) (a : Nat) (i : Nat) : encodable.Statement (.qgrant n a i) :=
  fun h => one_word (word3_lt (okU_lt (and_l (and_l h))) (okU_lt (and_r (and_l h))) (okU_lt (and_r h)) (by decide))

theorem encodable.qstat (n : Nat) (d : Nat) (i : Nat) : encodable.Statement (.qstat n d i) :=
  fun h => one_word (word3_lt (okU_lt (and_l (and_l h))) (okU_lt (and_r (and_l h))) (okU_lt (and_r h)) (by decide))

theorem encodable.cpb (n : Nat) (a : Nat) : encodable.Statement (.cpb n a) :=
  fun h => one_word (word2_lt (okU_lt (and_l h)) (okU_lt (and_r h)) (by decide))

theorem encodable.cpbStatus (d : Nat) (a : Nat) : encodable.Statement (.cpbStatus d a) :=
  fun h => one_word (word2_lt (okU_lt (and_l h)) (okU_lt (and_r h)) (by decide))

theorem encodable.cpl (d : Nat) (b : Nat) (a : Nat) : encodable.Statement (.cpl d b a) :=
  fun h => one_word (word3_lt (okU_lt (and_l (and_l h))) (okU_lt (and_r (and_l h))) (okU_lt (and_r h)) (by decide))

theorem encodable.mma (t : Nat) (a : Nat) (b : Nat) (f : Nat) (g : Nat) (m : Nat) : encodable.Statement (.mma t a b f g m) :=
  fun h => one_word (word6_lt (okU_lt (and_l (and_l (and_l (and_l (and_l h)))))) (okU_lt (and_r (and_l (and_l (and_l (and_l h)))))) (okU_lt (and_r (and_l (and_l (and_l h))))) (of_decide_eq_true (and_r (and_l (and_l h)))) (of_decide_eq_true (and_r (and_l h))) (of_decide_eq_true (and_r h)) (by decide))

theorem encodable.mmaClr (t : Nat) (a : Nat) (b : Nat) (f : Nat) (g : Nat) (m : Nat) : encodable.Statement (.mmaClr t a b f g m) :=
  fun h => one_word (word6_lt (okU_lt (and_l (and_l (and_l (and_l (and_l h)))))) (okU_lt (and_r (and_l (and_l (and_l (and_l h)))))) (okU_lt (and_r (and_l (and_l (and_l h))))) (of_decide_eq_true (and_r (and_l (and_l h)))) (of_decide_eq_true (and_r (and_l h))) (of_decide_eq_true (and_r h)) (by decide))

theorem encodable.aclr (t : Nat) (f : Int) : encodable.Statement (.aclr t f) :=
  fun h => one_word (word2_lt (okU_lt (and_l h)) (toField_lt f) (by decide))

theorem encodable.adrn (t : Nat) (a : Nat) (b : Nat) (f : Nat) (x : Nat) : encodable.Statement (.adrn t a b f x) :=
  fun h => one_word (word5_lt (okU_lt (and_l (and_l (and_l (and_l h))))) (okU_lt (and_r (and_l (and_l (and_l h))))) (okU_lt (and_r (and_l (and_l h)))) (of_decide_eq_true (and_r (and_l h))) (okU_lt (and_r h)) (by decide))

theorem encodable.skupd (d : Nat) (b : Nat) (a : Nat) (h : Nat) : encodable.Statement (.skupd d b a h) :=
  fun h => one_word (word4_lt (okU_lt (and_l (and_l (and_l h)))) (okU_lt (and_r (and_l (and_l h)))) (okU_lt (and_r (and_l h))) (okU_lt (and_r h)) (by decide))

theorem encodable.skqry (d : Nat) (b : Nat) (a : Nat) (h : Nat) : encodable.Statement (.skqry d b a h) :=
  fun h => one_word (word4_lt (okU_lt (and_l (and_l (and_l h)))) (okU_lt (and_r (and_l (and_l h)))) (okU_lt (and_r (and_l h))) (okU_lt (and_r h)) (by decide))

theorem encodable.skadd (n : Nat) (a : Nat) (b : Nat) : encodable.Statement (.skadd n a b) :=
  fun h => one_word (word3_lt (okU_lt (and_l (and_l h))) (okU_lt (and_r (and_l h))) (okU_lt (and_r h)) (by decide))

theorem encodable.skclr (n : Nat) (a : Nat) : encodable.Statement (.skclr n a) :=
  fun h => one_word (word2_lt (okU_lt (and_l h)) (okU_lt (and_r h)) (by decide))

theorem encodable.skdec (n : Nat) (a : Nat) (b : Nat) : encodable.Statement (.skdec n a b) :=
  fun h => one_word (word3_lt (okU_lt (and_l (and_l h))) (okU_lt (and_r (and_l h))) (okU_lt (and_r h)) (by decide))

theorem encodable.nwr (d : Nat) (a : Nat) (b : Nat) : encodable.Statement (.nwr d a b) :=
  fun h => one_word (word3_lt (okU_lt (and_l (and_l h))) (okU_lt (and_r (and_l h))) (okU_lt (and_r h)) (by decide))

theorem encodable.nrd (d : Nat) (a : Nat) (b : Nat) : encodable.Statement (.nrd d a b) :=
  fun h => one_word (word3_lt (okU_lt (and_l (and_l h))) (okU_lt (and_r (and_l h))) (okU_lt (and_r h)) (by decide))

theorem encodable.nred (d : Nat) (a : Nat) (b : Nat) : encodable.Statement (.nred d a b) :=
  fun h => one_word (word3_lt (okU_lt (and_l (and_l h))) (okU_lt (and_r (and_l h))) (okU_lt (and_r h)) (by decide))

theorem encodable.ccall (n : Nat) (a : Nat) : encodable.Statement (.ccall n a) :=
  fun h => one_word (word2_lt (okU_lt (and_l h)) (okU_lt (and_r h)) (by decide))

theorem encodable.ccallStatus (d : Nat) (a : Nat) : encodable.Statement (.ccallStatus d a) :=
  fun h => one_word (word2_lt (okU_lt (and_l h)) (okU_lt (and_r h)) (by decide))

theorem encodable.xalloc (d : Nat) (a : Nat) (b : Nat) : encodable.Statement (.xalloc d a b) :=
  fun h => one_word (word3_lt (okU_lt (and_l (and_l h))) (okU_lt (and_r (and_l h))) (okU_lt (and_r h)) (by decide))

theorem encodable.xfree (d : Nat) (a : Nat) (b : Nat) : encodable.Statement (.xfree d a b) :=
  fun h => one_word (word3_lt (okU_lt (and_l (and_l h))) (okU_lt (and_r (and_l h))) (okU_lt (and_r h)) (by decide))

theorem encodable.xquota (d : Nat) (a : Nat) (b : Nat) : encodable.Statement (.xquota d a b) :=
  fun h => one_word (word3_lt (okU_lt (and_l (and_l h))) (okU_lt (and_r (and_l h))) (okU_lt (and_r h)) (by decide))

theorem encodable.rng (d : Nat) (a : Nat) (b : Nat) : encodable.Statement (.rng d a b) := by
  intro h
  simp only [Instr.WellFormed, okU, Bool.and_eq_true, decide_eq_true_eq] at h
  exact one_word (by unfold word3; omega)

theorem encodable.add (d : Nat) (a : Nat) (b : Nat) : encodable.Statement (.add d a b) :=
  fun h => one_word (word3_lt (okU_lt (and_l (and_l h))) (okU_lt (and_r (and_l h))) (okU_lt (and_r h)) (by decide))

theorem encodable.addScalar (d : Nat) (a : Nat) (b : Nat) : encodable.Statement (.addScalar d a b) :=
  fun h => one_word (word3_lt (okU_lt (and_l (and_l h))) (okU_lt (and_r (and_l h))) (okU_lt (and_r h)) (by decide))

theorem encodable.sub (d : Nat) (a : Nat) (b : Nat) : encodable.Statement (.sub d a b) :=
  fun h => one_word (word3_lt (okU_lt (and_l (and_l h))) (okU_lt (and_r (and_l h))) (okU_lt (and_r h)) (by decide))

theorem encodable.subScalar (d : Nat) (a : Nat) (b : Nat) : encodable.Statement (.subScalar d a b) :=
  fun h => one_word (word3_lt (okU_lt (and_l (and_l h))) (okU_lt (and_r (and_l h))) (okU_lt (and_r h)) (by decide))

theorem encodable.mul (d : Nat) (a : Nat) (b : Nat) : encodable.Statement (.mul d a b) :=
  fun h => one_word (word3_lt (okU_lt (and_l (and_l h))) (okU_lt (and_r (and_l h))) (okU_lt (and_r h)) (by decide))

theorem encodable.mulScalar (d : Nat) (a : Nat) (b : Nat) : encodable.Statement (.mulScalar d a b) :=
  fun h => one_word (word3_lt (okU_lt (and_l (and_l h))) (okU_lt (and_r (and_l h))) (okU_lt (and_r h)) (by decide))

theorem encodable.mulh (d : Nat) (a : Nat) (b : Nat) : encodable.Statement (.mulh d a b) :=
  fun h => one_word (word3_lt (okU_lt (and_l (and_l h))) (okU_lt (and_r (and_l h))) (okU_lt (and_r h)) (by decide))

theorem encodable.mulhScalar (d : Nat) (a : Nat) (b : Nat) : encodable.Statement (.mulhScalar d a b) :=
  fun h => one_word (word3_lt (okU_lt (and_l (and_l h))) (okU_lt (and_r (and_l h))) (okU_lt (and_r h)) (by decide))

theorem encodable.mad (d : Nat) (a : Nat) (b : Nat) : encodable.Statement (.mad d a b) :=
  fun h => one_word (word3_lt (okU_lt (and_l (and_l h))) (okU_lt (and_r (and_l h))) (okU_lt (and_r h)) (by decide))

theorem encodable.madScalar (d : Nat) (a : Nat) (b : Nat) : encodable.Statement (.madScalar d a b) :=
  fun h => one_word (word3_lt (okU_lt (and_l (and_l h))) (okU_lt (and_r (and_l h))) (okU_lt (and_r h)) (by decide))

theorem encodable.div (d : Nat) (a : Nat) (b : Nat) : encodable.Statement (.div d a b) :=
  fun h => one_word (word3_lt (okU_lt (and_l (and_l h))) (okU_lt (and_r (and_l h))) (okU_lt (and_r h)) (by decide))

theorem encodable.divScalar (d : Nat) (a : Nat) (b : Nat) : encodable.Statement (.divScalar d a b) :=
  fun h => one_word (word3_lt (okU_lt (and_l (and_l h))) (okU_lt (and_r (and_l h))) (okU_lt (and_r h)) (by decide))

theorem encodable.rem (d : Nat) (a : Nat) (b : Nat) : encodable.Statement (.rem d a b) :=
  fun h => one_word (word3_lt (okU_lt (and_l (and_l h))) (okU_lt (and_r (and_l h))) (okU_lt (and_r h)) (by decide))

theorem encodable.remScalar (d : Nat) (a : Nat) (b : Nat) : encodable.Statement (.remScalar d a b) :=
  fun h => one_word (word3_lt (okU_lt (and_l (and_l h))) (okU_lt (and_r (and_l h))) (okU_lt (and_r h)) (by decide))

theorem encodable.min (d : Nat) (a : Nat) (b : Nat) : encodable.Statement (.min d a b) :=
  fun h => one_word (word3_lt (okU_lt (and_l (and_l h))) (okU_lt (and_r (and_l h))) (okU_lt (and_r h)) (by decide))

theorem encodable.minScalar (d : Nat) (a : Nat) (b : Nat) : encodable.Statement (.minScalar d a b) :=
  fun h => one_word (word3_lt (okU_lt (and_l (and_l h))) (okU_lt (and_r (and_l h))) (okU_lt (and_r h)) (by decide))

theorem encodable.max (d : Nat) (a : Nat) (b : Nat) : encodable.Statement (.max d a b) :=
  fun h => one_word (word3_lt (okU_lt (and_l (and_l h))) (okU_lt (and_r (and_l h))) (okU_lt (and_r h)) (by decide))

theorem encodable.maxScalar (d : Nat) (a : Nat) (b : Nat) : encodable.Statement (.maxScalar d a b) :=
  fun h => one_word (word3_lt (okU_lt (and_l (and_l h))) (okU_lt (and_r (and_l h))) (okU_lt (and_r h)) (by decide))

theorem encodable.and (d : Nat) (a : Nat) (b : Nat) : encodable.Statement (.and d a b) :=
  fun h => one_word (word3_lt (okU_lt (and_l (and_l h))) (okU_lt (and_r (and_l h))) (okU_lt (and_r h)) (by decide))

theorem encodable.andScalar (d : Nat) (a : Nat) (b : Nat) : encodable.Statement (.andScalar d a b) :=
  fun h => one_word (word3_lt (okU_lt (and_l (and_l h))) (okU_lt (and_r (and_l h))) (okU_lt (and_r h)) (by decide))

theorem encodable.or (d : Nat) (a : Nat) (b : Nat) : encodable.Statement (.or d a b) :=
  fun h => one_word (word3_lt (okU_lt (and_l (and_l h))) (okU_lt (and_r (and_l h))) (okU_lt (and_r h)) (by decide))

theorem encodable.orScalar (d : Nat) (a : Nat) (b : Nat) : encodable.Statement (.orScalar d a b) :=
  fun h => one_word (word3_lt (okU_lt (and_l (and_l h))) (okU_lt (and_r (and_l h))) (okU_lt (and_r h)) (by decide))

theorem encodable.xor (d : Nat) (a : Nat) (b : Nat) : encodable.Statement (.xor d a b) :=
  fun h => one_word (word3_lt (okU_lt (and_l (and_l h))) (okU_lt (and_r (and_l h))) (okU_lt (and_r h)) (by decide))

theorem encodable.xorScalar (d : Nat) (a : Nat) (b : Nat) : encodable.Statement (.xorScalar d a b) :=
  fun h => one_word (word3_lt (okU_lt (and_l (and_l h))) (okU_lt (and_r (and_l h))) (okU_lt (and_r h)) (by decide))

theorem encodable.shl (d : Nat) (a : Nat) (b : Nat) : encodable.Statement (.shl d a b) :=
  fun h => one_word (word3_lt (okU_lt (and_l (and_l h))) (okU_lt (and_r (and_l h))) (okU_lt (and_r h)) (by decide))

theorem encodable.shlScalar (d : Nat) (a : Nat) (b : Nat) : encodable.Statement (.shlScalar d a b) :=
  fun h => one_word (word3_lt (okU_lt (and_l (and_l h))) (okU_lt (and_r (and_l h))) (okU_lt (and_r h)) (by decide))

theorem encodable.shr (d : Nat) (a : Nat) (b : Nat) : encodable.Statement (.shr d a b) :=
  fun h => one_word (word3_lt (okU_lt (and_l (and_l h))) (okU_lt (and_r (and_l h))) (okU_lt (and_r h)) (by decide))

theorem encodable.shrScalar (d : Nat) (a : Nat) (b : Nat) : encodable.Statement (.shrScalar d a b) :=
  fun h => one_word (word3_lt (okU_lt (and_l (and_l h))) (okU_lt (and_r (and_l h))) (okU_lt (and_r h)) (by decide))

theorem encodable.sar (d : Nat) (a : Nat) (b : Nat) : encodable.Statement (.sar d a b) :=
  fun h => one_word (word3_lt (okU_lt (and_l (and_l h))) (okU_lt (and_r (and_l h))) (okU_lt (and_r h)) (by decide))

theorem encodable.sarScalar (d : Nat) (a : Nat) (b : Nat) : encodable.Statement (.sarScalar d a b) :=
  fun h => one_word (word3_lt (okU_lt (and_l (and_l h))) (okU_lt (and_r (and_l h))) (okU_lt (and_r h)) (by decide))

theorem encodable.sel (d : Nat) (a : Nat) (b : Nat) : encodable.Statement (.sel d a b) :=
  fun h => one_word (word3_lt (okU_lt (and_l (and_l h))) (okU_lt (and_r (and_l h))) (okU_lt (and_r h)) (by decide))

theorem encodable.selScalar (d : Nat) (a : Nat) (b : Nat) : encodable.Statement (.selScalar d a b) :=
  fun h => one_word (word3_lt (okU_lt (and_l (and_l h))) (okU_lt (and_r (and_l h))) (okU_lt (and_r h)) (by decide))

theorem encodable.abs (d : Nat) (a : Nat) : encodable.Statement (.abs d a) :=
  fun h => one_word (word2_lt (okU_lt (and_l h)) (okU_lt (and_r h)) (by decide))

theorem encodable.neg (d : Nat) (a : Nat) : encodable.Statement (.neg d a) :=
  fun h => one_word (word2_lt (okU_lt (and_l h)) (okU_lt (and_r h)) (by decide))

theorem encodable.not (d : Nat) (a : Nat) : encodable.Statement (.not d a) :=
  fun h => one_word (word2_lt (okU_lt (and_l h)) (okU_lt (and_r h)) (by decide))

theorem encodable.clz (d : Nat) (a : Nat) : encodable.Statement (.clz d a) :=
  fun h => one_word (word2_lt (okU_lt (and_l h)) (okU_lt (and_r h)) (by decide))

theorem encodable.popc (d : Nat) (a : Nat) : encodable.Statement (.popc d a) :=
  fun h => one_word (word2_lt (okU_lt (and_l h)) (okU_lt (and_r h)) (by decide))

theorem encodable.mov (d : Nat) (b : Nat) : encodable.Statement (.mov d b) :=
  fun h => one_word (word2_lt (okU_lt (and_l h)) (okU_lt (and_r h)) (by decide))

theorem encodable.movScalar (d : Nat) (b : Nat) : encodable.Statement (.movScalar d b) :=
  fun h => one_word (word2_lt (okU_lt (and_l h)) (okU_lt (and_r h)) (by decide))

theorem encodable.lid (d : Nat) : encodable.Statement (.lid d) := fun h => one_word (word1_lt (okU_lt (h)) (by decide))

theorem encodable.cvt (d : Nat) (a : Nat) (t : Nat) : encodable.Statement (.cvt d a t) :=
  fun h => one_word (word3_lt (okU_lt (and_l (and_l h))) (okU_lt (and_r (and_l h))) (of_decide_eq_true (and_r h)) (by decide))

theorem encodable.rcp (d : Nat) (a : Nat) : encodable.Statement (.rcp d a) :=
  fun h => one_word (word2_lt (okU_lt (and_l h)) (okU_lt (and_r h)) (by decide))

theorem encodable.rsq (d : Nat) (a : Nat) : encodable.Statement (.rsq d a) :=
  fun h => one_word (word2_lt (okU_lt (and_l h)) (okU_lt (and_r h)) (by decide))

theorem encodable.sqrt (d : Nat) (a : Nat) : encodable.Statement (.sqrt d a) :=
  fun h => one_word (word2_lt (okU_lt (and_l h)) (okU_lt (and_r h)) (by decide))

theorem encodable.exp2 (d : Nat) (a : Nat) : encodable.Statement (.exp2 d a) :=
  fun h => one_word (word2_lt (okU_lt (and_l h)) (okU_lt (and_r h)) (by decide))

theorem encodable.log2 (d : Nat) (a : Nat) : encodable.Statement (.log2 d a) :=
  fun h => one_word (word2_lt (okU_lt (and_l h)) (okU_lt (and_r h)) (by decide))

theorem encodable.sinp (d : Nat) (a : Nat) : encodable.Statement (.sinp d a) :=
  fun h => one_word (word2_lt (okU_lt (and_l h)) (okU_lt (and_r h)) (by decide))

theorem encodable.cosp (d : Nat) (a : Nat) : encodable.Statement (.cosp d a) :=
  fun h => one_word (word2_lt (okU_lt (and_l h)) (okU_lt (and_r h)) (by decide))

theorem encodable.rint (d : Nat) (a : Nat) : encodable.Statement (.rint d a) :=
  fun h => one_word (word2_lt (okU_lt (and_l h)) (okU_lt (and_r h)) (by decide))

theorem encodable.addi (d : Nat) (a : Nat) (i : Int) : encodable.Statement (.addi d a i) :=
  fun h => one_word (word3_lt (okU_lt (and_l (and_l h))) (okU_lt (and_r (and_l h))) (toField_lt i) (by decide))

theorem encodable.andi (d : Nat) (a : Nat) (i : Int) : encodable.Statement (.andi d a i) :=
  fun h => one_word (word3_lt (okU_lt (and_l (and_l h))) (okU_lt (and_r (and_l h))) (toField_lt i) (by decide))

theorem encodable.shli (d : Nat) (a : Nat) (i : Nat) : encodable.Statement (.shli d a i) :=
  fun h => one_word (word3_lt (okU_lt (and_l (and_l h))) (okU_lt (and_r (and_l h))) (of_decide_eq_true (and_r h)) (by decide))

theorem encodable.shri (d : Nat) (a : Nat) (i : Nat) : encodable.Statement (.shri d a i) :=
  fun h => one_word (word3_lt (okU_lt (and_l (and_l h))) (okU_lt (and_r (and_l h))) (of_decide_eq_true (and_r h)) (by decide))

theorem encodable.sari (d : Nat) (a : Nat) (i : Nat) : encodable.Statement (.sari d a i) :=
  fun h => one_word (word3_lt (okU_lt (and_l (and_l h))) (okU_lt (and_r (and_l h))) (of_decide_eq_true (and_r h)) (by decide))

theorem encodable.muli (d : Nat) (a : Nat) (i : Int) : encodable.Statement (.muli d a i) :=
  fun h => one_word (word3_lt (okU_lt (and_l (and_l h))) (okU_lt (and_r (and_l h))) (toField_lt i) (by decide))

theorem encodable.cmp (m : Nat) (c : Nat) (a : Nat) (b : Nat) : encodable.Statement (.cmp m c a b) :=
  fun h => one_word (word4_lt (okU_lt (and_l (and_l (and_l h)))) (of_decide_eq_true (and_r (and_l (and_l h)))) (okU_lt (and_r (and_l h))) (okU_lt (and_r h)) (by decide))

theorem encodable.cmpScalar (m : Nat) (c : Nat) (a : Nat) (b : Nat) : encodable.Statement (.cmpScalar m c a b) :=
  fun h => one_word (word4_lt (okU_lt (and_l (and_l (and_l h)))) (of_decide_eq_true (and_r (and_l (and_l h)))) (okU_lt (and_r (and_l h))) (okU_lt (and_r h)) (by decide))

theorem encodable.cmpi (m : Nat) (c : Nat) (a : Nat) (i : Int) : encodable.Statement (.cmpi m c a i) :=
  fun h => one_word (word4_lt (okU_lt (and_l (and_l (and_l h)))) (of_decide_eq_true (and_r (and_l (and_l h)))) (okU_lt (and_r (and_l h))) (toField_lt i) (by decide))

theorem encodable.mand (d : Nat) (a : Nat) (b : Nat) : encodable.Statement (.mand d a b) :=
  fun h => one_word (word3_lt (okU_lt (and_l (and_l h))) (okU_lt (and_r (and_l h))) (okU_lt (and_r h)) (by decide))

theorem encodable.mor (d : Nat) (a : Nat) (b : Nat) : encodable.Statement (.mor d a b) :=
  fun h => one_word (word3_lt (okU_lt (and_l (and_l h))) (okU_lt (and_r (and_l h))) (okU_lt (and_r h)) (by decide))

theorem encodable.mxor (d : Nat) (a : Nat) (b : Nat) : encodable.Statement (.mxor d a b) :=
  fun h => one_word (word3_lt (okU_lt (and_l (and_l h))) (okU_lt (and_r (and_l h))) (okU_lt (and_r h)) (by decide))

theorem encodable.mandn (d : Nat) (a : Nat) (b : Nat) : encodable.Statement (.mandn d a b) :=
  fun h => one_word (word3_lt (okU_lt (and_l (and_l h))) (okU_lt (and_r (and_l h))) (okU_lt (and_r h)) (by decide))

theorem encodable.mnot (d : Nat) (a : Nat) : encodable.Statement (.mnot d a) :=
  fun h => one_word (word2_lt (okU_lt (and_l h)) (okU_lt (and_r h)) (by decide))

theorem encodable.mset (k : Nat) (a : Nat) : encodable.Statement (.mset k a) :=
  fun h => one_word (word2_lt (okU_lt (and_l h)) (okU_lt (and_r h)) (by decide))

theorem encodable.mget (d : Nat) (k : Nat) : encodable.Statement (.mget d k) :=
  fun h => one_word (word2_lt (okU_lt (and_l h)) (okU_lt (and_r h)) (by decide))

theorem encodable.mpop (d : Nat) (k : Nat) : encodable.Statement (.mpop d k) :=
  fun h => one_word (word2_lt (okU_lt (and_l h)) (okU_lt (and_r h)) (by decide))

theorem encodable.mfst (d : Nat) (k : Nat) : encodable.Statement (.mfst d k) :=
  fun h => one_word (word2_lt (okU_lt (and_l h)) (okU_lt (and_r h)) (by decide))

theorem encodable.shfl (d : Nat) (a : Nat) (b : Nat) : encodable.Statement (.shfl d a b) :=
  fun h => one_word (word3_lt (okU_lt (and_l (and_l h))) (okU_lt (and_r (and_l h))) (okU_lt (and_r h)) (by decide))

theorem encodable.shflScalar (d : Nat) (a : Nat) (b : Nat) : encodable.Statement (.shflScalar d a b) :=
  fun h => one_word (word3_lt (okU_lt (and_l (and_l h))) (okU_lt (and_r (and_l h))) (okU_lt (and_r h)) (by decide))

theorem encodable.shflx (d : Nat) (a : Nat) (i : Int) : encodable.Statement (.shflx d a i) :=
  fun h => one_word (word3_lt (okU_lt (and_l (and_l h))) (okU_lt (and_r (and_l h))) (toField_lt i) (by decide))

theorem encodable.shflu (d : Nat) (a : Nat) (i : Int) : encodable.Statement (.shflu d a i) :=
  fun h => one_word (word3_lt (okU_lt (and_l (and_l h))) (okU_lt (and_r (and_l h))) (toField_lt i) (by decide))

theorem encodable.shfld (d : Nat) (a : Nat) (i : Int) : encodable.Statement (.shfld d a i) :=
  fun h => one_word (word3_lt (okU_lt (and_l (and_l h))) (okU_lt (and_r (and_l h))) (toField_lt i) (by decide))

theorem encodable.bcast (d : Nat) (a : Nat) (i : Int) : encodable.Statement (.bcast d a i) :=
  fun h => one_word (word3_lt (okU_lt (and_l (and_l h))) (okU_lt (and_r (and_l h))) (toField_lt i) (by decide))

theorem encodable.rsum (d : Nat) (a : Nat) : encodable.Statement (.rsum d a) :=
  fun h => one_word (word2_lt (okU_lt (and_l h)) (okU_lt (and_r h)) (by decide))

theorem encodable.rmin (d : Nat) (a : Nat) : encodable.Statement (.rmin d a) :=
  fun h => one_word (word2_lt (okU_lt (and_l h)) (okU_lt (and_r h)) (by decide))

theorem encodable.rmax (d : Nat) (a : Nat) : encodable.Statement (.rmax d a) :=
  fun h => one_word (word2_lt (okU_lt (and_l h)) (okU_lt (and_r h)) (by decide))

theorem encodable.rand (d : Nat) (a : Nat) : encodable.Statement (.rand d a) :=
  fun h => one_word (word2_lt (okU_lt (and_l h)) (okU_lt (and_r h)) (by decide))

theorem encodable.ror (d : Nat) (a : Nat) : encodable.Statement (.ror d a) :=
  fun h => one_word (word2_lt (okU_lt (and_l h)) (okU_lt (and_r h)) (by decide))

theorem encodable.rxor (d : Nat) (a : Nat) : encodable.Statement (.rxor d a) :=
  fun h => one_word (word2_lt (okU_lt (and_l h)) (okU_lt (and_r h)) (by decide))

theorem encodable.psum (d : Nat) (a : Nat) : encodable.Statement (.psum d a) :=
  fun h => one_word (word2_lt (okU_lt (and_l h)) (okU_lt (and_r h)) (by decide))

theorem encodable.psumx (d : Nat) (a : Nat) : encodable.Statement (.psumx d a) :=
  fun h => one_word (word2_lt (okU_lt (and_l h)) (okU_lt (and_r h)) (by decide))

theorem encodable.pmin (d : Nat) (a : Nat) : encodable.Statement (.pmin d a) :=
  fun h => one_word (word2_lt (okU_lt (and_l h)) (okU_lt (and_r h)) (by decide))

theorem encodable.pmax (d : Nat) (a : Nat) : encodable.Statement (.pmax d a) :=
  fun h => one_word (word2_lt (okU_lt (and_l h)) (okU_lt (and_r h)) (by decide))

theorem encodable.sort (d : Nat) (a : Nat) : encodable.Statement (.sort d a) :=
  fun h => one_word (word2_lt (okU_lt (and_l h)) (okU_lt (and_r h)) (by decide))

theorem encodable.sorti (d : Nat) (a : Nat) : encodable.Statement (.sorti d a) :=
  fun h => one_word (word2_lt (okU_lt (and_l h)) (okU_lt (and_r h)) (by decide))

theorem encodable.mrglo (d : Nat) (a : Nat) (b : Nat) : encodable.Statement (.mrglo d a b) :=
  fun h => one_word (word3_lt (okU_lt (and_l (and_l h))) (okU_lt (and_r (and_l h))) (okU_lt (and_r h)) (by decide))

theorem encodable.mrghi (d : Nat) (a : Nat) (b : Nat) : encodable.Statement (.mrghi d a b) :=
  fun h => one_word (word3_lt (okU_lt (and_l (and_l h))) (okU_lt (and_r (and_l h))) (okU_lt (and_r h)) (by decide))

theorem encodable.mrgi (d : Nat) (a : Nat) (b : Nat) : encodable.Statement (.mrgi d a b) :=
  fun h => one_word (word3_lt (okU_lt (and_l (and_l h))) (okU_lt (and_r (and_l h))) (okU_lt (and_r h)) (by decide))

theorem encodable.lds (d : Nat) (a : Nat) (z : Nat) (o : Int) : encodable.Statement (.lds d a z o) :=
  fun h => one_word (word4_lt (okU_lt (and_l (and_l (and_l h)))) (okU_lt (and_r (and_l (and_l h)))) (okU_lt (and_r (and_l h))) (toField_lt o) (by decide))

theorem encodable.sts (d : Nat) (a : Nat) (z : Nat) (o : Int) : encodable.Statement (.sts d a z o) :=
  fun h => one_word (word4_lt (okU_lt (and_l (and_l (and_l h)))) (okU_lt (and_r (and_l (and_l h)))) (okU_lt (and_r (and_l h))) (toField_lt o) (by decide))

theorem encodable.ldaq (d : Nat) (a : Nat) (c : Nat) (w : Nat) (o : Int) : encodable.Statement (.ldaq d a c w o) :=
  fun h => one_word (word5_lt (okU_lt (and_l (and_l (and_l (and_l h))))) (okU_lt (and_r (and_l (and_l (and_l h))))) (of_decide_eq_true (and_r (and_l (and_l h)))) (okU_lt (and_r (and_l h))) (toField_lt o) (by decide))

theorem encodable.strl (d : Nat) (a : Nat) (c : Nat) (w : Nat) (o : Int) : encodable.Statement (.strl d a c w o) :=
  fun h => one_word (word5_lt (okU_lt (and_l (and_l (and_l (and_l h))))) (okU_lt (and_r (and_l (and_l (and_l h))))) (of_decide_eq_true (and_r (and_l (and_l h)))) (okU_lt (and_r (and_l h))) (toField_lt o) (by decide))

theorem encodable.ldc (d : Nat) (a : Nat) (o : Int) (z : Nat) : encodable.Statement (.ldc d a o z) :=
  fun h => one_word (word4_lt (okU_lt (and_l (and_l (and_l h)))) (okU_lt (and_r (and_l (and_l h)))) (toField_lt o) (okU_lt (and_r h)) (by decide))

theorem encodable.stc (d : Nat) (a : Nat) (o : Int) (z : Nat) : encodable.Statement (.stc d a o z) :=
  fun h => one_word (word4_lt (okU_lt (and_l (and_l (and_l h)))) (okU_lt (and_r (and_l (and_l h)))) (toField_lt o) (okU_lt (and_r h)) (by decide))

theorem encodable.ldv (d : Nat) (b : Nat) (a : Nat) (z : Nat) (h : Nat) : encodable.Statement (.ldv d b a z h) :=
  fun h => one_word (word5_lt (okU_lt (and_l (and_l (and_l (and_l h))))) (okU_lt (and_r (and_l (and_l (and_l h))))) (okU_lt (and_r (and_l (and_l h)))) (okU_lt (and_r (and_l h))) (okU_lt (and_r h)) (by decide))

theorem encodable.stv (d : Nat) (b : Nat) (a : Nat) (z : Nat) (h : Nat) : encodable.Statement (.stv d b a z h) :=
  fun h => one_word (word5_lt (okU_lt (and_l (and_l (and_l (and_l h))))) (okU_lt (and_r (and_l (and_l (and_l h))))) (okU_lt (and_r (and_l (and_l h)))) (okU_lt (and_r (and_l h))) (okU_lt (and_r h)) (by decide))

theorem encodable.pref (a : Nat) (l : Nat) (o : Int) : encodable.Statement (.pref a l o) :=
  fun h => one_word (word3_lt (okU_lt (and_l (and_l h))) (of_decide_eq_true (and_r (and_l h))) (toField_lt o) (by decide))

theorem encodable.atadd (d : Nat) (a : Nat) (b : Nat) (h : Nat) : encodable.Statement (.atadd d a b h) := by
  intro h
  simp only [Instr.WellFormed, okU, Bool.and_eq_true, decide_eq_true_eq] at h
  exact one_word (by unfold word4; omega)

theorem encodable.atmin (d : Nat) (a : Nat) (b : Nat) (h : Nat) : encodable.Statement (.atmin d a b h) := by
  intro h
  simp only [Instr.WellFormed, okU, Bool.and_eq_true, decide_eq_true_eq] at h
  exact one_word (by unfold word4; omega)

theorem encodable.atmax (d : Nat) (a : Nat) (b : Nat) (h : Nat) : encodable.Statement (.atmax d a b h) := by
  intro h
  simp only [Instr.WellFormed, okU, Bool.and_eq_true, decide_eq_true_eq] at h
  exact one_word (by unfold word4; omega)

theorem encodable.atand (d : Nat) (a : Nat) (b : Nat) (h : Nat) : encodable.Statement (.atand d a b h) := by
  intro h
  simp only [Instr.WellFormed, okU, Bool.and_eq_true, decide_eq_true_eq] at h
  exact one_word (by unfold word4; omega)

theorem encodable.ator (d : Nat) (a : Nat) (b : Nat) (h : Nat) : encodable.Statement (.ator d a b h) := by
  intro h
  simp only [Instr.WellFormed, okU, Bool.and_eq_true, decide_eq_true_eq] at h
  exact one_word (by unfold word4; omega)

theorem encodable.atxor (d : Nat) (a : Nat) (b : Nat) (h : Nat) : encodable.Statement (.atxor d a b h) := by
  intro h
  simp only [Instr.WellFormed, okU, Bool.and_eq_true, decide_eq_true_eq] at h
  exact one_word (by unfold word4; omega)

theorem encodable.atxch (d : Nat) (a : Nat) (b : Nat) (h : Nat) : encodable.Statement (.atxch d a b h) := by
  intro h
  simp only [Instr.WellFormed, okU, Bool.and_eq_true, decide_eq_true_eq] at h
  exact one_word (by unfold word4; omega)

theorem encodable.atcas (d : Nat) (a : Nat) (b : Nat) (h : Nat) : encodable.Statement (.atcas d a b h) := by
  intro h
  simp only [Instr.WellFormed, okU, Bool.and_eq_true, decide_eq_true_eq] at h
  exact one_word (by unfold word4; omega)

theorem encodable.impreciseTrapDelivery : encodable.Statement .impreciseTrapDelivery := fun _ => no_word

theorem encodable.memoryResponse : encodable.Statement .memoryResponse := fun _ => no_word

theorem encodable.storeAck : encodable.Statement .storeAck := fun _ => no_word

theorem encodable.frespWrite : encodable.Statement .frespWrite := fun _ => no_word

theorem encodable.faultReplay : encodable.Statement .faultReplay := fun _ => no_word

theorem encodable.faultDoorbellRepeat : encodable.Statement .faultDoorbellRepeat := fun _ => no_word

theorem encodable.faultRingRetry : encodable.Statement .faultRingRetry := fun _ => no_word

theorem encodable.epochTick : encodable.Statement .epochTick := fun _ => no_word

theorem encodable.pinRelease : encodable.Statement .pinRelease := fun _ => no_word

theorem encodable.nearAtomicService : encodable.Statement .nearAtomicService := fun _ => no_word

theorem encodable.atomicServiceRestart : encodable.Statement .atomicServiceRestart := fun _ => no_word

theorem encodable.copyExecute : encodable.Statement .copyExecute := fun _ => no_word

theorem encodable.copyComplete : encodable.Statement .copyComplete := fun _ => no_word

theorem encodable.followOnMma : encodable.Statement .followOnMma := fun _ => no_word

theorem encodable.cplLaneLand : encodable.Statement .cplLaneLand := fun _ => no_word

theorem encodable.tileOpStart : encodable.Statement .tileOpStart := fun _ => no_word

theorem encodable.mmaComplete : encodable.Statement .mmaComplete := fun _ => no_word

theorem encodable.adrnComplete : encodable.Statement .adrnComplete := fun _ => no_word

theorem encodable.sketchCounterStep : encodable.Statement .sketchCounterStep := fun _ => no_word

theorem encodable.skopCounterStep : encodable.Statement .skopCounterStep := fun _ => no_word

theorem encodable.skqryResponse : encodable.Statement .skqryResponse := fun _ => no_word

theorem encodable.dieLastingFault : encodable.Statement .dieLastingFault := fun _ => no_word

theorem encodable.errorWindowBoundary : encodable.Statement .errorWindowBoundary := fun _ => no_word

theorem encodable.rowGroupRetire : encodable.Statement .rowGroupRetire := fun _ => no_word

theorem encodable.wavelengthRetire : encodable.Statement .wavelengthRetire := fun _ => no_word

theorem encodable.bankAcknowledge : encodable.Statement .bankAcknowledge := fun _ => no_word

theorem encodable.sequencerStart : encodable.Statement .sequencerStart := fun _ => no_word

theorem encodable.tailWrite : encodable.Statement .tailWrite := fun _ => no_word

theorem encodable.launchTake : encodable.Statement .launchTake := fun _ => no_word

theorem encodable.recordAdmit : encodable.Statement .recordAdmit := fun _ => no_word

theorem encodable.stookEnd : encodable.Statement .stookEnd := fun _ => no_word

theorem encodable.sheafSwap : encodable.Statement .sheafSwap := fun _ => no_word

theorem encodable.sheafDisplace : encodable.Statement .sheafDisplace := fun _ => no_word

theorem encodable.preemptRequest : encodable.Statement .preemptRequest := fun _ => no_word

theorem encodable.preemptDeadline : encodable.Statement .preemptDeadline := fun _ => no_word

theorem encodable.preemptResume : encodable.Statement .preemptResume := fun _ => no_word

theorem encodable.flitBoundary : encodable.Statement .flitBoundary := fun _ => no_word

theorem encodable.flitReceive : encodable.Statement .flitReceive := fun _ => no_word

theorem encodable.retry : encodable.Statement .retry := fun _ => no_word

theorem encodable.berThreshold : encodable.Statement .berThreshold := fun _ => no_word

theorem encodable.retrain : encodable.Statement .retrain := fun _ => no_word

theorem encodable.traindone : encodable.Statement .traindone := fun _ => no_word

theorem encodable.trainingTimeout : encodable.Statement .trainingTimeout := fun _ => no_word

theorem encodable.berWindow : encodable.Statement .berWindow := fun _ => no_word

theorem encodable.linkTrain : encodable.Statement .linkTrain := fun _ => no_word

theorem encodable.linkPark : encodable.Statement .linkPark := fun _ => no_word

theorem encodable.parkset : encodable.Statement .parkset := fun _ => no_word

theorem encodable.wake : encodable.Statement .wake := fun _ => no_word

theorem encodable.aligned : encodable.Statement .aligned := fun _ => no_word

theorem encodable.wakeComplete : encodable.Statement .wakeComplete := fun _ => no_word

theorem encodable.beacon : encodable.Statement .beacon := fun _ => no_word

theorem encodable.fabricRequest : encodable.Statement .fabricRequest := fun _ => no_word

theorem encodable.granaryRequest : encodable.Statement .granaryRequest := fun _ => no_word

theorem encodable.xmemResult : encodable.Statement .xmemResult := fun _ => no_word

theorem encodable.responseTimeout : encodable.Statement .responseTimeout := fun _ => no_word

theorem encodable.granaryLost : encodable.Statement .granaryLost := fun _ => no_word

theorem encodable.firstPacket : encodable.Statement .firstPacket := fun _ => no_word

theorem encodable.collectiveAbort : encodable.Statement .collectiveAbort := fun _ => no_word

theorem encodable.pause : encodable.Statement .pause := fun _ => no_word

theorem encodable.resume : encodable.Statement .resume := fun _ => no_word

theorem encodable.pauseQuotaRelease : encodable.Statement .pauseQuotaRelease := fun _ => no_word

theorem encodable.pauseBudgetExpire : encodable.Statement .pauseBudgetExpire := fun _ => no_word

theorem encodable.slotOccurrence : encodable.Statement .slotOccurrence := fun _ => no_word

theorem encodable.collectiveComplete : encodable.Statement .collectiveComplete := fun _ => no_word

theorem encodable.groupTableWrite : encodable.Statement .groupTableWrite := fun _ => no_word

theorem encodable.graticuleWrite : encodable.Statement .graticuleWrite := fun _ => no_word

theorem encodable.loaderRequest : encodable.Statement .loaderRequest := fun _ => no_word

theorem encodable.contextRegister : encodable.Statement .contextRegister := fun _ => no_word

theorem encodable.readbackRegister : encodable.Statement .readbackRegister := fun _ => no_word

theorem encodable.reset : encodable.Statement .reset := fun _ => no_word

theorem encodable.powerCap : encodable.Statement .powerCap := fun _ => no_word

theorem encodable.idleEntry : encodable.Statement .idleEntry := fun _ => no_word

theorem encodable.idleExit : encodable.Statement .idleExit := fun _ => no_word

theorem encodable.thermalTrip : encodable.Statement .thermalTrip := fun _ => no_word

theorem encodable.reservedEncoding : encodable.Statement .reservedEncoding := fun _ => no_word

theorem encodable.fetchFault : encodable.Statement .fetchFault := fun _ => no_word

theorem encodable.hostAccess : encodable.Statement .hostAccess := fun _ => no_word

theorem encodable.collectiveContribution : encodable.Statement .collectiveContribution := fun _ => no_word

theorem encodable.aclrComplete : encodable.Statement .aclrComplete := fun _ => no_word

theorem encodable.chinjComplete : encodable.Statement .chinjComplete := fun _ => no_word

theorem encodable.remapComplete : encodable.Statement .remapComplete := fun _ => no_word

theorem encodable.readbackRequest : encodable.Statement .readbackRequest := fun _ => no_word

theorem encodable.quoteRequest : encodable.Statement .quoteRequest := fun _ => no_word

end Sys2Proof.Laws
end

