-- ==== Sys2Proof/Laws/Scalar.lean ====
section
/-!
SUPPORT. What the shared operations of the scalar unit do.
-/
namespace Sys2Proof.Machine

open Sys2Proof

/-- A scalar operation of two registers. -/
theorem salu_next {i : Instr} {d a b : Nat} {f : Word → Word → Word} {s : State}
    (h : ready { sr := [a, b], sw := [d], eng := true } s = true) :
    salu i d a b f s = .next (advance (setS s d (f (getS s a) (getS s b)))) := run_done _ _ h rfl

/-- A scalar operation of one register. -/
theorem salu1_next {i : Instr} {d a : Nat} {f : Word → Word} {s : State}
    (h : ready { sr := [a], sw := [d], eng := true } s = true) :
    salu1 i d a f s = .next (advance (setS s d (f (getS s a)))) := run_done _ _ h rfl

/-- A scalar division. -/
theorem sdivide_next {i : Instr} {d a b : Nat} {f : Word → Word → Word × BitVec 8} {s : State}
    (h : ready { sr := [a, b], sw := [d], eng := true } s = true) :
    sdivide i d a b f s = .next (settle s (divideEnd s i d (f (getS s a) (getS s b)).1 (f (getS s a) (getS s b)).2)) :=
  run_ready _ _ h

/-- A division without an event. -/
theorem divideEnd_plain (s : State) (i : Instr) (d : Nat) (q : Word) : divideEnd s i d q 0 = .done (advance (setS s d q)) := by
  unfold divideEnd; simp

/-- A division with an event: the flag, DIVMASK, and the DIVZ trap where MD.DZT is set. -/
theorem divideEnd_event (s : State) (i : Instr) (d : Nat) (q : Word) (f : BitVec 8) (hf : f ≠ 0) (hk : s.cur.kind = .sheaf) :
    settle s (divideEnd s i d q f) =
      (if dztOf s then raiseTrap (onCur (advance (setS s d q)) (fun a => { a with sstat := a.sstat ||| f, divmask := 0 }))
        (afterTrap DIVZ (pcOf s) i 0)
       else onCur (advance (setS s d q)) (fun a => { a with sstat := a.sstat ||| f, divmask := 0 })) := by
  unfold divideEnd
  simp only [hf, if_false]
  by_cases hd : dztOf s = true
  · simp only [hd, if_true]; rw [settle_after _ _ _ hk]; rfl
  · simp only [hd]; rfl

/-- The truth of a decidable comparison. -/
theorem truth_decide (p : Prop) [Decidable p] : truth (decide p) = if p then 1 else 0 := by
  unfold truth; by_cases h : p <;> simp [h]

end Sys2Proof.Machine
end

