-- ==== Sys2Proof/Laws/Sched.lean ====
section
/-!
SUPPORT. What a step adds around an instruction: the focus, and what every step notes.
-/
namespace Sys2Proof.Machine

open Sys2Proof

/-- Being chosen to issue moves no program counter. -/
@[simp] theorem pcOf_readyFocus (s : State) : pcOf (readyFocus s) = pcOf s := by
  unfold readyFocus pcOf slotOf onCur; cases s.slot <;> rfl

/-- Everything that `noteReady` can do: some agents' `since` becomes now, and `busyAt` may. -/
theorem noteReady_eq (old t : State) : ∃ (g : Agent → Bool) (b : Nat),
    noteReady old t = { t with
      cur := if g t.cur then { t.cur with since := t.time } else t.cur,
      agents := t.agents.map (fun a => if g a then { a with since := t.time } else a), busyAt := b } := by
  let g : Agent → Bool := fun a => decide (a.active = false ∧ sheafReady t a = true ∧
    ((allAgents old).any (fun b => b.id == a.id && sheafReady old b)) = false)
  refine ⟨g, if idle (mapAgents t (fun a => if g a then { a with since := t.time } else a)) then t.busyAt else t.time, ?_⟩
  have e : (fun a : Agent => if a.active = false ∧ sheafReady t a = true ∧
      ((allAgents old).any (fun b => b.id == a.id && sheafReady old b)) = false then { a with since := t.time } else a)
    = (fun a => if g a then { a with since := t.time } else a) := by
    funext a; simp only [g, decide_eq_true_eq]
  unfold noteReady
  simp only [e]
  split <;> rfl

/-- Noting which slots are held writes no byte. -/
@[simp] theorem noteStalls_mem (s : State) : (noteStalls s).mem = s.mem := rfl

/-- Noting readiness writes no byte. -/
@[simp] theorem noteReady_mem (old t : State) : (noteReady old t).mem = t.mem := by
  obtain ⟨g, b, e⟩ := noteReady_eq old t
  rw [e]

/-- Updating an agent writes no byte. -/
@[simp] theorem mapAgents_mem (s : State) (f : Agent → Agent) : (mapAgents s f).mem = s.mem := rfl

/-- Entering active sets writes no byte. -/
@[simp] theorem fillActive_mem (s : State) : (fillActive s).mem = s.mem := by
  unfold fillActive
  refine foldl_mem _ (fun s c => ?_) _ s
  split
  · split
    · rfl
    · rfl
  · rfl

/-- Caches that hold no more than they can give nothing up. -/
theorem capCached_small {s : State} (h : s.cached.length ≤ cachedCap) : capCached s = s := by
  unfold capCached surplus
  rw [if_pos h]
  rfl

/-- What the caches give up goes home, and leaves memory canonical. -/
theorem memOk_capCached {s : State} (h : memOk s) : memOk (capCached s) := by
  unfold capCached
  generalize surplus s = l
  induction l generalizing s with
  | nil => exact h
  | cons k r ih => exact ih (memOk_writeBack h k)

/-- The memory after a step is the memory after what the step chose, while the caches hold what they took. -/
theorem finish_mem {old t t' : State} (h : finish old (.next t) = .next t')
    (hc : (fillActive (noteReady old (noteStalls t))).cached.length ≤ cachedCap) : t'.mem = t.mem := by
  injection h with h
  subst h
  unfold keep
  rw [capCached_small (by exact hc)]
  simp

/-- What every step notes and keeps leaves memory canonical. -/
theorem memOk_keep {old t : State} (h : memOk t) : memOk (keep old t) := by
  unfold keep
  exact memOk_capCached (memOk_of_mem h (by simp))

end Sys2Proof.Machine
end

