-- ==== Sys2Proof/Tests/Slice0.lean ====
section
/-!
SUPPORT. Tests. Words are written from the spec's encodings (02 R35, R39 to R41) or copied from its examples; each well-formedness check
refuses a term that breaks it; and for the statements in Certificates/Slice0/Obligations.lean concrete states that meet
their hypotheses.
-/
namespace Sys2Proof.Tests

open Sys2Proof Sys2Proof.Machine

/-! ### Words -/

/-- The decoder reads each listed word, or pair of words, as the instruction beside it. -/
def reads (l : List (Nat × Nat × Instr)) : Bool := l.all (fun p =>
  match decodeWord p.1 p.2.1 with
  | .ok i => decide (i = p.2.2)
  | .error _ => false)

/-- The words of the spec's examples, chapter by chapter. -/
theorem test_examples_words : reads
    [(0x60180812, 0, .add 12 4 9), (0x6018080F, 0, .addScalar 12 4 7), (0x0428BFFF, 0, .saddi 5 5 (-1)),
     (0x28217FFF, 0, .bc 1 0 5 (-1)), (0x16380000, 0x12345678, .sliw 7 0x12345678), (0x1E000103, 0, .mode 0x103),
     (0x9644080A, 0, .cmp 2 2 4 5), (0x34D00004, 0, .fence 0 4)] = true := by decide

theorem test_examples_loads : reads
    [(0xBC289808, 0, .lds 5 4 3 8), (0xBE289808, 0, .sts 5 4 3 8), (0xC0313602, 0, .ldaq 6 9 5 1 2),
     (0xC410200A, 0, .ldc 8 4 2 2), (0xC8141224, 0, .ldv 10 9 4 2 0), (0xCE041009, 0, .atadd 2 8 4 1),
     (0xC0393400, 0, .ldaq 7 9 5 0 0), (0xC20FFA00, 0, .strl 1 63 6 1 0), (0xC6022002, 0, .stc 1 4 0 2),
     (0xCA10161E, 0, .stv 8 11 3 3 0), (0xC4046001, 0, .ldc 2 12 0 1), (0x3DFFFF80, 0, .wait 63 63 63 0),
     (0x3DF81FFE, 0, .wait 63 0 63 63)] = true := by decide

theorem test_examples_scalar : reads
    [(0x02188280, 0, .sadd 3 4 5), (0x02188285, 0, .sdiv 3 4 5), (0x02188017, 0, .sclz 3 4),
     (0x14101F9C, 0, .sli 2 (-100)), (0x18380000, 0xFF, .slih 7 255), (0x1A304840, 0, .sget 6 9 2),
     (0x1C123040, 0, .vset 9 6 2), (0x30280220, 0, .mfc 5 0x220), (0x3200C021, 0, .mtc 6 0x021), (0x34724000, 0, .clk 9),
     (0x20000003, 0, .bra 3), (0x23FFFFF0, 0, .call (-16)), (0x2407C000, 0, .jmp 62 0), (0x26010002, 0, .callr 8 2),
     (0x2C400005, 0, .anyb 2 0 5), (0x2A200C06, 0, .split 1 0 3 6), (0x34000000, 0, .nop), (0x34100000, 0, .join),
     (0x34200000, 0, .exit), (0x02594602, 0, .smul 11 10 12)] = true := by decide

theorem test_examples_vector : reads
    [(0x680C0406, 0, .mad 6 2 3), (0x6A0C0406, 0, .div 6 2 3), (0x7E0C0406, 0, .sel 6 2 3),
     (0x7E082801, 0, .selScalar 4 20 0), (0x800A0800, 0, .abs 5 4), (0x800A0801, 0, .neg 5 4),
     (0x820A000F, 0, .movScalar 5 7), (0x84020000, 0, .lid 1), (0x8A040264, 0, .addi 2 1 100),
     (0x8A0403FF, 0, .addi 2 1 (-1)), (0x8E060604, 0, .shli 3 3 4), (0x94040403, 0, .muli 2 2 3),
     (0x86100809, 0, .cvt 8 4 9), (0x88100800, 0, .rcp 8 4), (0x5E201429, 0, .rng 16 10 20)] = true := by decide

theorem test_examples_lanes : reads
    [(0x984A020C, 0, .cmpi 2 5 1 12), (0x9A624000, 0, .mand 3 1 2), (0x9A621000, 0, .mnot 3 1),
     (0x9C042800, 0, .mset 2 5), (0x9E181000, 0, .mget 3 2), (0xA0181000, 0, .mpop 3 2), (0xA2181000, 0, .mfst 3 2),
     (0xA40A0806, 0, .shfl 5 4 3), (0xA60A0801, 0, .shflx 5 4 1), (0xAA0A0802, 0, .shfld 5 4 2),
     (0xAC0A0800, 0, .bcast 5 4 0), (0xAE203000, 0, .rsum 4 6), (0xAE203008, 0, .rmax 4 6), (0xB00E0C00, 0, .psum 7 6),
     (0xB00E0C01, 0, .psumx 7 6), (0xB2100800, 0, .sort 8 4), (0xB4120800, 0, .sorti 9 4), (0xB610080C, 0, .mrglo 8 4 6),
     (0xB810080C, 0, .mrghi 8 4 6), (0xBA14080C, 0, .mrgi 10 4 6)] = true := by decide

theorem test_examples_engines : reads
    [(0x4200C400, 0, .cpb 3 4), (0x43024400, 0, .cpbStatus 9 4), (0x46841520, 0, .mma 2 4 5 2 2 0),
     (0x46841528, 0, .mmaClr 2 4 5 2 2 0), (0x46061F60, 0, .mma 0 6 7 6 6 0), (0x4644140C, 0, .mmaClr 1 4 5 0 0 2),
     (0x488003FA, 0, .aclr 2 (-6)), (0x4A8A2C43, 0, .adrn 2 10 11 1 3), (0x4A0A2D80, 0, .adrn 0 10 11 6 0),
     (0x4A4415C0, 0, .adrn 1 4 5 7 0), (0x35020000, 0, .chinj 8), (0x4E080C28, 0, .skupd 4 6 5 0),
     (0x4E080C29, 0, .skupd 4 6 5 1), (0x50100C28, 0, .skqry 8 6 5 0), (0x52000501, 0, .skclr 0 5),
     (0x52000632, 0, .skdec 0 6 12), (0x52000614, 0, .skadd 0 6 5)] = true := by decide

theorem test_examples_barriers : reads
    [(0x3F000180, 0, .barx 0 6 0), (0x3EC00001, 0, .bars 0 0 1), (0x3E401001, 0, .bara 1 0 1),
     (0x40001101, 0, .qinit 1 4 1), (0x41001001, 0, .qgrant 1 0 1), (0x40401280, 0, .qpush 1 10 0),
     (0x40801240, 0, .qpop 1 9 0), (0x5B034200, 0, .ccallStatus 13 2), (0x38024414, 0, .spawn 9 4 5),
     (0x3A02881C, 0, .cont 10 8 7)] = true := by decide

theorem test_examples_system : reads
    [(0x34E00003, 0, .brk 3), (0x34F00003, 0, .sysc 3), (0x34A08000, 0, .tlbi 2), (0x34A00001, 0, .tlbiAll),
     (0x34B08000, 0, .cflush 2), (0x34C08000, 0, .cinv 2), (0x34800000, 0, .rft), (0x22000001, 0, .call 1)] = true := by decide

/-- One word for every constructor that has an encoding, its fields at values that show their places. -/
theorem test_words_scalar_unit : reads
    [(0x021FE280, 0, .sadd 3 63 5), (0x0227C301, 0, .ssub 4 62 6), (0x022FA382, 0, .smul 5 61 7),
     (0x02378403, 0, .smulh 6 60 8), (0x023F6484, 0, .smulhu 7 59 9), (0x02474505, 0, .sdiv 8 58 10),
     (0x024F2586, 0, .sdivu 9 57 11), (0x02570607, 0, .srem 10 56 12), (0x025EE688, 0, .sremu 11 55 13),
     (0x0266C709, 0, .sand 12 54 14), (0x026EA78A, 0, .sor 13 53 15), (0x0276880B, 0, .sxor 14 52 16),
     (0x027E688C, 0, .sshl 15 51 17), (0x0286490D, 0, .sshr 16 50 18), (0x028E298E, 0, .ssar 17 49 19),
     (0x02960A0F, 0, .smin 18 48 20), (0x029DEA90, 0, .sminu 19 47 21), (0x02A5CB11, 0, .smax 20 46 22),
     (0x02ADAB92, 0, .smaxu 21 45 23), (0x02B58C13, 0, .sseq 22 44 24), (0x02BD6C94, 0, .ssne 23 43 25),
     (0x02C54D15, 0, .sslt 24 42 26), (0x02CD2D96, 0, .ssltu 25 41 27), (0x02188017, 0, .sclz 3 4),
     (0x03F82018, 0, .spopc 63 1)] = true := by decide

theorem test_words_immediates : reads
    [(0x042FD000, 0, .saddi 5 62 (-4096)), (0x0637D001, 0, .sandi 6 62 (-4095)), (0x083FD002, 0, .sori 7 62 (-4094)),
     (0x0A47D003, 0, .sxori 8 62 (-4093)), (0x0C2FC03F, 0, .sshli 5 62 63), (0x0E37C03E, 0, .sshri 6 62 62),
     (0x103FC03D, 0, .ssari 7 62 61), (0x12084FFF, 0, .sslti 1 2 4095), (0x14101F9C, 0, .sli 2 (-100)),
     (0x16380000, 0x12345678, .sliw 7 0x12345678), (0x17F80000, 0xFFFFFFFF, .sliw 63 (-1)),
     (0x18380000, 0x000000FF, .slih 7 255)] = true := by decide

theorem test_words_lanes_and_mode : reads
    [(0x1A304840, 0, .sget 6 9 2), (0x1BFFFFC0, 0, .sget 63 255 62), (0x1C123040, 0, .vset 9 6 2),
     (0x1DFFF7E0, 0, .vset 255 62 63), (0x1E000103, 0, .mode 0x103)] = true := by decide

theorem test_words_branches : reads
    [(0x01FFFFFF, 0, .trap 33554431), (0x20000003, 0, .bra 3), (0x21000000, 0, .bra (-16777216)),
     (0x23FFFFF0, 0, .call (-16)), (0x2407C000, 0, .jmp 62 0), (0x26010002, 0, .callr 8 2),
     (0x26011000, 0, .callr 8 (-4096)), (0x28016000, 0, .bc 0 0 5 (-8192)), (0x2831A001, 0, .bc 1 1 6 (-8191)),
     (0x2841E002, 0, .bc 2 0 7 (-8190)), (0x28722003, 0, .bc 3 1 8 (-8189)), (0x28826004, 0, .bc 4 0 9 (-8188)),
     (0x28B2A005, 0, .bc 5 1 10 (-8187)), (0x2A200C06, 0, .split 1 0 3 6), (0x2BF801FF, 0, .split 15 1 (-512) 511),
     (0x2C400005, 0, .anyb 2 0 5), (0x2FF03FFF, 0, .allb 15 1 (-1))] = true := by decide

theorem test_words_system : reads
    [(0x30280220, 0, .mfc 5 0x220), (0x30A01061, 0, .mfc 20 0x1061), (0x3200C021, 0, .mtc 6 0x21),
     (0x3207FBFD, 0, .mtc 63 0x1BFD), (0x34000000, 0, .nop), (0x34100000, 0, .join), (0x34200000, 0, .exit),
     (0x34300000, 0, .yield), (0x344000FF, 0, .safept 255), (0x34500000, 0, .rdv), (0x34600000, 0, .eend),
     (0x34724000, 0, .clk 9), (0x34800000, 0, .rft), (0x34900000, 0, .halt), (0x34AFC000, 0, .tlbi 63),
     (0x34A00001, 0, .tlbiAll), (0x34BF8000, 0, .cflush 62), (0x34C04000, 0, .cinv 1), (0x34D00004, 0, .fence 0 4),
     (0x34D0001E, 0, .fence 3 6), (0x34E03FFF, 0, .brk 16383), (0x34F00003, 0, .sysc 3), (0x35020000, 0, .chinj 8)] = true := by decide

theorem test_words_barriers_and_queues : reads
    [(0x3607E100, 0, .fork 63 2), (0x38024414, 0, .spawn 9 4 5), (0x3A02881C, 0, .cont 10 8 7),
     (0x3DFFDE80, 0, .wait 63 62 61 0), (0x3E3FF1BF, 0, .bari 1023 6 63), (0x3E7FE1FE, 0, .bara 1022 7 62),
     (0x3EBFD23D, 0, .barw 1021 8 61), (0x3EFFC27C, 0, .bars 1020 9 60), (0x3F3FB2BB, 0, .barx 1019 10 59),
     (0x3F7FA2FA, 0, .barq 1018 11 58), (0x4003F101, 0, .qinit 63 4 1), (0x4043E142, 0, .qpush 62 5 2),
     (0x4083D183, 0, .qpop 61 6 3), (0x40C3C1C4, 0, .qtry 60 7 4), (0x4103B205, 0, .qgrant 59 8 5),
     (0x4143A246, 0, .qstat 58 9 6)] = true := by decide

theorem test_words_engines : reads
    [(0x42FFC400, 0, .cpb 1023 4), (0x43024400, 0, .cpbStatus 9 4), (0x45FE0FF8, 0, .cpl 255 7 63),
     (0x46841520, 0, .mma 2 4 5 2 2 0), (0x47FFFB5C, 0, .mmaClr 7 63 62 6 5 2), (0x488003FA, 0, .aclr 2 (-6)),
     (0x4A8A2E3F, 0, .adrn 2 10 11 8 63), (0x4E080C29, 0, .skupd 4 6 5 1), (0x50100C28, 0, .skqry 8 6 5 0),
     (0x52FFC614, 0, .skadd 1023 6 5), (0x52000501, 0, .skclr 0 5), (0x5201C632, 0, .skdec 7 6 12)] = true := by decide

theorem test_words_fabric : reads
    [(0x55FE080C, 0, .nwr 255 4 6), (0x5605FE0C, 0, .nrd 2 255 6), (0x580409FC, 0, .nred 2 4 254),
     (0x5AFFCD00, 0, .ccall 1023 13), (0x5B008D00, 0, .ccallStatus 2 13), (0x5D027E0C, 0, .xalloc 9 62 3),
     (0x5D02BD11, 0, .xfree 10 61 4), (0x5D02FC16, 0, .xquota 11 60 5), (0x5E201429, 0, .rng 16 10 20)] = true := by decide

theorem test_words_vector_a : reads
    [(0x6019FE12, 0, .add 12 255 9), (0x6019FE0F, 0, .addScalar 12 255 7), (0x621BFC14, 0, .sub 13 254 10),
     (0x621BFC11, 0, .subScalar 13 254 8), (0x641DFA16, 0, .mul 14 253 11), (0x641DFA13, 0, .mulScalar 14 253 9),
     (0x661FF818, 0, .mulh 15 252 12), (0x661FF815, 0, .mulhScalar 15 252 10), (0x6821F61A, 0, .mad 16 251 13),
     (0x6821F617, 0, .madScalar 16 251 11), (0x6A23F41C, 0, .div 17 250 14), (0x6A23F419, 0, .divScalar 17 250 12),
     (0x6C25F21E, 0, .rem 18 249 15), (0x6C25F21B, 0, .remScalar 18 249 13), (0x6E27F020, 0, .min 19 248 16),
     (0x6E27F01D, 0, .minScalar 19 248 14)] = true := by decide

theorem test_words_vector_b : reads
    [(0x7029EE22, 0, .max 20 247 17), (0x7029EE1F, 0, .maxScalar 20 247 15), (0x722BEC24, 0, .and 21 246 18),
     (0x722BEC21, 0, .andScalar 21 246 16), (0x742DEA26, 0, .or 22 245 19), (0x742DEA23, 0, .orScalar 22 245 17),
     (0x762FE828, 0, .xor 23 244 20), (0x762FE825, 0, .xorScalar 23 244 18), (0x7831E62A, 0, .shl 24 243 21),
     (0x7831E627, 0, .shlScalar 24 243 19), (0x7A33E42C, 0, .shr 25 242 22), (0x7A33E429, 0, .shrScalar 25 242 20),
     (0x7C35E22E, 0, .sar 26 241 23), (0x7C35E22B, 0, .sarScalar 26 241 21), (0x7E37E030, 0, .sel 27 240 24),
     (0x7E37E02D, 0, .selScalar 27 240 22)] = true := by decide

theorem test_words_vector_unary : reads
    [(0x800BF400, 0, .abs 5 250), (0x800DF601, 0, .neg 6 251), (0x800FF802, 0, .not 7 252), (0x8011FA03, 0, .clz 8 253),
     (0x8013FC04, 0, .popc 9 254), (0x820A01FE, 0, .mov 5 255), (0x820A000F, 0, .movScalar 5 7),
     (0x85FE0000, 0, .lid 255), (0x8610080E, 0, .cvt 8 4 14), (0x88100800, 0, .rcp 8 4), (0x88120A01, 0, .rsq 9 5),
     (0x88140C02, 0, .sqrt 10 6), (0x88160E03, 0, .exp2 11 7), (0x88181004, 0, .log2 12 8), (0x881A1205, 0, .sinp 13 9),
     (0x881C1406, 0, .cosp 14 10), (0x881E1607, 0, .rint 15 11), (0x8A05FD00, 0, .addi 2 254 (-256)),
     (0x8C07FAFF, 0, .andi 3 253 (255)), (0x8E09F83F, 0, .shli 4 252 (63)), (0x900BF63E, 0, .shri 5 251 (62)),
     (0x920DF43D, 0, .sari 6 250 (61)), (0x940FF3FF, 0, .muli 7 249 (-1))] = true := by decide

theorem test_words_masks : reads
    [(0x964009FE, 0, .cmp 2 0 4 255), (0x97E1FE7F, 0, .cmpScalar 15 0 255 63), (0x98601900, 0, .cmpi 3 0 12 (-256)),
     (0x964609FE, 0, .cmp 2 3 4 255), (0x97E7FE7F, 0, .cmpScalar 15 3 255 63), (0x98661900, 0, .cmpi 3 3 12 (-256)),
     (0x964C09FE, 0, .cmp 2 6 4 255), (0x97EDFE7F, 0, .cmpScalar 15 6 255 63), (0x986C1900, 0, .cmpi 3 6 12 (-256)),
     (0x965609FE, 0, .cmp 2 11 4 255), (0x97F7FE7F, 0, .cmpScalar 15 11 255 63), (0x98761900, 0, .cmpi 3 11 12 (-256)),
     (0x9A7E4000, 0, .mand 3 15 2), (0x9A9C6400, 0, .mor 4 14 3), (0x9ABA8800, 0, .mxor 5 13 4),
     (0x9AD8AC00, 0, .mandn 6 12 5), (0x9A7E1000, 0, .mnot 3 15), (0x9C042800, 0, .mset 2 5), (0x9E187800, 0, .mget 3 15),
     (0xA0207000, 0, .mpop 4 14), (0xA2286800, 0, .mfst 5 13)] = true := by decide

theorem test_words_lane_moves : reads
    [(0xA40A09FE, 0, .shfl 5 4 255), (0xA40A087F, 0, .shflScalar 5 4 63), (0xA60A0938, 0, .shflx 5 4 (-200)),
     (0xA80C0B39, 0, .shflu 6 5 (-199)), (0xAA0E0D3A, 0, .shfld 7 6 (-198)), (0xAC100F3B, 0, .bcast 8 7 (-197)),
     (0xAE27F800, 0, .rsum 4 255), (0xAE2FF004, 0, .rmin 5 254), (0xAE37E808, 0, .rmax 6 253),
     (0xAE3FE00C, 0, .rand 7 252), (0xAE47D810, 0, .ror 8 251), (0xAE4FD014, 0, .rxor 9 250), (0xB00E0C00, 0, .psum 7 6),
     (0xB0100E01, 0, .psumx 8 7), (0xB0121002, 0, .pmin 9 8), (0xB0141203, 0, .pmax 10 9), (0xB211FC00, 0, .sort 8 254),
     (0xB413FC00, 0, .sorti 9 254), (0xB61009FC, 0, .mrglo 8 4 254), (0xB81209FC, 0, .mrghi 9 4 254),
     (0xBA1409FC, 0, .mrgi 10 4 254)] = true := by decide

theorem test_words_memory : reads
    [(0xBC288400, 0, .lds 5 4 0 (-1024)), (0xBC308C01, 0, .lds 6 4 1 (-1023)), (0xBC389402, 0, .lds 7 4 2 (-1022)),
     (0xBC409C03, 0, .lds 8 4 3 (-1021)), (0xBE289808, 0, .sts 5 4 3 8), (0xC0313700, 0, .ldaq 6 9 5 1 (-256)),
     (0xC20FF8FF, 0, .strl 1 63 6 0 255), (0xC4102402, 0, .ldc 8 4 (-256) 2), (0xC7FE63FC, 0, .stc 255 12 255 0),
     (0xC8141224, 0, .ldv 10 9 4 2 0), (0xCA11FE1F, 0, .stv 8 255 3 3 1), (0xCC009400, 0, .pref 4 2 (-1024)),
     (0xCE05FC08, 0, .atadd 2 254 4 0), (0xD007F80B, 0, .atmin 3 252 5 1), (0xD209F40C, 0, .atmax 4 250 6 0),
     (0xD40BF00F, 0, .atand 5 248 7 1), (0xD60DEC10, 0, .ator 6 246 8 0), (0xD80FE813, 0, .atxor 7 244 9 1),
     (0xDA11E414, 0, .atxch 8 242 10 0), (0xDC13E017, 0, .atcas 9 240 11 1)] = true := by decide

/-! ### Well-formedness -/

/-- The check refuses each listed term. -/
def refuses (l : List Instr) : Bool := l.all (fun i => !i.WellFormed)

/-- Each field of each instruction, one past its limit. -/
theorem test_ill_formed_1 : refuses
    [.trap 33554432, .sadd 64 0 0, .sadd 0 64 0, .sadd 0 0 64, .ssub 64 0 0, .ssub 0 64 0, .ssub 0 0 64, .smul 64 0 0,
     .smul 0 64 0, .smul 0 0 64, .smulh 64 0 0, .smulh 0 64 0, .smulh 0 0 64, .smulhu 64 0 0, .smulhu 0 64 0,
     .smulhu 0 0 64, .sdiv 64 0 0, .sdiv 0 64 0, .sdiv 0 0 64, .sdivu 64 0 0, .sdivu 0 64 0, .sdivu 0 0 64, .srem 64 0 0,
     .srem 0 64 0, .srem 0 0 64, .sremu 64 0 0, .sremu 0 64 0, .sremu 0 0 64, .sand 64 0 0, .sand 0 64 0, .sand 0 0 64,
     .sor 64 0 0, .sor 0 64 0, .sor 0 0 64, .sxor 64 0 0, .sxor 0 64 0, .sxor 0 0 64, .sshl 64 0 0, .sshl 0 64 0,
     .sshl 0 0 64, .sshr 64 0 0, .sshr 0 64 0, .sshr 0 0 64, .ssar 64 0 0, .ssar 0 64 0, .ssar 0 0 64, .smin 64 0 0,
     .smin 0 64 0, .smin 0 0 64, .sminu 64 0 0, .sminu 0 64 0, .sminu 0 0 64, .smax 64 0 0, .smax 0 64 0, .smax 0 0 64,
     .smaxu 64 0 0, .smaxu 0 64 0, .smaxu 0 0 64, .sseq 64 0 0, .sseq 0 64 0] = true := by decide

theorem test_ill_formed_2 : refuses
    [.sseq 0 0 64, .ssne 64 0 0, .ssne 0 64 0, .ssne 0 0 64, .sslt 64 0 0, .sslt 0 64 0, .sslt 0 0 64, .ssltu 64 0 0,
     .ssltu 0 64 0, .ssltu 0 0 64, .sclz 64 0, .sclz 0 64, .spopc 64 0, .spopc 0 64, .saddi 64 0 0, .saddi 0 64 0,
     .saddi 0 0 (-4097), .sandi 64 0 0, .sandi 0 64 0, .sandi 0 0 (-4097), .sori 64 0 0, .sori 0 64 0, .sori 0 0 (-4097),
     .sxori 64 0 0, .sxori 0 64 0, .sxori 0 0 (-4097), .sshli 64 0 0, .sshli 0 64 0, .sshli 0 0 64, .sshri 64 0 0,
     .sshri 0 64 0, .sshri 0 0 64, .ssari 64 0 0, .ssari 0 64 0, .ssari 0 0 64, .sslti 64 0 0, .sslti 0 64 0,
     .sslti 0 0 (-4097), .sli 64 0, .sli 0 (-4097), .sliw 64 0, .sliw 0 (-2147483649), .slih 64 0, .slih 0 4294967296,
     .sget 64 0 0, .sget 0 256 0, .sget 0 0 64, .vset 256 0 0, .vset 0 64 0, .vset 0 0 64, .bra (-16777217),
     .call (-16777217), .jmp 64 0, .jmp 0 (-4097), .callr 64 0, .callr 0 (-4097), .bc 6 0 0 0, .bc 0 2 0 0, .bc 0 0 64 0,
     .bc 0 0 0 (-8193)] = true := by decide

theorem test_ill_formed_3 : refuses
    [.split 16 0 0 0, .split 0 2 0 0, .split 0 0 (-513) 0, .split 0 0 0 (-513), .anyb 16 0 0, .anyb 0 2 0,
     .anyb 0 0 (-8193), .allb 16 0 0, .allb 0 2 0, .allb 0 0 (-8193), .mfc 64 0, .mfc 0 8192, .mtc 64 0, .mtc 0 8192,
     .safept 256, .clk 64, .tlbi 64, .cflush 64, .cinv 64, .fence 4 0, .fence 0 7, .brk 16384, .sysc 16384, .chinj 64,
     .fork 64 0, .fork 0 64, .spawn 64 0 0, .spawn 0 64 0, .spawn 0 0 64, .cont 64 0 0, .cont 0 64 0, .cont 0 0 64,
     .wait 64 0 0 0, .wait 0 64 0 0, .wait 0 0 64 0, .wait 0 0 0 64, .bari 1024 0 0, .bari 0 64 0, .bari 0 0 64,
     .bara 1024 0 0, .bara 0 64 0, .bara 0 0 64, .barw 1024 0 0, .barw 0 64 0, .barw 0 0 64, .bars 1024 0 0, .bars 0 64 0,
     .bars 0 0 64, .barx 1024 0 0, .barx 0 64 0, .barx 0 0 64, .barq 1024 0 0, .barq 0 64 0, .barq 0 0 64, .qinit 64 0 0,
     .qinit 0 64 0, .qinit 0 0 64, .qpush 64 0 0, .qpush 0 64 0, .qpush 0 0 64] = true := by decide

theorem test_ill_formed_4 : refuses
    [.qpop 64 0 0, .qpop 0 64 0, .qpop 0 0 64, .qtry 64 0 0, .qtry 0 64 0, .qtry 0 0 64, .qgrant 64 0 0, .qgrant 0 64 0,
     .qgrant 0 0 64, .qstat 64 0 0, .qstat 0 64 0, .qstat 0 0 64, .cpb 1024 0, .cpb 0 64, .cpbStatus 64 0,
     .cpbStatus 0 64, .cpl 256 0 0, .cpl 0 256 0, .cpl 0 0 64, .mma 8 0 0 0 0 0, .mma 0 64 0 0 0 0, .mma 0 0 64 0 0 0,
     .mma 0 0 0 7 0 0, .mma 0 0 0 0 7 0, .mma 0 0 0 0 0 3, .mmaClr 8 0 0 0 0 0, .mmaClr 0 64 0 0 0 0,
     .mmaClr 0 0 64 0 0 0, .mmaClr 0 0 0 7 0 0, .mmaClr 0 0 0 0 7 0, .mmaClr 0 0 0 0 0 3, .aclr 8 0, .aclr 0 (-513),
     .adrn 8 0 0 0 0, .adrn 0 64 0 0 0, .adrn 0 0 64 0 0, .adrn 0 0 0 9 0, .adrn 0 0 0 0 64, .skupd 256 0 0 0,
     .skupd 0 256 0 0, .skupd 0 0 64 0, .skupd 0 0 0 2, .skqry 256 0 0 0, .skqry 0 256 0 0, .skqry 0 0 64 0,
     .skqry 0 0 0 2, .skadd 1024 0 0, .skadd 0 64 0, .skadd 0 0 64, .skclr 1024 0, .skclr 0 64, .skdec 1024 0 0,
     .skdec 0 64 0, .skdec 0 0 64, .nwr 256 0 0, .nwr 0 256 0, .nwr 0 0 256, .nrd 256 0 0, .nrd 0 256 0, .nrd 0 0 256] = true := by decide

theorem test_ill_formed_5 : refuses
    [.nred 256 0 0, .nred 0 256 0, .nred 0 0 256, .ccall 1024 0, .ccall 0 64, .ccallStatus 64 0, .ccallStatus 0 64,
     .xalloc 64 0 0, .xalloc 0 64 0, .xalloc 0 0 64, .xfree 64 0 0, .xfree 0 64 0, .xfree 0 0 64, .xquota 64 0 0,
     .xquota 0 64 0, .xquota 0 0 64, .rng 256 0 0, .rng 0 256 0, .rng 0 0 64, .add 256 0 0, .add 0 256 0, .add 0 0 256,
     .addScalar 256 0 0, .addScalar 0 256 0, .addScalar 0 0 64, .sub 256 0 0, .sub 0 256 0, .sub 0 0 256,
     .subScalar 256 0 0, .subScalar 0 256 0, .subScalar 0 0 64, .mul 256 0 0, .mul 0 256 0, .mul 0 0 256,
     .mulScalar 256 0 0, .mulScalar 0 256 0, .mulScalar 0 0 64, .mulh 256 0 0, .mulh 0 256 0, .mulh 0 0 256,
     .mulhScalar 256 0 0, .mulhScalar 0 256 0, .mulhScalar 0 0 64, .mad 256 0 0, .mad 0 256 0, .mad 0 0 256,
     .madScalar 256 0 0, .madScalar 0 256 0, .madScalar 0 0 64, .div 256 0 0, .div 0 256 0, .div 0 0 256,
     .divScalar 256 0 0, .divScalar 0 256 0, .divScalar 0 0 64, .rem 256 0 0, .rem 0 256 0, .rem 0 0 256,
     .remScalar 256 0 0, .remScalar 0 256 0] = true := by decide

theorem test_ill_formed_6 : refuses
    [.remScalar 0 0 64, .min 256 0 0, .min 0 256 0, .min 0 0 256, .minScalar 256 0 0, .minScalar 0 256 0,
     .minScalar 0 0 64, .max 256 0 0, .max 0 256 0, .max 0 0 256, .maxScalar 256 0 0, .maxScalar 0 256 0,
     .maxScalar 0 0 64, .and 256 0 0, .and 0 256 0, .and 0 0 256, .andScalar 256 0 0, .andScalar 0 256 0,
     .andScalar 0 0 64, .or 256 0 0, .or 0 256 0, .or 0 0 256, .orScalar 256 0 0, .orScalar 0 256 0, .orScalar 0 0 64,
     .xor 256 0 0, .xor 0 256 0, .xor 0 0 256, .xorScalar 256 0 0, .xorScalar 0 256 0, .xorScalar 0 0 64, .shl 256 0 0,
     .shl 0 256 0, .shl 0 0 256, .shlScalar 256 0 0, .shlScalar 0 256 0, .shlScalar 0 0 64, .shr 256 0 0, .shr 0 256 0,
     .shr 0 0 256, .shrScalar 256 0 0, .shrScalar 0 256 0, .shrScalar 0 0 64, .sar 256 0 0, .sar 0 256 0, .sar 0 0 256,
     .sarScalar 256 0 0, .sarScalar 0 256 0, .sarScalar 0 0 64, .sel 256 0 0, .sel 0 256 0, .sel 0 0 256,
     .selScalar 256 0 0, .selScalar 0 256 0, .selScalar 0 0 64, .abs 256 0, .abs 0 256, .neg 256 0, .neg 0 256,
     .not 256 0] = true := by decide

theorem test_ill_formed_7 : refuses
    [.not 0 256, .clz 256 0, .clz 0 256, .popc 256 0, .popc 0 256, .mov 256 0, .mov 0 256, .movScalar 256 0,
     .movScalar 0 64, .lid 256, .cvt 256 0 0, .cvt 0 256 0, .cvt 0 0 15, .rcp 256 0, .rcp 0 256, .rsq 256 0, .rsq 0 256,
     .sqrt 256 0, .sqrt 0 256, .exp2 256 0, .exp2 0 256, .log2 256 0, .log2 0 256, .sinp 256 0, .sinp 0 256, .cosp 256 0,
     .cosp 0 256, .rint 256 0, .rint 0 256, .addi 256 0 0, .addi 0 256 0, .addi 0 0 (-257), .andi 256 0 0, .andi 0 256 0,
     .andi 0 0 (-257), .shli 256 0 0, .shli 0 256 0, .shli 0 0 64, .shri 256 0 0, .shri 0 256 0, .shri 0 0 64,
     .sari 256 0 0, .sari 0 256 0, .sari 0 0 64, .muli 256 0 0, .muli 0 256 0, .muli 0 0 (-257), .cmp 16 0 0 0,
     .cmp 0 12 0 0, .cmp 0 0 256 0, .cmp 0 0 0 256, .cmpScalar 16 0 0 0, .cmpScalar 0 12 0 0, .cmpScalar 0 0 256 0,
     .cmpScalar 0 0 0 64, .cmpi 16 0 0 0, .cmpi 0 12 0 0, .cmpi 0 0 256 0, .cmpi 0 0 0 (-257), .mand 16 0 0] = true := by decide

theorem test_ill_formed_8 : refuses
    [.mand 0 16 0, .mand 0 0 16, .mor 16 0 0, .mor 0 16 0, .mor 0 0 16, .mxor 16 0 0, .mxor 0 16 0, .mxor 0 0 16,
     .mandn 16 0 0, .mandn 0 16 0, .mandn 0 0 16, .mnot 16 0, .mnot 0 16, .mset 16 0, .mset 0 64, .mget 64 0, .mget 0 16,
     .mpop 64 0, .mpop 0 16, .mfst 64 0, .mfst 0 16, .shfl 256 0 0, .shfl 0 256 0, .shfl 0 0 256, .shflScalar 256 0 0,
     .shflScalar 0 256 0, .shflScalar 0 0 64, .shflx 256 0 0, .shflx 0 256 0, .shflx 0 0 (-257), .shflu 256 0 0,
     .shflu 0 256 0, .shflu 0 0 (-257), .shfld 256 0 0, .shfld 0 256 0, .shfld 0 0 (-257), .bcast 256 0 0, .bcast 0 256 0,
     .bcast 0 0 (-257), .rsum 64 0, .rsum 0 256, .rmin 64 0, .rmin 0 256, .rmax 64 0, .rmax 0 256, .rand 64 0,
     .rand 0 256, .ror 64 0, .ror 0 256, .rxor 64 0, .rxor 0 256, .psum 256 0, .psum 0 256, .psumx 256 0, .psumx 0 256,
     .pmin 256 0, .pmin 0 256, .pmax 256 0, .pmax 0 256, .sort 256 0] = true := by decide

theorem test_ill_formed_9 : refuses
    [.sort 0 256, .sorti 256 0, .sorti 0 256, .mrglo 256 0 0, .mrglo 0 256 0, .mrglo 0 0 256, .mrghi 256 0 0,
     .mrghi 0 256 0, .mrghi 0 0 256, .mrgi 256 0 0, .mrgi 0 256 0, .mrgi 0 0 256, .lds 64 0 0 0, .lds 0 64 0 0,
     .lds 0 0 4 0, .lds 0 0 0 (-1025), .sts 64 0 0 0, .sts 0 64 0 0, .sts 0 0 4 0, .sts 0 0 0 (-1025), .ldaq 64 0 0 0 0,
     .ldaq 0 64 0 0 0, .ldaq 0 0 7 0 0, .ldaq 0 0 0 2 0, .ldaq 0 0 0 0 (-257), .strl 64 0 0 0 0, .strl 0 64 0 0 0,
     .strl 0 0 7 0 0, .strl 0 0 0 2 0, .strl 0 0 0 0 (-257), .ldc 256 0 0 0, .ldc 0 64 0 0, .ldc 0 0 (-257) 0,
     .ldc 0 0 0 4, .stc 256 0 0 0, .stc 0 64 0 0, .stc 0 0 (-257) 0, .stc 0 0 0 4, .ldv 256 0 0 0 0, .ldv 0 256 0 0 0,
     .ldv 0 0 64 0 0, .ldv 0 0 0 4 0, .ldv 0 0 0 0 2, .stv 256 0 0 0 0, .stv 0 256 0 0 0, .stv 0 0 64 0 0, .stv 0 0 0 4 0,
     .stv 0 0 0 0 2, .pref 64 0 0, .pref 0 3 0, .pref 0 0 (-1025), .atadd 256 0 0 0, .atadd 0 256 0 0, .atadd 0 0 256 0,
     .atadd 0 0 0 2, .atmin 256 0 0 0, .atmin 0 256 0 0, .atmin 0 0 256 0, .atmin 0 0 0 2, .atmax 256 0 0 0] = true := by decide

theorem test_ill_formed_10 : refuses
    [.atmax 0 256 0 0, .atmax 0 0 256 0, .atmax 0 0 0 2, .atand 256 0 0 0, .atand 0 256 0 0, .atand 0 0 256 0,
     .atand 0 0 0 2, .ator 256 0 0 0, .ator 0 256 0 0, .ator 0 0 256 0, .ator 0 0 0 2, .atxor 256 0 0 0, .atxor 0 256 0 0,
     .atxor 0 0 256 0, .atxor 0 0 0 2, .atxch 256 0 0 0, .atxch 0 256 0 0, .atxch 0 0 256 0, .atxch 0 0 0 2,
     .atcas 256 0 0 0, .atcas 0 256 0 0, .atcas 0 0 256 0, .atcas 0 0 0 2, .mode (2 ^ 23), .mode (15 * 2 ^ 5),
     .mode (6 * 2 ^ 10), .mfc 0 0x004, .mtc 0 0x1010, .rng 2 0 0, .atadd 0 1 0 0, .atmin 0 1 0 0, .atmax 0 1 0 0,
     .atand 0 1 0 0, .ator 0 1 0 0, .atxor 0 1 0 0, .atxch 0 1 0 0, .atcas 0 1 0 0] = true := by decide

/-! ### Small states -/

/-- A kernel of 32 lanes with some of every resource. -/
def kern : Kernel :=
  { Kernel.none with w := 32, vregs := 64, tiles := [0, 1], nBar := 4, nQ := 2, nEng := 2, nSafe := 2, granules := [0, 1],
                     planeN := 1, nSheaf := 1, pool := 1, grp := 1, jobkey := 7, ctx := 1, hx := [0, 0, 5], hn := [32, 1, 9] }

/-- A sheaf at SYSTEM, its slot at 0x1000 with every lane present. -/
def sheaf : Agent :=
  { Agent.none with kind := .sheaf, id := 1, stook := 1, k := kern, priv := true, ended := false, active := true,
                    pri := { Slot.free with live := true, pc := 0x1000, mask := allLanes 32 } }

/-- Its stook. -/
def stk : Stook := ⟨1, 0, kern, ⟨1, 0, 0, 0, 0, 0, false, false, 0, 0, []⟩, [], 0, none, ⟨0, 0, 0, 0, false⟩, [], false, none⟩

/-- Its context: the scratch window starts at 0x10000000. -/
def ctx1 : Ctx := ⟨0x100000, 7, 0, 4, 3, 0x200000, 0x10000000, 0x300000, true⟩

/-- A device that runs it. -/
def demo : State :=
  { State.reset with cur := sheaf, stooks := [stk], ctxs := [(1, some ctx1)], nextId := 100, pool := [(1, { PoolRec.free with left := 2, state := 1, budget := 3 })] }

/-- The same with S registers, the mode, and M registers of the sheaf replaced. -/
def with_ (s m : List (Nat × Word)) (md : BitVec 24) : State := { demo with cur := { sheaf with s := s, m := m, md := md } }

/-- The sheaf below SYSTEM. -/
def user (s : State) : State := { s with cur := { s.cur with priv := false } }

/-- An event's data. -/
def ask (s : State) (a data tags : List Nat) : State := { s with inp := ⟨a, data, tags⟩ }

/-- The sheaf may issue whatever names registers it has. -/
theorem demo_ready : ready { vr := [0, 63], vw := [2, 3], sr := [1, 63], sw := [2], sys := true, cls := some .ld } demo = true := by decide

theorem demo_ready_eng : ready { sr := [1, 2], sw := [3], eng := true } demo = true := by decide

/-- Two pages: code at 0x0000 in frame 2, which is measured, and data at 0x10000 in frame 3. -/
def paged (s : State) : State :=
  { s with tlb := [⟨0, 1, 3, 0, 0x2043B⟩, ⟨0, 1, 3, 1, 0x3041B⟩], measured := [(2, true)] }

/-- With the words of a list at the program counter. -/
def coded (s : State) (l : List Nat) : State :=
  { paged s with mem := smPutList 0 [] 0x21000 (l.flatMap (leBytes 4)) }

/-! ### Witnesses: one step, fetch, reset, traps (02, 25) -/

theorem witness_StepRunsDecodedInstruction_short :
    let s := { coded demo [0x34000000] with agenda := [.issue 1 false] }
    ∃ f t, focusOn { s with agenda := [] } 1 false = some f ∧ goesFirst f f.cur = true ∧ pickSlot f f.cur = some false ∧ (pcOf f).toNat % 4 = 0 ∧
      fetchWord (readyFocus f) (pcOf f) = some (0x34000000, t) ∧ isLong 0x34000000 = false ∧ decodeWord 0x34000000 0 = .ok .nop :=
  ⟨_, _, rfl, by decide, by decide, by decide, rfl, rfl, rfl⟩

theorem witness_StepRunsDecodedInstruction_long :
    let s := { coded demo [0x16380000, 0x12345678] with agenda := [.issue 1 false] }
    ∃ f t t1, focusOn { s with agenda := [] } 1 false = some f ∧ goesFirst f f.cur = true ∧ pickSlot f f.cur = some false ∧
      fetchWord (readyFocus f) (pcOf f) = some (0x16380000, t) ∧ isLong 0x16380000 = true ∧
      fetchWord t (pcOf f + 4) = some (0x12345678, t1) ∧ decodeWord 0x16380000 0x12345678 = .ok (.sliw 7 0x12345678) :=
  ⟨_, _, _, rfl, by decide, by decide, rfl, rfl, rfl, rfl⟩

theorem witness_StepRunsDecodedInstruction_turn :
    let s := coded demo [0x34000000]
    s.agenda = [] ∧ nextEvent s = none ∧ nextSlot s (s.agents ++ [s.cur]) = some (1, false) :=
  ⟨rfl, by decide, by decide⟩

/-- A step runs the SLI at the program counter. -/
theorem test_step_sli : ∃ t, step (State.withFetchWord State.reset 32 0x14101F9C) = .next t ∧ getS t 2 = wd (2 ^ 64 - 100) :=
  ⟨_, rfl, rfl⟩

theorem witness_InstructionFetch : ∃ t, fetchWord (coded demo [0x34000000]) 0x1000 = some (0x34000000, t) := ⟨_, rfl⟩

theorem witness_InstructionFetch_traps :
    (ready { eng := true } (ask demo [0, 0] [] []) = true ∧ inA (ask demo [0, 0] [] []) 0 ≠ 1 ∧ (pcOf demo).toNat % 4 = 0) ∧
    (ready { eng := true } (ask demo [1, 5] [] []) = true ∧ inA (ask demo [1, 5] [] []) 0 = 1) ∧
    (let s := setPc demo 0x1002
     ready { eng := true } s = true ∧ inA s 0 ≠ 1 ∧ (pcOf s).toNat % 4 ≠ 0) := by decide

theorem witness_StepKeepsMemoryCanonical : ∃ t, memOk demo ∧ step demo = .next t := ⟨_, rfl, rfl⟩

theorem witness_ReadAfterWrite : ∀ k, 0x30000 ≤ k → k < 0x30000 + 2 → locClass k ≠ 5 ∧ barFile k = none := by
  intro k h1 h2
  have : k = 0x30000 ∨ k = 0x30001 := by omega
  rcases this with rfl | rfl <;> decide

theorem witness_RegistersAndLanes : (∃ n ∈ [64], demo.cur.k.vregs ≤ n) ∧ ready { sr := [1] } demo = true ∧
    poisonHit (slotOf demo) { vr := [64], sr := [1] } = none ∧ demo.cur.kind = .sheaf ∧ wOf demo = 32 ∧
    31 ∈ activeLanes demo ∧ 32 ∉ activeLanes demo := by decide

/-- A handler at 0x4000. -/
def handled : State := { demo with cur := { sheaf with thnd := 0x4000 } }

theorem witness_TrapEntry : handled.cur.kind = .sheaf ∧ handled.cur.thnd ≠ 0 ∧ masked handled.cur = false ∧
    (slotOf handled).wait = .ready ∧ ¬(ILLEGAL = FETCH ∧ (0 : Word) = handled.cur.thnd) := by decide

theorem witness_UnhandledTraps : demo.cur.kind = .sheaf ∧ demo.cur.thnd = 0 ∧ findStook demo demo.cur.stook = some stk ∧
    stk.abort = none := by decide

/-- An engine program of the copy engine. -/
def program : State := { demo with cur := { sheaf with kind := .copySeq, priv := false } }

theorem witness_UnhandledTraps_engine : program.cur.kind = .copySeq ∧ canIssue program = true ∧ program.cur.pri.wait = .ready ∧
    findStook program program.cur.stook = some stk ∧ stk.held.length < 16 := by decide

/-- A sheaf in its handler. -/
def handling : State := { demo with cur := { sheaf with tslot := 8, tpc := 0x2000 } }

theorem witness_TrapsAndPrivilege :
    (ready { sys := true } handling = true ∧ masked handling.cur = true) ∧ (ready { sys := true } demo = true ∧ masked demo.cur = false) ∧
    (ready { sr := [1] } (user demo) = true ∧ (user demo).cur.priv = false ∧ cregSys 0x30 = true ∧ cregSys 0x1BFF = true) ∧
    ready {} demo = true := by decide

/-! ### Witnesses: the scalar unit, control registers and control flow (02, 07) -/

/-- The type ET in force. -/
def typed (et : Nat) : State := with_ [] [] (BitVec.ofNat 24 (32 * et))

theorem witness_ScalarOperations :
    (let s := with_ [(1, 7), (2, 64)] [] 0
     ready { sr := [1, 2], sw := [3], eng := true } s = true ∧ ready { sr := [0, 63], sw := [0], eng := true } s = true ∧
     s.cur.kind = .sheaf ∧ getS s 2 ≠ 0) ∧
    (let s := with_ [(1, 7), (2, 0)] [] 0
     getS s 2 = 0 ∧ s.cur.md.getLsbD 14 = false) ∧
    (let s := with_ [(1, 1 <<< 63), (2, BitVec.allOnes 64)] [] 0x4000
     ready { sr := [1, 2], sw := [3], eng := true } s = true ∧ (getS s 1).toInt = -2 ^ 63 ∧ (getS s 2).toInt = -1 ∧
     s.cur.md.getLsbD 14 = true) ∧
    (fld 0x02000019 31 25 = 0x01 ∧ 25 ≤ fld 0x02000019 6 0) ∧ (fld 0x02000097 31 25 = 0x01 ∧ fld 0x02000097 6 0 = 23 ∧
      fld 0x02000097 12 7 ≠ 0) := by decide

theorem witness_ImmediatesAndConstants : ready { sr := [1], sw := [3], eng := true } demo = true ∧
    ready { sw := [3], eng := true } demo = true ∧ ready { sr := [3], sw := [3] } demo = true ∧
    (fld 0x0C000040 31 25 = 0x06 ∧ 64 ≤ fld 0x0C000040 12 0) ∧ (fld 0x14101F9C 31 25 = 0x0A ∧ fld 0x14101F9C 18 13 = 0) ∧
    (fld 0x16380000 31 25 = 0x0B ∧ fld 0x16380000 18 0 = 0) := by decide

theorem witness_LaneAndMaskAccess :
    (ready { vr := [63, 64 - 1], sr := [2], sw := [5] } (typed 2) = true ∧ etOf (typed 2) = 2 ∧ wOf (typed 2) = 32) ∧
    (ready { vr := [9, 10], sr := [2], sw := [5] } (typed 3) = true ∧ 9 % 2 = 1) ∧
    (ready { vr := [8, 9], sr := [2], sw := [5] } (with_ [(2, 32)] [] 0x40) = true ∧
      32 ≤ (getS (with_ [(2, 32)] [] 0x40) 2).toNat % 64) ∧
    (ready { vr := [8], sr := [2], sw := [5] } (with_ [(2, 31)] [] 0) = true ∧
      (getS (with_ [(2, 31)] [] 0) 2).toNat % 64 < 32 ∧ etOf (with_ [(2, 31)] [] 0) = 0) ∧
    (ready { vr := [8], sr := [2], sw := [5] } (typed 8) = true ∧ etOf (typed 8) = 8) ∧
    (ready { vw := [8, 9], sr := [1, 2] } (typed 2) = true ∧ ready { vw := [9, 10], sr := [1, 2] } (typed 2) = true ∧
      ready { vw := [8], sr := [1, 2] } (typed 0) = true) ∧
    (ready {} demo = true ∧ ready { sr := [5] } demo = true ∧ ready { sw := [5] } demo = true) := by decide

theorem witness_ScalarFrame : ∃ t, exec (.sadd 3 1 2) demo = .next t ∧ Instr.sadd 3 1 2 ∈ [Instr.sadd 3 1 2] ∧
    ready { sr := [1, 2], sw := [3], eng := true } demo = true ∧ dztOf demo = false := ⟨_, rfl, by decide, by decide, by decide⟩

theorem witness_ControlRegisterWrites_mode :
    (ready {} demo = true ∧ (0x3FF < 2 ^ 23) ∧ fld 0x1C0 9 5 = 14 ∧ fld 0x1400 12 10 = 5 ∧ 14 < fld 0x1E0 9 5 ∧ 5 < fld 0x1800 12 10) ∧
    (let s := with_ [(1, 0x103)] [] 0
     ready { sr := [1] } s = true ∧ (getS s 1).toNat < 2 ^ 23) ∧
    (let s := with_ [(1, 1 <<< 23)] [] 0
     ready { sr := [1] } s = true ∧ s.cur.kind = .sheaf ∧ 2 ^ 23 ≤ (getS s 1).toNat) := by decide

theorem witness_ControlRegisterWrites_registers :
    ([1, 2, 3, 0x10, 0x1F, 0x20, 0x21, 0x22, 0x23, 0x24, 0x30, 0x31, 0x32, 0x33, 0x34, 0x35, 0x36, 0x37, 0x200, 0x210, 0x21A, 0x220, 0x221,
      0x104, 0x105, 0x1FC, 0x1FD, 0x400, 0x48F, 0x1003, 0x13E3, 0x1800, 0x1BFD, 0x1C00, 0x1C01, 4].all
      (fun c => ready { sr := [1], sw := [2], sys := cregSys c } demo)) = true ∧ demo.cur.kind = .sheaf ∧
    (getS (with_ [(1, 4)] [] 0) 1).toNat % 4 = 0 ∧ (getS (with_ [(1, 6)] [] 0) 1).toNat % 4 ≠ 0 ∧ cregAssigned 4 = false ∧
    boundDeclared demo demo.cur.core 63 = false := by decide

theorem witness_ControlRegisterWrites_ports :
    (let s := with_ [(1, 0xFE)] [] 0
     ready { sr := [1], sys := cregSys 0x1002 } s = true ∧ (writePark (portGet s 0) ((getS s 1).setWidth 8)).isSome = true) ∧
    (let s := with_ [(1, 0xFF)] [] 0
     writePark (portGet s 31) ((getS s 1).setWidth 8) = none ∧ s.cur.kind = .sheaf) ∧
    (let s := with_ [(1, 0xFA876543210)] [] 0
     ready { sr := [1], sys := cregSys 0x201 } s = true ∧ s.remap = none ∧ (∀ d, d < 11 → dieDeclared s d = false) ∧
     (getS s 1).toNat ≠ chmapWord s.chmap ∧ oneMove s (getS s 1) = some 9 ∧ oneMove s 0xFA876543201 = none) ∧
    (∃ d < 11, dieDeclared { demo with dieWin := [(32 + 10, 1)] } d = true) := by decide

theorem witness_ControlRegisterWrites_bound :
    let s := { demo with stooks := [{ stk with k := { kern with bndMask := 0x8000000000000002 } }] }
    ready { sr := [1], sw := [2] } s = true ∧ boundDeclared s 0 1 = true ∧ boundDeclared s 0 63 = true := by decide

theorem witness_ControlRegisterReads :
    ([0, 1, 2, 3, 0x10, 0x17, 0x1F, 0x37, 0x100, 0x104, 0x1FF, 0x200, 0x201, 0x210, 0x21A, 0x400, 0x47E, 0x1000, 0x13E4, 0x1801, 0x1BFC, 0x1C01].all
      (fun c => ready { sw := [2], sys := cregSys c } demo)) = true ∧ vectorPending demo = false ∧
    vectorPending { demo with reqs := [⟨7, 1, 1, 0, false, .query 1 0 0 0 0 0, .none, [], false, none, true, 0, 0, 0, 0, []⟩] } = true := by decide

theorem witness_Branches :
    (let s := with_ [(1, 0x2000)] [(2, 5)] 0
     ready { sw := [62] } s = true ∧ ready {} s = true ∧ ready { sr := [1], eng := true } s = true ∧ ready { sr := [1], sw := [62] } s = true ∧
     (getS s 1 + BitVec.ofInt 64 (4 * (-1))).toNat % 4 = 0) ∧
    (let s := with_ [(1, 0x2002)] [] 0
     ready { sr := [1], sw := [62] } s = true ∧ s.cur.kind = .sheaf ∧ (getS s 1 + BitVec.ofInt 64 (4 * 1)).toNat % 4 ≠ 0) := by decide

theorem witness_Divergence_split :
    (let s := with_ [] [(1, 0xF), (2, 0xFFFFFFFF)] 0
     ready {} s = true ∧ (slotOf s).mask &&& getM s 3 = 0 ∧ (slotOf s).mask &&& getM s 1 ≠ 0 ∧
     (slotOf s).mask &&& ~~~((slotOf s).mask &&& getM s 1) ≠ 0 ∧ (slotOf s).mask &&& ~~~((slotOf s).mask &&& getM s 2) = 0 ∧
     s.cur.kind = .sheaf ∧ (otherSlot s).live = false ∧ (freeIdx s.cur.stack).head? = some 0) ∧
    (let full := { sheaf with stack := (List.range 63).map (fun n => ⟨n, true, 0, 0, 1, none⟩), m := [(1, 0xF)],
                              sec := { Slot.free with live := true, mask := 1 } }
     let s := { demo with cur := full }
     ready {} s = true ∧ (freeIdx s.cur.stack).length ≤ 1 ∧ (otherSlot s).live = true) := by decide

/-- A slot at a join point whose record waits for its lanes. -/
def joining (arr mask : Word) : State :=
  { demo with cur := { sheaf with pri := { Slot.free with live := true, pc := 0x1000, mask := mask, inner := some 3 },
                                  stack := [⟨3, true, 0x1000, arr, 0xFF, none⟩] } }

theorem witness_Divergence_join :
    (ready {} demo = true ∧ (slotOf demo).inner = none ∧ demo.cur.stack = [] ∧ (otherSlot demo).live = false) ∧
    (let s := joining 0xF0 0x0F
     ready {} s = true ∧ (slotOf s).inner = some 3 ∧ joinRec s.cur 3 = some ⟨3, true, 0x1000, 0xF0, 0xFF, none⟩ ∧
     (0x1000 : Word) = (slotOf s).pc ∧ 0xF0 ||| (slotOf s).mask = 0xFF) ∧
    (let s := joining 0 0x0F
     0 ||| (slotOf s).mask ≠ 0xFF ∧ s.cur.stack.all (fun g => g.join) = true) ∧
    (let s := setPc (joining 0 0x0F) 0x1004
     ready {} s = true ∧ (0x1000 : Word) ≠ (slotOf s).pc) ∧
    (let s := { demo with cur := { sheaf with sec := { Slot.free with live := true, mask := 1 } } }
     ready {} s = true ∧ (otherSlot s).live = true ∧ s.cur.stack = []) := by decide

/-- A slot whose record 3 lies within record 2. -/
def leaving (mask arr : Word) (paths : List StackEnt) : State :=
  { demo with cur := { sheaf with pri := { Slot.free with live := true, pc := 0x1000, mask := 0xF0, inner := some 3 },
                                  stack := paths ++ [⟨3, true, 0x2000, arr, mask, some 2⟩, ⟨2, true, 0x3000, 0, 0xFFF, none⟩] } }

theorem witness_Divergence_exit :
    (let s := leaving 0xFF 0x01 []
     ready {} s = true ∧ (slotOf s).inner = some 3 ∧ joinRec s.cur 3 = some ⟨3, true, 0x2000, 0x01, 0xFF, some 2⟩ ∧
     (0xFF : Word) &&& ~~~(slotOf s).mask ≠ 0 ∧ (0x01 : Word) ≠ 0xFF &&& ~~~(slotOf s).mask ∧
     s.cur.stack.find? (fun g => !g.join) = none ∧ (otherSlot s).live = false) ∧
    (let s := leaving 0xFF 0x01 [⟨4, false, 0x4000, 0, 1, some 3⟩]
     s.cur.stack.find? (fun g => !g.join) = some ⟨4, false, 0x4000, 0, 1, some 3⟩) ∧
    (let s := leaving 0xFF 0x0F []
     joinRec s.cur 3 = some ⟨3, true, 0x2000, 0x0F, 0xFF, some 2⟩ ∧ (0x0F : Word) = 0xFF &&& ~~~(slotOf s).mask) ∧
    (let s := leaving 0xF0 0 []
     joinRec s.cur 3 = some ⟨3, true, 0x2000, 0, 0xF0, some 2⟩ ∧ (0xF0 : Word) &&& ~~~(slotOf s).mask = 0 ∧ s.cur.stack.length ≤ 64) := by decide

theorem witness_SystemEffects :
    (ready {} demo = true ∧ demo.cur.saving = false ∧ nextPending (advance demo) 0 = none ∧ demo.cur.k.nSafe ≤ 2 ∧
      1 < demo.cur.k.nSafe ∧ findStook demo demo.cur.stook = some stk ∧ stk.pre.stage = 0) ∧
    (let s := { demo with stooks := [{ stk with pre := ⟨1, 0, 0, 0, false⟩ }] }
     ready {} s = true ∧ s.cur.pri.live ≠ s.cur.sec.live ∧ s.cur.stack = []) ∧
    (let s := { demo with agents := [{ sheaf with id := 2, slotNo := 1, active := false }] }
     (nextPending (advance s) 0).map (·.id) = some 2) ∧
    (let s := { demo with cur := { sheaf with saving := true, stopPt := some 0 } }
     ready {} s = true ∧ s.cur.saving = true) ∧
    (let s := { demo with reqs := [⟨7, 1, 1, 0, false, .store, .none, [⟨0, 0, 2 ^ 53, false, false, 1, 8, 0, 0, false, false⟩], true, none, false, 0, 0, 0, 0, []⟩] }
     canOrder s 5 true true = false ∧ canOrder demo 5 true true = true) ∧
    (ready { sw := [63] } demo = true ∧ ready { sys := true } demo = true ∧ ready { eng := true } demo = true ∧ demo.reqs = [] ∧
      ready { sr := [63] } demo = true) := by decide

/-! ### Witnesses: vector arithmetic, lanes and masks (08, 09) -/

/-- A type in force with mode bits of the rest. -/
def mode (et rest : Nat) : State := with_ [] [] (BitVec.ofNat 24 (32 * et + rest))

theorem witness_ElementValues : etMin 0 ≤ (-2 ^ 31 : Int) ∧ (-2 ^ 31 : Int) ≤ etMax 0 ∧ is64 0 = false ∧ etMin 3 ≤ (0 : Int) ∧
    (2 ^ 64 - 1 : Int) ≤ etMax 3 ∧ ¬((2 ^ 64 : Int) ≤ etMax 3) := by decide

/-- Operands of the type in force that the instructions of two operands take: a V or an S register. -/
def takes (s : State) (d a b : Nat) (sc three : Bool) : Bool :=
  let w := is64 (etOf s)
  let y := if sc then Src.s b else Src.v b
  (!w || (decide (d % 2 = 0) && decide (a % 2 = 0) && !oddSrc y)) &&
  ready { vr := (if three then regs w d else []) ++ (regs w a ++ srcV w y), vw := regs w d, sr := srcS y } s

theorem witness_VectorIntegerArithmetic :
    [0, 1, 2, 3, 4, 5, 6, 7].all (fun et => decide (etOf (typed et) = et) && takes (typed et) 62 0 62 false true &&
      takes (typed et) 62 62 63 true true && takes (typed et) 0 62 62 false false && takes (typed et) 2 0 63 true false) = true := by
  decide

theorem witness_VectorFloatArithmetic :
    [8, 9, 10, 11, 12].all (fun et => decide (etOf (typed et) = et) && (fmtOf et).isSome && takes (typed et) 63 0 62 false true &&
      takes (typed et) 63 62 63 true true) = true := by decide

theorem witness_VectorMovesAndTypes :
    [0, 2, 7, 8, 11, 12, 13, 14].all (fun et => decide (etOf (typed et) = et) && takes (typed et) 62 0 62 false true &&
      takes (typed et) 62 0 63 true false) = true ∧
    (is64 (etOf (typed 3)) = true ∧ 61 % 2 = 1 ∧ ready { vr := [61, 62, 2, 3, 4, 5], vw := [61, 62] } (typed 3) = true) ∧
    ready { vw := [63] } (typed 14) = true ∧
    [(0, 0), (12, 12), (2, 7), (3, 12), (7, 8), (8, 9), (12, 8), (8, 0), (13, 8), (13, 10), (14, 10), (8, 13), (10, 14)].all
      (fun p => ready { vr := regs (is64 p.1) 62, vw := regs (is64 p.2) 0 } (typed p.2)) = true := by decide

theorem witness_Comparisons :
    [0, 2, 7, 8, 12, 13, 14].all (fun et => takes (typed et) 0 62 62 false false && takes (typed et) 0 62 63 true false) = true := by
  decide

theorem witness_ShufflesAndRandomNumbers :
    [0, 2, 12].all (fun et => ready { vr := regs (is64 et) 62 ++ [63], vw := regs (is64 et) 62, sr := [63] } (typed et)) = true ∧
    ready { vr := [61, 62], vw := [4, 5, 6, 7], sr := [63] } demo = true ∧ ready { vr := [62, 63], vw := [60, 61, 62, 63], sr := [0] } demo = true ∧
    0 ∈ activeLanes demo ∧ 32 ∉ activeLanes demo := by decide

theorem witness_SortingAndMerging :
    [0, 2, 8].all (fun et => okKey et && ready { vr := regs (is64 et) 62, vw := 62 :: regs (is64 et) 62 } (typed et) &&
      ready { vr := regs (is64 et) 0 ++ regs (is64 et) 62, vw := [62, 63] } (typed et)) = true := by decide

theorem witness_Reductions :
    [0, 2, 7, 8, 10].all (fun et => decide (etOf (typed et) = et) && ready { vr := regs (is64 et) 62, sw := [63] } (typed et) &&
      ready { vr := regs (is64 et) 62, vw := regs (is64 et) 0 } (typed et)) = true := by decide

/-- Types and odd registers that the shuffles, sorts, reductions, comparisons and conversions refuse. -/
theorem witness_refused_types :
    [9, 11, 13, 14].all (fun et => decide (etOf (typed et) = et) &&
      ready { vr := regs (is64 et) 61 ++ [62], vw := regs (is64 et) 61, sr := [62], sw := [5] } (typed et)) = true ∧
    okKey 9 = false ∧ is64 (etOf (typed 2)) = true ∧ 61 % 2 = 1 ∧
    ready { vr := [61, 62, 60, 61], vw := [61, 62], sr := [62], sw := [5] } (typed 2) = true ∧
    ready { vr := regs (is64 13) 60, vw := regs (is64 2) 62 } (typed 2) = true ∧
    fld 0x02000018 31 25 = 0x01 ∧ fld 0x02000018 6 0 = 24 ∧ fld 0x02000018 12 7 = 0 ∧ fld 0x28C00000 31 25 = 0x14 ∧ 6 ≤ fld 0x28C00000 24 21 ∧
    fld 0x18000000 31 25 = 0x0C ∧ fld 0x18000000 18 0 = 0 := by decide

/-! ### Witnesses: loads, stores, atomics, cache maintenance (04, 05, 25) -/

/-- Pages of the context: data in HBM4 at 0x10000, a page without W at 0x20000, core 0's barrier file's SRAM at 0x30000, a page
marked poisoned at 0x40000, and host memory at 0x50000. -/
def pages : List TlbEnt :=
  [⟨0, 1, 3, 0, 0x2043B⟩, ⟨0, 1, 3, 1, 0x3041B⟩, ⟨0, 1, 3, 2, 0x4040B⟩, ⟨0, 1, 3, 3, 0x7049B⟩, ⟨0, 1, 3, 4, 0x6141B⟩,
   ⟨0, 1, 3, 5, 0x1000000001041B⟩]

/-- A sheaf of lanes 0 and 31 with an address in S1, over those pages; barrier 0 of core 0 is live. -/
def at_ (va : Word) : State :=
  { demo with cur := { sheaf with s := [(1, va)], pri := { Slot.free with live := true, pc := 0x1000, mask := 0x80000001 } },
              tlb := pages, barriers := [(0, { Barrier.dead with live := true, exp := 1 })] }

def dataPage : Page := leafPage 0x3041B

theorem at_reaches (k : AccKind) : reaches (at_ 0x10008) k 0x10008 dataPage 0x30008 :=
  ⟨by decide, by cases k <;> decide, _, _, rfl, rfl⟩

theorem at_calm (va : Word) : calm (at_ va) := ⟨rfl, rfl, rfl, rfl, rfl, rfl, rfl⟩

theorem witness_ScalarLoadsAndStores_checks :
    (ready { sr := [1], sw := [63], cls := some .ld } (at_ 0x10001) = true ∧ ready { sr := [1, 63], cls := some .st } (at_ 0x10001) = true ∧
      (getS (at_ 0x10001) 1 + BitVec.ofInt 64 0).toNat % 8 ≠ 0) ∧
    (ready { sr := [1], sw := [63], cls := some .ld } (at_ (1 <<< 57)) = true ∧ (getS (at_ (1 <<< 57)) 1).toNat % 8 = 0 ∧
      canonical (getS (at_ (1 <<< 57)) 1) = false) ∧
    (∃ kd lv e, canonical (0x10020000 : Word) = true ∧ translate (at_ 0x10020000) (whoOf (at_ 0x10020000).cur) 0x10020000 = .bad kd lv e) ∧
    (∃ pg pa new pins, translate (at_ 0x20000) (whoOf (at_ 0x20000).cur) 0x20000 = .ok pg pa new ∧
      pinTake (at_ 0x20000).pins (at_ 0x20000).cur.k.ctx 0x20000 pg = some pins ∧ permitted (whoOf (at_ 0x20000).cur) .wr pg = false) ∧
    (∃ pg pa new pins, translate (user (at_ 0)) (whoOf (user (at_ 0)).cur) 0x20000 = .ok pg pa new ∧
      pinTake (at_ 0).pins 1 0x20000 pg = some pins ∧ permitted ⟨1, 120, false, none⟩ .rd { pg with u := false } = false) :=
  ⟨by decide, by decide, ⟨_, _, _, by decide, rfl⟩, ⟨_, _, _, _, rfl, rfl, by decide⟩, ⟨_, _, _, _, rfl, rfl, by decide⟩⟩

theorem witness_ScalarLoadsAndStores_moves :
    ready { sr := [1], sw := [63], cls := some .ld } (at_ 0x10008) = true ∧ ready { sr := [1, 0], cls := some .st } (at_ 0x10008) = true ∧
    getS (at_ 0x10008) 1 + BitVec.ofInt 64 0 = 0x10008 ∧ pageLoc (at_ 0x10008) dataPage 0x30008 = 0x30008 ∧ locClass 0x30008 = 0 ∧
    rdTags (at_ 0x10008) true 0x30008 8 = none ∧ barFile 0x30008 = none ∧ liveBar (at_ 0x10008) 0x30008 = false ∧ 0x30008 % 32 + 8 ≤ 32 := by
  decide

theorem witness_ScalarLoadsAndStores_poison :
    reaches (at_ 0x40000) .rd 0x40000 (leafPage 0x6141B) 0x60000 ∧ (leafPage 0x6141B).pr = true ∧
    reaches (at_ 0x33000) .wr 0x33000 (leafPage 0x7049B) 0x73000 ∧
    liveBar (at_ 0x33000) (pageLoc (at_ 0x33000) (leafPage 0x7049B) 0x73000) = true :=
  ⟨⟨by decide, by decide, _, _, rfl, rfl⟩, by decide, ⟨by decide, by decide, _, _, rfl, rfl⟩, by decide⟩

/-- A check's accesses pass a test. -/
def passes (c : Chk) (p : Acc × Page → Bool) : Bool :=
  match c with
  | .ok l _ => l.all p
  | _ => false

theorem of_passes {c : Chk} {p : Acc × Page → Bool} (h : passes c p = true) : ∃ l u, c = .ok l u ∧ ∀ x ∈ l, p x = true := by
  cases c with
  | ok l u => exact ⟨l, u, rfl, List.all_eq_true.mp h⟩
  | _ => cases h

def mine (loc : Nat) : Bool :=
  decide (locClass loc ≠ 2) && decide (locClass loc ≠ 5) && decide (locClass loc ≠ 6) && decide (barFile loc = none)

theorem own_of_mine {loc : Nat} (h : mine loc = true) : ownLoc loc := by
  simp only [mine, Bool.and_eq_true, decide_eq_true_eq] at h
  exact ⟨h.1.1.1, h.1.1.2, h.1.2, h.2⟩

theorem witness_VectorLoadsAndStores_shape :
    ready { sr := [1], vr := [63], vw := [62, 63], cls := some .ld } (at_ 0x10000) = true ∧
    ready { sr := [1], vr := [63, 62, 63], cls := some .st } (at_ 0x10000) = true ∧
    ready { sr := [1], vr := [0], vw := [61, 62], cls := some .ld } (at_ 0x10000) = true ∧ 61 % 2 = 1 ∧
    activeLanes (at_ 0x10000) = [0, 31] ∧ bndOf (at_ 0x10000) = false ∧ is64 (etOf (at_ 0x10000)) = false ∧
    activeLanes { at_ 0x10000 with cur := { (at_ 0x10000).cur with md := 0x10 } } = [] := by decide

theorem witness_VectorLoads : ∃ accs u,
    checkAccs (at_ 0x10000) (whoOf (at_ 0x10000).cur) .rd 8 8
      ((activeLanes (at_ 0x10000)).map (fun l => (l, contigAddr (at_ 0x10000) 1 0 8 l, 0, 0))) = .ok accs u ∧
    ∀ p ∈ accs, (decide (isRemote p.1 = false) && decide (p.1.pr = false) && decide (rdTags (at_ 0x10000) p.1.coh p.1.loc 8 = none)) = true :=
  of_passes (by decide)

theorem witness_VectorStores : ∃ accs u,
    checkAccs (at_ 0x10000) (whoOf (at_ 0x10000).cur) .wr 4 4
      ((activeLanes (at_ 0x10000)).map (fun l => (l, indexedAddr (at_ 0x10000) 1 5 l, (getV (at_ 0x10000) 6 l).setWidth 64, 0))) = .ok accs u ∧
    ∀ p ∈ accs, (mine p.1.loc && decide (p.1.loc % 32 + 4 ≤ 32)) = true := of_passes (by decide)

/-- With MD.BND over entry 1, whose action is both and whose range is 1 to 5. -/
def bounded : State :=
  { at_ 0x10000 with cur := { (at_ 0x10000).cur with md := 0x30000 }, bounds := [(1, ⟨1, 5, 3, 0⟩)] }

theorem witness_VectorStores_bound : bndOf bounded = true ∧ bxOf bounded ≠ 0 ∧ (boundGet bounded 0 1).act = 3 ∧
    (activeLanes bounded).filter (fun l => outOfRange (elemB (etOf bounded) (rawV bounded (etOf bounded) 6 l)) (boundGet bounded 0 1)) = [0, 31] ∧
    calm bounded := ⟨by decide, by decide, by decide, by decide, rfl, rfl, rfl, rfl, rfl, rfl, rfl⟩

/-- One active lane, whose address in V2 and V3 is 0x10008, and 7 in V4. -/
def one_ (et : Nat) : State :=
  { at_ 0 with cur := { (at_ 0).cur with pri := { Slot.free with live := true, pc := 0x1000, mask := 0x80000000 }, md := BitVec.ofNat 24 (32 * et),
                                         v := [(vkey 2 31, 0x10008), (vkey 4 31, 7)] } }

theorem witness_Atomics_shape :
    [0, 2, 3].all (fun et => ready { vr := 2 :: 3 :: (regs (is64 et) 4 ++ regs (is64 et) 62), vw := regs (is64 et) 62, cls := some .ld } (one_ et)) = true ∧
    activeLanes (one_ 0) = [31] ∧ queued (one_ 0) 0 < 256 ∧ getV2 (one_ 0) 2 31 = 0x10008 := by decide

theorem witness_Atomics_lane : calm (one_ 3) ∧ ∃ l u,
    checkAccs (one_ 3) (whoOf (one_ 3).cur) .at 8 8 [atLane (one_ 3) 3 62 2 4 31] (atLimit .cas 3) = .ok l u ∧
    ∀ x ∈ l, (mine x.1.loc && decide (x.1.loc % 32 + 8 ≤ 32) && !x.1.pr && x.1.coh && (rdTags (one_ 3) x.1.coh x.1.loc 8).isNone) = true :=
  ⟨⟨rfl, rfl, rfl, rfl, rfl, rfl, rfl⟩, of_passes (by decide)⟩

/-- Each limit of the types: an atomic addition takes F32, a minimum does not, and an odd address pair is refused. -/
theorem witness_Atomics_types : ready { vr := [2, 3, 4, 62], vw := [62], cls := some .ld } (one_ 8) = true ∧
    ready { vr := [3, 4, 4, 62], vw := [62], cls := some .ld } (one_ 0) = true ∧
    activeLanes { one_ 0 with cur := { (one_ 0).cur with md := 0x10 } } = [] := by decide

theorem witness_CacheMaintenance : ready { sr := [1], sys := true } (at_ 0x10008) = true ∧ ready { sys := true } (at_ 0x10008) = true ∧
    ready { sr := [1], sys := true, cls := some .st } (at_ 0x10008) = true ∧ (at_ 0x10008).pins = [] ∧ pageCoh dataPage 0x30008 = true ∧
    reaches (at_ 0x10000000) .rd 0x10000000 (windowPage false 0 0) 0 ∧ pageCoh (windowPage false 0 0) 0 = false :=
  ⟨by decide, by decide, by decide, rfl, by decide, ⟨by decide, by decide, _, _, rfl, rfl⟩, by decide⟩

/-! ### Witnesses: barriers and queues (14) -/

theorem witness_Barriers :
    let s := { at_ 1 with barriers := [(0, ⟨1, 0, 0, false, 0, true⟩), (3, ⟨2, 8, 2, false, 5, true⟩)] }
    ready { sr := [1], eng := true } s = true ∧ ready { sw := [15], eng := true } s = true ∧ s.reqs = [] ∧
    s.cur.k.nBar ≤ 4 ∧ 3 < s.cur.k.nBar ∧ (getS s 1 + wd 65534).toNat = 65535 ∧ (getS s 1 + wd 65535).toNat = 65536 ∧
    (getS s 0 + wd 0).toNat = 0 ∧ (barGet s 0 0).phcnt.getLsbD 0 = (getS s 0 + wd 0).getLsbD 0 ∧
    (barGet s 0 3).phcnt.getLsbD 0 ≠ (getS s 0 + wd 0).getLsbD 0 ∧ waitersOn s 0 3 < 2 ^ 14 := by decide

/-- Queue 1 with a capacity of 4 handles on the SRAM at 0x10000000, and n handles and w allowances. -/
def queued_ (n w : Nat) : State := { at_ 0x10000000 with queues := [⟨1, 1, 0x10000000, 3 * 2 ^ 52, 2, n, w, 3, [], []⟩] }

theorem witness_Queues_state :
    [(0, 0), (4, 0), (0, 4), (3, 1)].all (fun p => ready { sr := [1], sw := [15], eng := true } (queued_ p.1 p.2) &&
      (queueOf (queued_ p.1 p.2) 1 1).isSome && (queueOf (queued_ p.1 p.2) 1 0).isNone) = true ∧
    (queued_ 0 0).reqs = [] ∧ 1 < (queued_ 0 0).cur.k.nQ ∧ (queued_ 0 0).cur.k.nQ ≤ 2 ∧
    getS (queued_ 0 0) 1 + wd 0 ≠ BitVec.allOnes 64 ∧ getS (at_ (BitVec.allOnes 64)) 1 + wd 0 = BitVec.allOnes 64 ∧
    2 ^ 2 < 1 + 3 + (getS (at_ 1) 1).toNat ∧ 1 + 2 + (getS (at_ 1) 1).toNat ≤ 2 ^ 2 := by decide

theorem witness_Queues_place : ∀ k, 3 * 2 ^ 52 + 24 ≤ k → k < 3 * 2 ^ 52 + 24 + 8 → locClass k ≠ 5 ∧ barFile k = none := by
  intro k h1 h2
  obtain ⟨j, hj, rfl⟩ : ∃ j, j < 8 ∧ k = 3 * 2 ^ 52 + 24 + j := ⟨k - (3 * 2 ^ 52 + 24), by omega, by omega⟩
  have : j = 0 ∨ j = 1 ∨ j = 2 ∨ j = 3 ∨ j = 4 ∨ j = 5 ∨ j = 6 ∨ j = 7 := by omega
  rcases this with rfl | rfl | rfl | rfl | rfl | rfl | rfl | rfl <;> decide

theorem witness_Queues_page : ∃ pg pa new pins,
    (0x10000000 : Word).toNat % (8 * 2 ^ 12) = 0 ∧ translate (queued_ 0 0) (whoOf (queued_ 0 0).cur) 0x10000000 = .ok pg pa new ∧
    pinTake (queued_ 0 0).pins 1 0x10000000 pg = some pins ∧ pg.home = 2 ∧ pg.hidx = 0 ∧ pg.p = false ∧ pg.r = true ∧ pg.w = true ∧ pg.u = true :=
  ⟨_, _, _, _, by decide, rfl, rfl, by decide⟩

theorem witness_Queues_otherPage : ∃ pg pa new pins,
    translate (at_ 0x10000) (whoOf (at_ 0x10000).cur) 0x10000 = .ok pg pa new ∧ pinTake (at_ 0x10000).pins 1 0x10000 pg = some pins ∧
    pg.home ≠ 2 := ⟨_, _, _, _, rfl, rfl, by decide⟩

/-! ### Witnesses: engines, sketches, records (06, 10, 11, 13, 14, 24) -/

/-- A descriptor read gives these. -/
def gets (r : DRes) (p : Nat → Nat → Bool → Page → State → Bool) : Bool :=
  match r with
  | .ok x l c pg t => p x l c pg t
  | .stop _ => false

theorem of_gets {r : DRes} {p : Nat → Nat → Bool → Page → State → Bool} (h : gets r p = true) :
    ∃ x l c pg t, r = .ok x l c pg t ∧ p x l c pg t = true := by
  cases r with
  | ok x l c pg t => exact ⟨x, l, c, pg, t, rfl, h⟩
  | stop _ => cases h

/-- With the bytes of a number at the data page, at 0x10000. -/
def holding (n x : Nat) (va : Word) : State := { at_ va with mem := smPutList 0 [] 0x30000 (leBytes n x) }

theorem witness_CopiesHandedOver_read : calm (holding 64 5 0x10000) ∧ reaches (holding 64 5 0x10000) .rd 0x10000 dataPage 0x30000 ∧
    dataPage.pr = false ∧ dataPage.w = true ∧ liveIn (holding 64 5 0x10000) (pageLoc (holding 64 5 0x10000) dataPage 0x30000) 64 = none ∧
    pageLoc (holding 64 5 0x10000) dataPage 0x30000 % 64 = 0 ∧ locClass (pageLoc (holding 64 5 0x10000) dataPage 0x30000) ≠ 2 ∧
    rdTags (holding 64 5 0x10000) true 0x30000 64 = none ∧
    rdTags { holding 64 5 0x10000 with poison := [(0x30020 / 32, some 7)] } true 0x30000 64 = some 7 :=
  ⟨⟨rfl, rfl, rfl, rfl, rfl, rfl, rfl⟩, ⟨by decide, by decide, _, _, rfl, rfl⟩, by decide, by decide, by decide, by decide, by decide, by decide,
   by decide⟩

/-- A copy descriptor that follows on, of slice 0 of two. -/
def copyDesc : Nat := 1 <<< 471 + 1 <<< 476

theorem witness_CopiesHandedOver_copy : ready { sr := [1], sw := [15], eng := true, cls := some .cp } (holding 64 copyDesc 0x10000) = true ∧
    openCopy (holding 64 copyDesc 0x10000) 1 true 15 = none ∧ openCount (holding 64 copyDesc 0x10000) 1 < 16 ∧
    (holding 64 copyDesc 0x10000).cur.cntTl < 62 ∧ 3 < (holding 64 copyDesc 0x10000).cur.k.nBar ∧
    ∃ x l c pg t, readDesc (holding 64 copyDesc 0x10000) 0x10000 64 false = .ok x l c pg t ∧
      (decide (fld x 471 471 = 1) && decide (fld x 475 472 = 0) && decide (fld x 479 476 + 1 = 2)) = true :=
  ⟨by decide +kernel, by decide +kernel, by decide +kernel, by decide +kernel, by decide +kernel, of_gets (by decide +kernel)⟩

/-- A sheaf with source addresses in V2 and V3 and destinations in V4 and V5. -/
def moving : State :=
  { at_ 3 with cur := { (at_ 3).cur with v := [(vkey 2 0, 0x10010), (vkey 2 31, 0x10020), (vkey 4 0, 0x10000000), (vkey 4 31, 0x10000010)] } }

theorem witness_CopiesHandedOver_lanes : calm moving ∧ ready { vr := [4, 5, 2, 3], sr := [1], cls := some .cp } moving = true ∧
    activeLanes moving ≠ [] ∧ (getS moving 1).toNat < moving.cur.k.nBar ∧
    (∀ l ∈ activeLanes moving, (getV2 moving 2 l).toNat % 16 = 0 ∧ (getV2 moving 4 l).toNat % 16 = 0 ∧
      canonical (getV2 moving 2 l) = true ∧ canonical (getV2 moving 4 l) = true) ∧
    (let x := cplXlate moving (whoOf moving.cur) ((activeLanes moving).flatMap (fun l => [⟨l, false, getV2 moving 2 l⟩, ⟨l, true, getV2 moving 4 l⟩]))
     x.2.1 = [] ∧ ∀ r ∈ x.1, permitted (whoOf moving.cur) (if r.ad.dst then .wr else .rd) r.pg = true ∧
       (r.ad.dst = true → liveIn x.2.2 r.acc.loc 16 = none)) :=
  ⟨⟨rfl, rfl, rfl, rfl, rfl, rfl, rfl⟩, by decide, by decide, by decide, by decide, by decide⟩

/-- An MMA's operands check. -/
def taken (r : MRes) : Bool :=
  match r with
  | .ok _ _ _ => true
  | _ => false

theorem of_taken {r : MRes} (h : taken r = true) : ∃ a b t, r = .ok a b t := by
  cases r with
  | ok a b t => exact ⟨a, b, t, rfl⟩
  | _ => cases h

/-- Operands in the scratch window in S1 and S2. -/
def tiled (a b : Word) : State := { at_ a with cur := { (at_ a).cur with s := [(1, a), (2, b)] } }

theorem witness_TileOperationsIssued :
    calm (tiled 0x10000000 0x10008000) ∧ ready { sr := [1, 2], sw := [], eng := true, cls := some .tl } (tiled 0x10000000 0x10008000) = true ∧
    ready { sr := [1, 2], sw := [2], eng := true, cls := some .tl } (tiled 0x10000000 0x10008000) = true ∧
    ready { sr := [1], sys := true, cls := some .tl } (tiled 0x10000000 0) = true ∧
    (tiled 0 0).cur.k.tiles[1]? = some 1 ∧ (tiled 0 0).cur.k.tiles[2]? = none ∧ issuedMode (tiled 0 0) 0 1 = 0 ∧
    (0x10000020 : Word).toNat % 64 ≠ 0 ∧ canonical ((0x10000000 : Word) + wd (imageBytes 8 - 1)) = true ∧
    ∃ a b t, mmaCheck (tiled 0x10000000 0x10008000) (partyOf (tiled 0x10000000 0x10008000)) 0 0 0 0x10000000 0x10008000 = .ok a b t :=
  ⟨⟨rfl, rfl, rfl, rfl, rfl, rfl, rfl⟩, by decide, by decide, by decide, by decide, by decide, by decide, by decide, by decide, of_taken (by decide)⟩

theorem witness_TileOperationsIssued_chinj :
    (let x := 0x00100005; fld x 63 40 = 0 ∧ fld x 31 28 = 0 ∧ fld x 23 23 = 0 ∧ fld x 19 12 = 0 ∧ fld x 27 24 ≤ 9 ∧ fld x 22 20 = 1) ∧
    (let x := 0x0A000000; ¬fld x 27 24 ≤ 9) ∧ (let x := 0x09FFFFFF; fld x 27 24 ≤ 9 ∧ fld x 23 23 ≠ 0) := by decide

/-- A sketch descriptor: 2^4 columns, three rows, its table at 0x10080. -/
def geometry : Nat := 0x10080 + 4 <<< 64 + 3 <<< 69

def sketching : State :=
  { holding 32 geometry 0x10000 with cur := { (holding 32 geometry 0x10000).cur with s := [(1, 0x10000), (2, 0x10000)] } }

theorem witness_SketchInstructionsIssued : calm sketching ∧
    ready { vr := 4 :: 5 :: regs (is64 (etOf sketching)) 6, vw := regs (is64 (etOf sketching)) 6, sr := [1], cls := some .st } sketching = true ∧
    ready { vr := 4 :: 5 :: regs (is64 (etOf sketching)) 6, vw := regs (is64 (etOf sketching)) 6, sr := [1], cls := some .ld } sketching = true ∧
    ready { sr := [1, 2], cls := some .cp } sketching = true ∧ etOf sketching = 0 ∧ sketchBad geometry = 0 ∧ sketchBad (geometry + 1) = 4 ∧
    sketchBad (geometry + 1 <<< 86) = 1 ∧ activeLanes sketching ≠ [] :=
  ⟨⟨rfl, rfl, rfl, rfl, rfl, rfl, rfl⟩, by decide, by decide, by decide, by decide, by decide, by decide, by decide, by decide⟩

theorem witness_SketchInstructionsIssued_counters : ∃ x l c pg t, readDesc sketching 0x10000 32 true = .ok x l c pg t ∧
    (decide (x = geometry) && passes (checkAccs t (whoOf t.cur) .at (sketchOf 0x10000 l c x).size (sketchOf 0x10000 l c x).size
        (((activeLanes sketching).flatMap (fun n => cellsOf (sketchOf 0x10000 l c x) n (getV2 sketching 4 n))).map (fun c => (c.lane, c.va, 0, 0)))
        (fun z => skHome z.loc z.coh)) (fun _ => true) &&
      (sketchLost t (sketchOf 0x10000 l c x)).isNone && gets (readDesc t 0x10000 32 false) (fun y _ _ _ _ => decide (y = geometry))) = true :=
  of_gets (by decide)

/-- A sheaf whose kernel's engine table is at 0x10000, with program numbers 2 and 0 in S1 and S2. -/
def forking : State :=
  { holding 16 0x2000 0x10000 with cur := { (holding 16 0x2000 0x10000).cur with s := [(1, 2)], k := { kern with engTab := 0x10000 } } }

theorem witness_ProgramsAndRecords_fork : calm forking ∧ ready { sr := [1, 2] } forking = true ∧ (getS forking 1).toNat ≤ forking.cur.k.nEng ∧
    (getS forking 2).toNat = 0 ∧ forkLen forking 0 true < 4 ∧ forkLen forking 0 false < 4 ∧
    ∃ x l c pg t, readDesc forking (forking.cur.k.engTab + wd (8 * (2 - 1))) 8 false = .ok x l c pg t ∧ decide (x = 0) = true :=
  ⟨⟨rfl, rfl, rfl, rfl, rfl, rfl, rfl⟩, by decide, by decide, by decide, by decide, by decide, of_gets (by decide)⟩

theorem witness_ProgramsAndRecords_eend : ready { eng := true } demo = true ∧ ready { eng := true } program = true ∧ program.cur.kind ≠ .sheaf ∧
    (∀ c, cntOf program.cur c = 0) ∧ cntOf { program.cur with cntTl := 1 } .tl ≠ 0 ∧
    ready { eng := true } { program with cur := { program.cur with cntTl := 1 } } = true :=
  ⟨by decide, by decide, by decide, fun c => by cases c <;> decide, by decide, by decide⟩

theorem witness_ProgramsAndRecords_records : calm (holding 64 (3 <<< 400) 0x10000) ∧
    ready { sr := [1, 2], sw := [15], cls := some .ld } (holding 64 (3 <<< 400) 0x10000) = true ∧
    poolFree (holding 64 (3 <<< 400) 0x10000) = some 2 ∧ (poolGet (holding 64 (3 <<< 400) 0x10000) 1).budget ≠ 0 ∧
    (poolGet (holding 64 (3 <<< 400) 0x10000) 1).depth ≠ 24 ∧
    (∃ x l c pg t, readDesc (holding 64 (3 <<< 400) 0x10000) 0x10000 64 false = .ok x l c pg t ∧ true = true) ∧
    (∃ x l c pg t, readDesc (holding 64 (3 <<< 400) 0x10000) 0x10000 32 true = .ok x l c pg t ∧
      (c && decide (locClass l = 0) && decide (l % 32 = 0)) = true) :=
  ⟨⟨rfl, rfl, rfl, rfl, rfl, rfl, rfl⟩, by decide, by decide, by decide, by decide, of_gets (by decide), of_gets (by decide)⟩

theorem witness_ProgramsAndRecords_none :
    (getS (at_ 0x10020) 1).toNat % 64 ≠ 0 ∧ (getS (at_ 0x10010) 1).toNat % 32 ≠ 0 ∧
    (poolGet { at_ 0 with pool := [(1, PoolRec.free)] } 1).budget = 0 ∧
    ∃ x l c pg t, readDesc (at_ 0x10000000) 0x10000000 32 true = .ok x l c pg t ∧ (!c) = true :=
  ⟨by decide, by decide, by decide, of_gets (by decide)⟩

/-! ### Witnesses: the fabric (17, 18, 21) -/

theorem witness_PortAndMapWrites :
    let s := ask demo [31, 0x0F] [] []
    ready { sys := true } s = true ∧
    ~~~((portGet s 31).retired ||| (portGet s 31).training ||| 0x0F ||| (portGet s 31).peerPark) ||| (portGet s 31).waking ≠ 0 ∧
    ~~~((portGet s 31).retired ||| (portGet s 31).training ||| 0xFF ||| (portGet s 31).peerPark) ||| (portGet s 31).waking = 0 ∧
    s.remap = none ∧ (∀ d, d < 11 → dieDeclared s d = false) ∧ s.chmap.length = 11 ∧ (∀ c ∈ s.chmap, c < 16) ∧
    s.chmap.getD 10 15 ≠ 15 ∧ s.chmap.getD 9 0 ≠ s.chmap.getD 10 15 ∧ ({ s with remap := some ⟨0, 0, false⟩ } : State).remap.isSome = true ∧
    chmapWord ((s.chmap.set 9 10).set 10 15) = 0xFA876543210 := by decide

/-- A group of three nodes in which the device, node 0, has rank 1; the remote window is 64 KiB at 0x30000. -/
def grouped (va : Word) : State :=
  { holding 64 0 va with groups := [(1, some ⟨7, 1, true, 3, 0, 0x30000, 0x10000, 0, [5, 0, 9]⟩)] }

theorem witness_RequestsAndCallsIssued : calm (grouped 0x10000) ∧ ready { sr := [1, 2], sw := [15], cls := some .cp } (grouped 0x10000) = true ∧
    ready { sr := [1], sw := [15], cls := some .cp } (grouped 0x10000) = true ∧ (groupFor (grouped 0x10000) 1).isSome = true ∧
    groupFor (grouped 0x10000) 2 = none ∧ (grouped 0x10000).early = [] ∧ (grouped 0x10000).skipped = [] ∧ (grouped 0x10000).calls = [] ∧
    (∃ x l c pg t, readDesc (grouped 0x10000) 0x10000 64 false = .ok x l c pg t ∧ true = true) :=
  ⟨⟨rfl, rfl, rfl, rfl, rfl, rfl, rfl⟩, by decide, by decide, by decide, by decide, rfl, rfl, rfl, of_gets (by decide)⟩

/-- A sheaf of one lane with the rank r in V2 and the offset o in V4 and V5. -/
def remote (r : Lane) (o : Lane) (et : Nat) : State :=
  { grouped 0 with cur := { (one_ et).cur with v := [(vkey 2 31, r), (vkey 4 31, o)], k := { kern with grp := 1 } } }

theorem witness_RemoteAccesses : [(0, 0xFFF8, 0), (1, 0, 2), (2, 0xFFFC, 1), (3, 8, 3), (0, 0xFFFF, 0), (1, 0xFFFC, 8)].all (fun p =>
      ready { vr := 2 :: 4 :: 5 :: [], vw := regs (is64 p.2.2) 6, cls := some .ld } (remote p.1 p.2.1 p.2.2) &&
      ready { vr := 2 :: 4 :: 5 :: regs (is64 p.2.2) 6, vw := [], cls := some .st } (remote p.1 p.2.1 p.2.2) &&
      decide (activeLanes (remote p.1 p.2.1 p.2.2) = [31]) && (groupFor (remote p.1 p.2.1 p.2.2) 1).isSome) = true ∧
    (getV2 (remote 0 0xFFF8 0) 4 31).toNat % 4 = 0 ∧ (getV2 (remote 0 0xFFFF 0) 4 31).toNat % 4 ≠ 0 ∧
    rdTags (remote 1 0xFFFC 0) true (0x30000 + 0xFFFC) 4 = none ∧ mine (0x30000 + 0xFFFC) = true ∧ (0x30000 + 0xFFFC) % 32 + 4 ≤ 32 ∧
    groupFor { remote 0 0 0 with groups := [] } 1 = none := by decide

/-! ### Witnesses: events (05, 06, 10 to 13, 25) -/

/-- The result is a success that passes a test: of an engine's access, of the part's own, of a system access. -/
def eGot {α : Type} (r : ERes α) (p : α → State → Bool) : Bool :=
  match r with
  | .ok x t => p x t
  | _ => false

theorem of_eGot {α : Type} {r : ERes α} {p : α → State → Bool} (h : eGot r p = true) : ∃ x t, r = .ok x t ∧ p x t = true := by
  cases r with
  | ok x t => exact ⟨x, t, rfl, h⟩
  | _ => cases h

def pGot {α : Type} (r : PRes α) (p : α → State → Bool) : Bool :=
  match r with
  | .ok x t => p x t
  | _ => false

theorem of_pGot {α : Type} {r : PRes α} {p : α → State → Bool} (h : pGot r p = true) : ∃ x t, r = .ok x t ∧ p x t = true := by
  cases r with
  | ok x t => exact ⟨x, t, rfl, h⟩
  | _ => cases h

/-- A stook that holds an imprecise trap. -/
def heldStk : Stook := { stk with held := [⟨POISON, 0x10000, 7, 2⟩] }

theorem witness_TrapUnitEvents_delivery :
    (let s := ask { handled with stooks := [heldStk] } [1] [] []
     findStook s 1 = some heldStk ∧ heldStk.abort = none ∧ heldStk.pre.stage ≠ 3 ∧ firstLive s 1 = some handled.cur ∧
     handled.cur.pri.wait = .ready ∧ handled.cur.stopPt = none ∧ masked handled.cur = false ∧ s.halted = false ∧ handled.cur.thnd ≠ 0) ∧
    (let s := ask { demo with cur := { sheaf with ended := true }, stooks := [heldStk] } [1] [] []
     findStook s 1 = some heldStk ∧ firstLive s 1 = none) := by decide

/-- A fault of the load in the primary slot of the sheaf, appended to its context's ring or not. -/
def faulted (idx : Option (BitVec 32)) (fate : Nat) : FaultRec := ⟨9, 1, 0x60000, 3, 0, 1, 3, 0, 0, 0, 0, .slot 1 false, 1, 0, idx, fate⟩

/-- That fault's ring holds n records; the sheaf is parked. -/
def ringed (n : Nat) (idx : Option (BitVec 32)) (fate : Nat) (a : List Nat) : State :=
  ask { at_ 0 with faults := [faulted idx fate], rings := [(1, ⟨BitVec.ofNat 32 n, 0, idx.isNone, 0, 0⟩)], time := 100000,
                   cur := { (at_ 0).cur with pri := { (at_ 0).cur.pri with wait := .parked 9 } } } a [] []

theorem witness_TrapUnitEvents_rings :
    (let s := ringed 1 (some 0) 0 [1, 2 ^ 32 + 1]
     (smGet none s.ctxs 1).isSome = true ∧ (wd (2 ^ 32 + 1)).toNat < 2 ^ 33 ∧ ((wd (2 ^ 32 + 1)).setWidth 32 - (ringOf s 1).fcons).toNat ≤ 1 ∧
     (∀ f ∈ s.faults, f.ctx = 1 → f.idx.isSome = true ∨ f.fate ≠ 0) ∧ (ringOf s 1).fprod ≠ (ringOf s 1).fcons ∧
     (ringOf s 1).since + 100000 ≤ s.time) ∧
    (let s := ringed 1 (some 0) 0 [1, 2]
     ((ringOf s 1).fprod - (ringOf s 1).fcons).toNat < ((wd 2).setWidth 32 - (ringOf s 1).fcons).toNat) ∧
    (let s := ringed 0 none 0 [1, 0]
     smGet none s.ctxs 1 = some ctx1 ∧ (ringOf s 1).failing = true ∧ (ringOf s 1).tried + 100000 ≤ s.time ∧
     s.faults.filter (fun g => g.ctx == 1 && g.idx.isNone && g.fate == 0) = [faulted none 0] ∧
     ((ringOf s 1).fprod - (ringOf s 1).fcons).toNat < 2 ^ ctx1.frlog ∧
     ringBar s 1 0 (ctx1.fring + wd (32 * ((ringOf s 1).fprod.toNat % 2 ^ ctx1.frlog))) = none ∧
     (match sysWrite s 1 0 (ctx1.fring + wd 0) (faultBytes (faulted none 0)) with
      | .ok _ _ => true
      | _ => false) = true) ∧
    (let s := ringed 1 (some 0) 2 [9]
     s.faults.find? (fun g => g.id == 9) = some (faulted (some 0) 2) ∧ (faulted (some 0) 2).owner = .slot s.cur.id false ∧
     s.cur.kind ≠ .none ∧ suspendedAgent s s.cur.id = false ∧ (getSlot s.cur false).wait = .parked 9) := by decide

/-- An access of 8 bytes at a location. -/
def acc (loc : Nat) (coh : Bool) (data : Word) : Acc := ⟨0, 0x10008, loc, coh, false, 0, 8, data, 0, false, false⟩

/-- A request in flight. -/
def flying (op : ReqOp) (dest : Dest) (a : Acc) : Req := ⟨20, 1, 1, 0, false, op, dest, [a], true, none, false, 0, 0, 0, 0, []⟩

theorem witness_MemoryEvents :
    (∀ tag ∈ [0, 1], let a := acc (2 * 2 ^ 52 + 239 * 2 ^ 44) false 0
      let s := ask { demo with reqs := [flying .load (.sreg 63) a] } [20] [5] [tag]
      s.cur.kind ≠ .none ∧ s.latent = [] ∧ s.reqs.find? (fun q => q.id == 20) = some (flying .load (.sreg 63) a) ∧ 63 ≠ 0 ∧
      locClass a.loc = 2 ∧ nodeOf a.loc < 240 ∧ s.inp.tags.getD 0 0 = tag ∧ away s 20 (nodeOf a.loc) = true ∧ s.inp.a.getD 1 0 ≠ 1 ∧
      (flying .load (.sreg 63) a).got = [] ∧ { a with pr := true }.pr = true) ∧
    (let a := acc 0x30018 true 5
     let s := ask { demo with reqs := [flying .store .none a] } [20] [] []
     s.reqs.find? (fun q => q.id == 20) = some (flying .store .none a) ∧ mine a.loc = true ∧ 1 ≤ a.size ∧ a.size ≤ 8 ∧ a.loc % 32 + a.size ≤ 32 ∧ s.inp.a.drop 2 = []) ∧
    (let a := acc 0x30018 true 5
     let q : AtomReq := ⟨20, 0, 0, AtOp.add.code, 3, [a]⟩
     let r := flying (.atomic AtOp.add.code 3) (.vreg 62 8 false) a
     let s := ask { demo with reqs := [r], atomQ := [q] } [0] [] []
     s.atomQ.find? (fun q => q.cluster == 0) = some q ∧ s.reqs.find? (fun r => r.id == q.req) = some r ∧ atSize 3 = 8 ∧
     mine a.loc = true ∧ locClass a.loc ≠ 1 ∧ a.loc % 32 + 8 ≤ 32 ∧ rdTags s a.coh a.loc 8 = none) ∧
    (let p : Pin := ⟨3, 0x30000, [(1, 1)], true⟩
     let s := ask { demo with pins := [p] } [3, 0x30000] [] []
     s.pins.find? (fun p => p.slice == 3 && p.frame == 0x30000) = some p ∧ mmaHolds s p.frame = false ∧ p.frame % 65536 = 0 ∧
     p.frame + 65536 ≤ 2 ^ 52) := by decide

/-- The residues of 5, that of channel 9 wrong. -/
def struck : List Nat := ((List.range 10).map (fun k => modN 5 (modulus k))).set 9 7

theorem witness_SingleChannelCorrection :
    (∀ m, m < 3 → inRange m 5 = true ∧ boundedBy 5 24 = true ∧ 24 < threshold m ∧
      ∀ k ∈ modeChans m, ((List.range 10).map (fun k => modN 5 (modulus k))).getD k 0 = modN 5 (modulus k)) ∧
    (487 < 488 ∧ legit 0 5 24 = true ∧ (∀ k, k < 10 → struck.getD k 0 < modulus k) ∧
      (∀ j, j < 10 → j ≠ 9 → struck.getD j 0 = modN 5 (modulus j)) ∧ struck.getD 9 0 ≠ modN 5 (modulus 9) ∧
      legit 0 (rebuild struck ((modeChans 0).filter (· ≠ 9))) 24 = true) ∧ ∀ v b, judge 0 struck 24 ≠ (.good v, b) := by
  refine ⟨by decide, by decide, ?_⟩
  intro v b h
  have h2 : judge 0 struck 24 = (.corr 5 9, false) := by decide
  rw [h2] at h
  cases h

theorem witness_AccumulationIsExact : ∃ acc : Acum, acc.res.length = 10 ∧ (∀ k ∈ modeChans 2, acc.res.getD k 0 = modN (-3) (modulus k)) ∧
    (5 : Int) ≠ 0 ∧ (0 : Int) ≤ 127 + 0 - 0 ∧ (127 : Int) + 0 - 0 ≤ 127 ∧ (127 : Int) < 127 + 1 - 0 ∧ (0 : Int) + 0 - 1 < 0 :=
  ⟨{ res := (List.range 10).map (fun k => modN (-3) (modulus k)), wit := 0, drops := 0 }, by decide, by decide, by decide,
   by decide, by decide, by decide, by decide⟩

/-- A plain copy of one row of 32 bytes from 0x10000 to the scratch window. -/
def slice (party : Party) (bad : Nat) : Slice :=
  ⟨party, BitVec.ofNat 512 (0x10000 + 0x10000000 <<< 64 + 1 <<< 192 + 32 <<< 224 + bad <<< 482)⟩

def copy (party : Party) (bad : Nat) (err : Nat) (landed : Bool) : Copy :=
  ⟨30, 1, 0, true, 15, 1, [slice party bad], 1, false, [0], [], [], 0, false, err, landed, false, none⟩

def copying (bad err : Nat) (landed : Bool) : State := ask { at_ 0 with copies := [copy (partyOf (at_ 0)) bad err landed] } [30] [] []

theorem witness_CopyEvents_row :
    (copying 0 0 false).reqs = [] ∧ (copying 0 0 false).latent = [] ∧ (copying 0 0 false).remap = none ∧ (copying 0 0 false).lost = [] ∧
    (copying 0 0 false).copies.find? (fun c => c.id == 30) = some (copy (partyOf (at_ 0)) 0 0 false) ∧
    (copying 0 0 false).inp.a[2]? = none ∧ (copying 0 0 false).inp.data = [] ∧ (0 : Nat).testBit 0 = false ∧
    headCopy (copying 0 0 false) 0 = some (copy (partyOf (at_ 0)) 0 0 false) ∧ validate [slice (partyOf (at_ 0)) 0] = 0 ∧
    validate [slice (partyOf (at_ 0)) 1] ≠ 0 ∧ (slice (partyOf (at_ 0)) 0).conv = 0 ∧ 0 < (slice (partyOf (at_ 0)) 0).rows ∧
    (slice (partyOf (at_ 0)) 0).rowBytes = 32 ∧
    ∃ l u, engRange (copying 0 0 false) (partyOf (at_ 0)) .rd 0x10000 32 = .ok l u ∧
      (l.map (fun p => (p.len, p.pr, p.loc)) = [(32, false, 0x30000)] &&
        eGot (engRange u (partyOf (at_ 0)) .wr 0x10000000 32) (fun l _ => match l with
          | [q] => decide (q.len = 32) && mine q.loc && decide (q.loc % 32 + q.len ≤ 32)
          | _ => false)) = true :=
  ⟨rfl, rfl, rfl, rfl, by decide +kernel, rfl, rfl, rfl, by decide +kernel, by decide +kernel, by decide +kernel, by decide +kernel, by decide +kernel, by decide +kernel, of_eGot (by decide +kernel)⟩

/-- R128, R272: of a row of one sector that lands later nothing has landed yet; the next event lands it. -/
theorem test_copy_lands_later :
    (match exec .copyExecute (ask { at_ 0 with copies := [copy (partyOf (at_ 0)) 0 0 false] } [30] [0] []) with
     | .next t => decide (t.copies.map (fun c => (c.rows, c.todo.length, c.bytes, c.landed)) = [([1], 1, 0, false)]) &&
       (match exec .copyExecute (ask t [30] [] []) with
        | .next u => decide (u.copies.map (fun c => (c.todo.length, c.bytes, c.landed)) = [(0, 32, true)])
        | _ => false)
     | _ => false) = true := by decide +kernel

theorem witness_CopyEvents_ends : creditFits (barGet (copying 0 0 false) 0 0) 32 ∧
    (copying 0 3 true).copies.find? (fun c => c.id == 30) = some (copy (partyOf (at_ 0)) 0 3 true) ∧
    (copying 0 0 true).copies.find? (fun c => c.id == 30) = some (copy (partyOf (at_ 0)) 0 0 true) ∧
    (partyOf (at_ 0)).agent = (copying 0 3 true).cur.id ∧ (copying 0 3 true).cur.kind ≠ .none :=
  ⟨⟨by decide +kernel, by decide +kernel⟩, by decide +kernel, by decide +kernel, by decide +kernel, by decide +kernel⟩

/-- A landed copy whose first slice asks for MMA.CLR on tile t, its operands in the scratch window. -/
def follower (t : Nat) : Copy :=
  ⟨30, 1, 0, true, 15, 1, [⟨partyOf (at_ 0), BitVec.ofNat 512
    ((0x46000008 + t <<< 22) <<< 256 + 0x10000000 <<< 288 + 0x10008000 <<< 352 + 1 <<< 471)⟩], 1, true, [0], [], [], 0, false, 0, true, true, none⟩

theorem witness_CopyEvents_follow :
    (∀ t ∈ [1, 7], let s := ask { at_ 0 with copies := [follower t] } [30] [] []
      s.copies.find? (fun c => c.id == 30) = some (follower t) ∧ (follower t).first.isSome = true ∧
      (follower t).first.map (fun y => fld y.mmaw 24 22) = some t ∧ (follower t).first.map (fun y => fld y.mmaw 3 3) = some 1) ∧
    ∃ a b u, mmaCheck (at_ 0) (partyOf (at_ 0)) 0 0 0 0x10000000 0x10008000 = .ok a b u := ⟨by decide +kernel, of_taken (by decide +kernel)⟩

theorem witness_CopyEvents_lane :
    let a : Acc := { acc 0x30010 true 0 with size := 16 }
    let b : Acc := { acc (3 * 2 ^ 52) false 0 with size := 16 }
    let c : CplOp := ⟨40, partyOf demo, 3, 0, [(a, b)]⟩
    let s := ask { demo with cpls := [c] } [40] [] []
    s.cpls.find? (fun c => c.id == 40) = some c ∧ c.party.agent = s.cur.id ∧ locClass a.loc ≠ 2 ∧ mine b.loc = true ∧
    b.loc % 32 + 16 ≤ 32 ∧ rdTags s a.coh a.loc 16 = none := by decide

/-- A core's stream of one operation of the sheaf. -/
def stream (k : TileKind) (started : Bool) : State :=
  ask { demo with tileOps := [⟨50, partyOf demo, 0, 1, k, started, none⟩], tiles := [(1, { Tile.clear 0 with poison := true })] }
    (if started then [50] else [0]) [] []

def noOpnd : Operand := ⟨0, [], 0, 0, none, false, []⟩

theorem witness_TileAndProgramEvents :
    (∀ k ∈ [TileKind.aclr (-5), .chinj 9 4095 255, .mma true 2 noOpnd noOpnd, .mma false 0 noOpnd noOpnd,
        .adrn 0x10000000 0 0 15 Bound.zero { Drain.zero with next := 4096 }],
      (let s := stream k false
       s.reqs = [] ∧ s.latent = [] ∧ s.remap = none ∧ s.tileOps = [⟨50, partyOf demo, 0, 1, k, false, none⟩] ∧ s.inp.a.getD 0 0 = 0) ∧
      (let s := stream k true
       startedOp s 50 = some ⟨50, partyOf demo, 0, 1, k, true, none⟩ ∧ (partyOf demo).agent = s.cur.id ∧
       thresherBusy s ⟨50, partyOf demo, 0, 1, k, true, none⟩ = false ∧
       (smGet Elem.zero (tileGet s 0 1).elems 4095).res.length = 10)) ∧
    (∀ mat ∈ [true, false], let f : ForkEnt := ⟨0, mat, 1, 1, 0x2000, [(1, 5)], 0, 1, 2, false, []⟩
      let s := ask { demo with forkQ := [f] } [0, if mat then 0 else 1] [] []
      s.forkQ.find? (fun f => f.core == 0 && f.mat == mat) = some f ∧ seqBusy s 0 mat = false ∧ findStook s 1 = some stk) := by decide

/-- A counter of a sketch whose descriptor lies at 0x30000. -/
def counter : Acc := { acc 0x30080 true 5 with size := 4 }

/-- A sketch of 2^4 columns and three rows, its table at 0x10080. -/
def table : Sketch := ⟨0x10000, 0x30000, true, 0x10080, 4, 3, 0, 0, false, false⟩

theorem witness_SketchEvents_requests :
    (let r := flying (.sketch true 0x30000 true) .none counter
     let s := ask { demo with reqs := [r] } [20] [] []
     s.latent = [] ∧ s.remap = none ∧ s.lost = [] ∧ s.cur.kind ≠ .none ∧ s.reqs.find? (fun r => r.id == 20) = some r ∧ mine counter.loc = true ∧
     counter.loc % 32 + 4 ≤ 32 ∧ rdTag s true counter.loc = none ∧ mine (0x30000 + 10) = true ∧ 0x30000 % 32 = 0 ∧
     ¬(counter.loc ≤ 0x30000 + 10 ∧ 0x30000 + 10 < counter.loc + counter.size)) ∧
    (let z : Nat → Acc := fun j => { counter with lane := 63 * 8 + j, loc := 0x30080 + 64 * j }
     let r : Req := ⟨20, 1, 1, 0, false, .query 3 0 0 0 0 0, .vreg 63 4 false, [z 0, z 1, z 2], false, none, true, 0, 0, 0, 0, []⟩
     let s := ask { demo with reqs := [r] } [20, 0] [] []
     s.reqs.find? (fun r => r.id == 20) = some r ∧ (z 0).lane = 63 * 8 ∧ (z 1).lane = 63 * 8 + 1 ∧ (z 2).lane = 63 * 8 + 2 ∧
     (∀ q ∈ [z 0, z 1, z 2], (q.size = 2 ∨ q.size = 4) ∧ locClass q.loc ≠ 2 ∧ locClass q.loc ≠ 6 ∧ q.pr = false ∧
       rdTags s q.coh q.loc q.size = none)) := by decide

theorem witness_SketchEvents_operation : ∀ p ∈ [(1, 47), (2, 0)],
    let o : SkOp := ⟨60, partyOf (at_ 0), p.1, table, none, 3, 0, p.2, false, 0, none⟩
    let s := ask { at_ 0 with skops := [o] } [60] [] []
    s.skops.find? (fun o => o.id == 60) = some o ∧ s.reqs = [] ∧ (o.done + 1 = o.dst.count ↔ p.1 = 1) ∧ mine (o.dst.loc + 10) = true ∧
    o.dst.loc % 32 = 0 ∧ o.flight = false ∧ o.src = none ∧ eGot (engPiece s o.party .at (o.dst.base + wd (o.done * o.dst.size)) o.dst.size) (fun q _ => skHome q.loc q.coh &&
      mine q.loc && decide (q.loc % 32 + o.dst.size ≤ 32) && !q.pr && (rdTag s q.coh q.loc).isNone &&
      decide (¬(q.loc ≤ o.dst.loc + 10 ∧ o.dst.loc + 10 < q.loc + o.dst.size))) = true := by decide

/-! ### Witnesses: reliability and the links (11, 17, 21, 26) -/

theorem witness_ReliabilityEvents_windows :
    (127 ≤ 127 ∧ ¬(108 ≤ 127 ∧ 127 ≤ 111) ∧ (108 ≤ 111 ∧ 111 ≤ 111)) ∧
    (let s := ask { demo with time := 10000000000, rowWin := [(31 * 2 ^ 40 + 5, 32)] } [31, 5] [] []
     let len := fld (smGet 0 s.wcfg 31).toNat 63 32 * 1000000
     0 < len ∧ smGet 0 s.winAt 31 + len ≤ s.time ∧ (31 * 2 ^ 40 + 5) ∉ s.rowRetired ∧ fld (smGet 0 s.wcfg 31).toNat 15 0 ≠ 0 ∧
     fld (smGet 0 s.wcfg 31).toNat 15 0 ≤ smGet 0 s.rowWin (31 * 2 ^ 40 + 5)) ∧
    (let s := ask { demo with rowWin := [(retrainKey 31 7, 16)] } [31, 7] [] []
     (portGet s 31).retired.getLsbD 7 = false ∧ fld (smGet 0 s.wcfg 127).toNat 15 0 ≠ 0 ∧
     fld (smGet 0 s.wcfg 127).toNat 15 0 ≤ smGet 0 s.rowWin (retrainKey 31 7) ∧ (portGet s 31).retired ||| wl 7 ≠ 0xFF) := by decide

theorem witness_ReliabilityEvents_dies :
    (let s := ask { demo with dieWin := [(32 + 9, 1)] } [9] [] []
     dieDeclared s 9 = true ∧ s.remap = none ∧ (List.range 10).find? (fun k => s.chmap.getD k 0 == 9) = some 9 ∧ s.chmap.getD 10 15 ≠ 15 ∧
     ({ s with chmap := s.chmap.set 10 15 } : State).chmap.getD 10 15 = 15 ∧ dieDeclared s 8 = false) ∧
    (let s := ask { demo with remap := some ⟨9, 9, false⟩,
                              tiles := [(1, { Tile.clear 0 with elems := [(4095, ⟨(List.range 10).map (fun k => modN 5 (modulus k)), false, 24⟩)] })] } [1] [] []
     s.remap = some ⟨9, 9, false⟩ ∧ s.tileOps = [] ∧ smWf (Tile.clear 0) s.tiles = true ∧ smWf Elem.zero (tileGet s 0 1).elems = true ∧
     (smGet Elem.zero (tileGet s 0 1).elems 4095).res.length = 10 ∧ 9 ∈ modeChans 0 ∧ inRange 0 5 = true ∧
     ∀ c ∈ modeChans 0, c ≠ 9 → (smGet Elem.zero (tileGet s 0 1).elems 4095).res.getD c 0 = modN 5 (modulus c)) := by decide

/-- Port 31 up, in a state that the rest of the update gives. -/
def linkedAt (n : Nat) (f : Port → Port) (a data tags : List Nat) : State :=
  ask { demo with ports := [(n, f { Port.reset with st := 2, speed := 3 })] } (n :: a) data tags

def linked (f : Port → Port) (a data tags : List Nat) : State := linkedAt 31 f a data tags

/-- A flit of a code, from its SEQ on. -/
def flit (seq typ code : Nat) (body : List Nat) : Flit := ⟨seq, 0, 0, typ, 0, 0, code, false, body, []⟩

/-- A packet of 64 bytes with its header, for port 15. -/
def queuedPacket : Packet := ⟨0, 5, 15, 80, none, 0, 0, [1]⟩

theorem witness_LinkEvents_boundary :
    (let s := linked (fun p => { p with st := 1, ctlq := [flit 0 2 1 [], flit 0 2 3 []] }) [] [] []
     31 < 32 ∧ (portGet s 31).st = 1 ∧ (portGet s 31).ctlq = [flit 0 2 1 []] ++ flit 0 2 3 [] :: [] ∧ ∀ d ∈ [flit 0 2 1 []], d.code ≠ 3) ∧
    (let s := linked (fun p => { p with st := 1, ctlq := [flit 0 2 1 []] }) [] [] []
     (portGet s 31).st ≠ 2 ∧ ¬((portGet s 31).st = 1 ∧ ∃ c ∈ (portGet s 31).ctlq, c.code = 3)) ∧
    (let s := { linkedAt 15 (fun p => { p with park := 0x80, qthr := 0 }) [] [] [] with sent := [queuedPacket] }
     (portGet s 15).st = 2 ∧ (portGet s 15).full = false ∧ (portGet s 15).ctl.getLsbD 2 = true ∧
     (portGet s 15).qthr.toNat < depthOf s 15 (portGet s 15) ∧ (portGet s 15).park ||| (portGet s 15).peerPark ≠ 0) ∧
    (let s := linked (fun p => { p with resend := [flit 4095 2 1 []] }) [] [] []
     (portGet s 31).resend = [flit 4095 2 1 []] ∧ ¬((portGet s 31).qthr.toNat < depthOf s 31 (portGet s 31)) ∧ s.halted = false) ∧
    (let s := linked (fun p => { p with ctlq := [flit 0 2 4 [1]], txSeq := 4095 }) [] [] []
     (portGet s 31).resend = [] ∧ (portGet s 31).ctlq = [flit 0 2 4 [1]] ∧ 4 ≠ 2) ∧
    (∀ r ∈ [0, 0x7F], let s := linked (fun p => { p with retired := r, ctlq := [flit 0 2 2 [7]] }) [] [] []
     (portGet s 31).ctlq = [flit 0 2 2 [7]] ∧ (portGet s 31).active.getLsbD 7 = true ∧ ((portGet s 31).active = wl 7 ↔ r = 0x7F)) ∧
    (let s := linked id [] [] []
     (portGet s 31).resend = [] ∧ (portGet s 31).ctlq = [] ∧ (portGet s 31).carry = none ∧ queueFor s 31 false = [] ∧ queueFor s 31 true = []) ∧
    (let s := { linkedAt 15 (fun p => { p with carry := some ({ queuedPacket with size := 272 }, 232) }) [0] [] [] with sent := [queuedPacket] }
     (portGet s 15).carry = some ({ queuedPacket with size := 272 }, 232) ∧ queueFor s 15 false = [queuedPacket] ∧
     fitting (232 - 40) [queuedPacket] = [queuedPacket]) ∧
    (let s := { linkedAt 15 (fun p => { p with credits := (1, 0) }) [0] [] [] with sent := [queuedPacket] }
     queueFor s 15 false = [queuedPacket] ∧ 1 ≤ queuedPacket.size ∧ queuedPacket.size ≤ 232 ∧ 1 ≤ (portGet s 15).credits.1 ∧
     (portGet s 15).carry = none ∧ (portGet s 15).ctlq = [] ∧ (portGet s 15).resend = []) := by decide

/-- The bytes of a received data flit with SEQ 4095, with n of its even-numbered bytes wrong. -/
def arrives (n : Nat) : List Nat :=
  let l := withChecks ([0, 0, 0, 0x10, 0, 0, 0xF0, 0xFF] ++ List.replicate 232 0)
  (List.range 256).map (fun i => if i % 2 = 0 ∧ i < 2 * n then (l.getD i 0).xor 0x55 else l.getD i 0)

/-- What a decoding names as in error, and the SEQ and type that it reads. -/
def readsAs (l : List Nat) : Option (List Nat × Nat × Nat) :=
  (decodeFlit l).map (fun x => (x.2, x.1.getD 6 0 / 16 + x.1.getD 7 0 * 16, x.1.getD 3 0 / 16))

theorem witness_LinkEvents_codes :
    readsAs (arrives 0) = some ([], 4095, 1) ∧ readsAs (arrives 1) = some ([0], 4095, 1) ∧ readsAs (arrives 5) = none :=
  ⟨by decide +kernel, by decide +kernel, by decide +kernel⟩

theorem witness_LinkEvents_received :
    (∀ q ∈ [4095, 3], let s := linked (fun p => { p with rxSeq := q, rxNext := 0xFF }) [] (arrives 0) []
     7 * s.time / 2 ^ 28 ≤ (portGet s 31).berAt ∧ (portGet s 31).rxSeq = q ∧ (portGet s 31).ber.length = 8 ∧
     (wls (portGet s 31).rxNext)[0 / 32 % (wls (portGet s 31).rxNext).length]? = some 0) ∧
    (let s := linked (fun p => { p with ber := [0, 0, 0, 0, 0, 0, 0, 4096] }) [7] [] []
     (portGet s 31).active.getLsbD 7 = true ∧ asksRetrain (portGet s 31) 7 = false ∧
     (portGet s 31).thr.toNat ≤ (portGet s 31).ber.getD 7 0 ∧ (portGet s 31).ber.getD 6 0 < (portGet s 31).thr.toNat) ∧
    (let s := { linked id [] [] [] with time := 2 ^ 28 }
     (portGet s 31).berAt < 7 * s.time / 2 ^ 28) := by decide +kernel

/-- A load that waits for a peer, its place on port 31's node. -/
def waiting : Acc := ⟨0, 0x10008, 2 * 2 ^ 52 + 5 * 2 ^ 44, false, false, 0, 8, 0, 0, false, false⟩

theorem witness_LinkEvents_retries :
    (let s := linked (fun p => { p with history := [flit 1 0 0 [], flit 0 1 0 [3]] }) [0] [] []
     (portGet s 31).history = [flit 1 0 0 [], flit 0 1 0 [3]] ∧ (flit 0 1 0 [3]).seq = 0 ∧ (flit 1 0 0 []).seq ≠ 0 ∧
     ∀ t ∈ (portGet s 31).tries, t.1 ≠ 0) ∧
    (let p0 := portAt demo waiting.loc
     let s := ask { demo with ports := [(p0, { Port.reset with st := 2, tries := [(0, 16)], history := [flit 0 0 0 []] })],
                              reqs := [flying .load (.sreg 63) waiting] } [p0, 0] [] []
     (∃ f ∈ (portGet s p0).history, f.seq = 0) ∧ (portGet s p0).tries.find? (fun t => t.1 == 0) = some (0, 16) ∧ s.reqs = [flying .load (.sreg 63) waiting] ∧ s.xmems = [] ∧
     locClass waiting.loc = 2 ∧ portAt s waiting.loc = s.inp.a.getD 0 0 ∧ (flying .load (.sreg 63) waiting).agent = s.cur.id ∧
     s.cur.kind ≠ .none) ∧
    (let s := linked (fun p => { p with retired := 0x7F }) [7] [] []
     (portGet s 31).active = wl 7 ∧ (portGet s 31).active.getLsbD 6 = false) := by decide

theorem witness_LinkEvents_training :
    let set : TrainSet := ⟨9, 0xF0, [7, 6, 5, 4, 3, 2, 1, 0], 1⟩
    (let s := linked (fun p => { p with st := 1, full := true, training := 0xFF }) [0, 0xFF, 3, 50] [0, 1, 2, 3, 4, 5, 6, 7] []
     (portGet s 31).training ≠ 0 ∧ (portGet s 31).theirs = none ∧ s.inp.a.getD 1 0 = 0) ∧
    (∀ d ∈ [9, 8], let s := linked (fun p => { p with st := 1, full := true, training := 0xFF, own := some set }) [1, 0xF0, 3, d] [] []
     (portGet s 31).own = some set ∧ (portGet s 31).full = true ∧ s.inp.a.getD 1 0 ≠ 0 ∧ (s.inp.a.getD 4 0 = set.digest ↔ d = 9) ∧
     ((portGet s 31).retired &&& ~~~((portGet s 31).training &&& set.mask)) ||| ((portGet s 31).training &&& ~~~set.mask) ≠ 0xFF) ∧
    (let s := linked (fun p => { p with st := 1, full := true, training := 0xFF, own := some { set with mask := 0 } }) [1, 0, 3, 9] [] []
     ((portGet s 31).retired &&& ~~~((portGet s 31).training &&& 0)) ||| ((portGet s 31).training &&& ~~~0) = 0xFF) ∧
    (let s := linked (fun p => { p with training := 0x80, own := some { set with mask := 0x80 } }) [1, 0x80, 3, 9] [] []
     (portGet s 31).own = some { set with mask := 0x80 } ∧ (portGet s 31).full = false ∧ s.inp.a.getD 4 0 = set.digest ∧
     (portGet s 31).rtcnt.length = 8 ∧ (portGet s 31).ber.length = 8 ∧ fld (smGet 0 s.wcfg (112 + 31 / 2)).toNat 15 0 ≠ 0 ∧
     (∀ j, j < 8 → winCount s (112 + 31 / 2) (retrainKey 31 j) + 1 < fld (smGet 0 s.wcfg (112 + 31 / 2)).toNat 15 0) ∧
     (portGet s 31).training &&& 0x80 &&& 0x80 = wl 7 ∧ retrainKey 31 7 ∉ (rollWin s (112 + 31 / 2)).rowRetired ∧
     (let u := { s with wcfg := [(127, 1)] }
      fld (smGet 0 u.wcfg (112 + 31 / 2)).toNat 15 0 ≤ winCount u (112 + 31 / 2) (retrainKey 31 7) + 1)) ∧
    (∀ n ∈ [1, 2], let s := { linked (fun p => { p with training := 0x80, fails := [(7, n)], trainAt := [(7, 5)] }) [7] [] [] with time := 100006 }
     (portGet s 31).full = false ∧ (portGet s 31).training.getLsbD 7 = true ∧ (portGet s 31).training.getLsbD 6 = false ∧
     (∃ t ∈ (portGet s 31).trainAt, t.1 = 7 ∧ t.2 + 100000 < s.time) ∧ (2 ≤ failCount (portGet s 31) 7 ↔ n = 2) ∧
     (portGet s 31).retired ||| wl 7 ≠ 0xFF) ∧
    (let s := { linked (fun p => { p with full := true, st := 1, training := 0xFF, fails := [(8, 2)], trainAt := [(8, 0)] }) [7] [] [] with time := 100001 }
     (portGet s 31).full = true ∧ 2 ≤ failCount (portGet s 31) 8 ∧ (∃ t ∈ (portGet s 31).trainAt, t.1 = 8 ∧ t.2 + 100000 < s.time)) ∧
    (let s := linked (fun p => { p with waking := 0x80, selfAligned := 0x80 }) [0x80] [] []
     (portGet s 31).waking &&& ~~~(portGet s 31).selfAligned = 0) ∧
    (let s := linked (fun p => { p with waking := 0x80 }) [0x80] [] []
     (portGet s 31).waking &&& ~~~(portGet s 31).selfAligned ≠ 0) := by decide

/-- Each case of a beacon's skew on the one rotor port that is up: far and near, ahead and behind. -/
theorem witness_LinkEvents_beacon :
    (∀ p ∈ ([(0, 1000, false), (1000, 1400, false), (1000, 1401, false), (1401, 1000, false), (0, 2501, true), (2501, 0, true)] : List (Nat × Nat × Bool)),
      ∀ k ∈ [0, 1, 2], let s := { linked id [p.2.1] [] [] with time := p.1, sync := k, goodSkews := 3 }
      16 ≤ 31 ∧ 31 < 32 ∧ (portGet s 31).st = 2 ∧ (portGet s 31).fibre = 0 ∧ s.sync = k ∧ 3 ≤ s.goodSkews ∧
      ((widthNs s.grat : Int) < max ((p.1 : Int) - p.2.1) (-((p.1 : Int) - p.2.1)) ↔ p.2.2 = true)) ∧
    (∀ q, 16 ≤ q → q < 32 → q ≠ 31 → (portGet (linked id [0] [] []) q).st ≠ 2) := by
  refine ⟨by decide, ?_⟩
  intro q h1 h2 h3
  have : ∀ q ∈ (List.range 32).filter (fun q => q ≠ 31), (portGet (linked id [0] [] []) q).st ≠ 2 := by decide
  exact this q (by simp [List.mem_filter]; omega)

/-! ### Witnesses: launches, admission, pre-emption (22 to 25) -/

/-- A launch of pool ID 2 at a stage; its record is at 0x10000, its level table at 0x10040 and its header at 0x10080. -/
def launch (st : LStage) : Launch := ⟨2, false, 1, 0, none, true, 0, 0, Header.zero, [], 0, false, 0, 0, 0, 0, none, st, none⟩

/-- Its levels: a width of 16, one sheaf, two stooks. -/
def levels : Nat :=
  16 <<< 32 + (1 + 1 <<< 32) <<< 64 + (2 + 2 <<< 32) <<< 128 + ((List.range 5).map (fun n => 7 <<< (64 * (3 + n)))).sum

def launching (st : LStage) : State :=
  ask { demo with mem := smPutList 0 [] 0x30000 (leBytes 64 (0x10080 + 0x10040 <<< 128) ++ leBytes 64 levels ++ leBytes 64 (0x4000 <<< 64 + 1 <<< 56)),
                  launches := [launch st], tlb := pages,
                  pool := [(1, { PoolRec.free with left := 2, state := 1, budget := 3 }), (2, { PoolRec.free with state := 1, recVa := 0x10000 })] } [2] [] []

theorem witness_LaunchEvents_stages :
    (∀ st ∈ [LStage.take, .run, .free], launchOf (launching st) 2 = some (launch st) ∧ (launch st).park = none ∧ (launch st).read_ = none ∧ (launch st).hostQ = none ∧
      (∀ m ∈ (launching st).launches, m.cont = false) ∧ (launching st).halted = false) ∧
    (smGet none (ask demo [1, 15, 4] [] []).ctxs 1 ≠ none ∧ 15 < 16 ∧ (lqGet demo (1 * 16 + 15)).due = false ∧ smGet none demo.ctxs 2 = none) := by
  decide

theorem witness_LaunchEvents_take : ∃ r s1, partRead (launching .take) (launchWho (launching .take) (launch .take))
      (poolGet (launching .take) 2).recVa 64 = .ok r s1 ∧
    pGot (partRead s1 (launchWho (launching .take) (launch .take)) (wd (fld r 191 128)) 64) (fun lev s2 =>
      pGot (readHeader s2 (launchWho (launching .take) (launch .take)) (wd (fld r 63 0))) (fun h s3 =>
        let p := { poolGet s3 2 with sys := fld r 419 419 = 1 }
        let l := { launch .take with compl := wd (fld r 255 192), parent := wd (fld r 319 256), coop := fld r 418 418 = 1,
                                     prio := fld r 417 416, hdr := h.2, levels := levelsOf lev }
        s3.launches.all (fun m => !m.cont) && decide (launchOf s3 2 = some (launch .take)) &&
        decide (launchCode (poolPut s3 2 p) l (poolGet (launching .take) 2).recVa r lev h.1 = 0) &&
        decide (groupExtents (levelsOf lev) = []) && decide (stooksOf (levelsOf lev) = 2) && decide (gangUnit (levelsOf lev) = 1) &&
        decide (fld r 418 418 = 0))) = true := of_pGot (by decide +kernel)

/-- The record of one stook of the launch. -/
def record : Rec := ⟨2, 0, 0, 0, 0, 0, false, false, 0, 0x5000, []⟩

theorem witness_AdmissionAndEnd_admit :
    let l := { launch .run with hdr := { Header.zero with barriers := 3, tiles := 2 }, levels := [(0, 16), (1, 1), (2, 2)] }
    let s := ask { demo with recQ := [record], launches := [l] } [0] [] []
    headUnit s 0 = [record] ∧ launchOf s 2 = some l ∧ record.restart = [] ∧ s.halted = false ∧
    (match placeStep s false false l.hdr l.levels (withKernels s l [record]) with
     | some [(core, h, k)] => decide (h = record) && decide (k.nSheaf ≤ (freeSlotNos s core).length) && decide (k.nBar = 3)
     | _ => false) = true ∧ headUnit s 1 = [] := by decide +kernel

theorem witness_AdmissionAndEnd_end : ∀ left ∈ [1, 2],
    let s := ask { demo with cur := { sheaf with ended := true }, launches := [{ launch .run with pool := 1 }],
                             pool := [(1, { PoolRec.free with left := left, state := 1 })] } [1] [] []
    findStook s 1 = some stk ∧ stookQuiet s stk = true ∧ stk.pre.stage ≠ 3 ∧ (launchOf s 1).map (·.cont) = some false ∧
    (poolGet s 1).left = left ∧ (∀ m ∈ s.launches, m.cont = false) ∧ (launchOf s 1).map (fun l => (l.compl, l.parent, l.hostQ)) = some (0, 0, none) := by
  decide

/-- A second sheaf of the stook, ready and pending since t. -/
def pending (t : Nat) : Agent := { sheaf with id := 2, slotNo := 1, hx1 := 1, active := false, since := t }

theorem witness_SheafSetsAndPreemption_sets :
    (let a : Agent := { sheaf with pri := { sheaf.pri with wait := .queue 0 } }
     let s := ask { demo with cur := a, agents := [pending 0], stalls := [⟨1, false, 0, true⟩], time := 36 } [1] [] []
     findAgent s 1 = some a ∧ sheafReady s a = false ∧ longWaiting s a = true ∧ nextPending s 0 = some (pending 0) ∧ findAgent s 2 = some (pending 0)) ∧
    (∀ p ∈ [(1137, false), (1138, true)],
      let s := ask { demo with agents := [pending 0], time := p.1 } [0] [] []
      (allAgents s).filter (fun a => a.core == 0 && !a.active && sheafReady s a) = [pending 0] ∧ activeOn s 0 = [sheaf] ∧
      findAgent s 2 = some (pending 0) ∧ findAgent s 1 = some sheaf ∧ (2048 * 1000 ≤ (s.time - (pending 0).since) * s.mhz ↔ p.2 = true)) := by
  decide

theorem witness_SheafSetsAndPreemption_preempt :
    (let s := ask demo [1, 0] [] []
     findStook s 1 = some stk ∧ stk.abort = none ∧ stk.record.unit = 0 ∧ stk.pre.stage = 0 ∧ (∃ a ∈ sheavesOf s 1, a.ended = false ∧ a.stopPt = none)) ∧
    (let k : Stook := { stk with pre := ⟨1, 0, 0, 0, false⟩, k := { kern with safeTab := 0x10000 } }
     let a : Agent := { sheaf with stopPt := some 1 }
     let s := ask { at_ 0 with stooks := [k], cur := a } [1, 0] [] []
     stoppedAll s k = true ∧ pGot (readSafe k ((sheavesOf s 1).filter (fun a => !a.ended)) s)
       (fun l t => decide (t.stooks = s.stooks) && decide (allAgents t = allAgents s) && decide (l.length = 1)) = true) ∧
    (let k : Stook := { stk with pre := ⟨2, 0, 0, 0, false⟩, record := { stk.record with restart := [(0, 1, 0x3000)] } }
     let s := ask { demo with stooks := [k] } [1, 0] [] []
     savedAll s k = true ∧ (k.record.restart.filter (fun y => ((sheavesOf s 1).filter (fun a => !a.ended)).any (fun a => a.hx1 == y.1))) ≠ []) ∧
    (let k : Stook := { stk with pre := ⟨1, 0, 0, 0, false⟩ }
     let s := ask { demo with stooks := [k], reqs := [flying .load (.sreg 5) (acc 0x30018 true 0)] } [1] [] []
     findStook s 1 = some k ∧ accessesDone s 1 = false ∧ s.time < k.pre.at_ + s.deadline ∧
     k.pre.at_ + s.deadline ≤ { s with time := 200000 }.time ∧ s.calls = []) ∧
    (let p : Susp := ⟨{ stk with id := 9, pre := ⟨3, 0, 0, 0, true⟩, k := { kern with tiles := [2], granules := [4], barBase := 8, nBar := 1, planeN := 0 } },
                      [{ sheaf with id := 8, stook := 9, slotNo := 2 }], [], [], [], [], [], [], [], [], [], []⟩
     let s := ask { demo with suspended := [p] } [9] [] []
     s.suspended.find? (fun p => p.stook.id == 9) = some p ∧ p.stook.record.unit = 0 ∧ fitsBack s p = true) := by decide

/-! ### Witnesses: granaries, other devices and calls (04, 17, 18, 20) -/

/-- An XMEM in flight, and the group that switch 7 knows. -/
def xmem (f : Nat) (a b : Word) : XmemOp := ⟨70, 1, f, a, b, 63, 7, 1, 0, 0, none⟩

def granary (y : XmemOp) (a data : List Nat) : State :=
  ask { demo with xmems := [y], swGroups := [⟨7, 1, 7, [0, 5]⟩], quota := [(quotaKey 7 7, 3)], allocs := [⟨7, 2, 2, 7, 1⟩] } a data []

theorem witness_GranaryEvents_results :
    (∀ y ∈ [xmem 0 7 1, xmem 0 7 2, xmem 0 7 0, xmem 0 8 1, xmem 2 7 0, xmem 1 0x2F70000000400000 0, xmem 1 0x2F70000000000000 0, xmem 1 5 0],
      let s := granary y [7, 0] [70]
      s.reqs.find? (fun r => r.id == 70) = none ∧ s.xmems.find? (fun y => y.id == 70 && y.result.isNone) = some y ∧ s.node = 0 ∧ y.grp ≠ 0) ∧
    (let s := granary (xmem 0 7 1) [7, 0] [70]
     swAccept s 7 s.node 7 1 = true ∧ 7 ∉ s.lost ∧
     ((s.allocs.filter (fun a => a.sw == 7 && a.jobkey == 7)).map (·.n)).sum = 2 ∧ smGet 0 s.quota (quotaKey 7 7) = 3 ∧
     findRun 524288 1 ((s.allocs.filter (fun a => a.sw == 7)).map (fun a => (a.base, a.n))) = some 0 ∧
     findRun 524288 524288 ((s.allocs.filter (fun a => a.sw == 7)).map (fun a => (a.base, a.n))) = none ∧
     swAccept s 7 s.node 8 1 = false) ∧
    (let a := (0x2F7 : Word) <<< 44 ||| 0x400000
     bits ((2 : Word) <<< 52 ||| (247 : Word) <<< 44 ||| 0x400000) 63 52 = 2 ∧ bits ((2 : Word) <<< 52 ||| (247 : Word) <<< 44 ||| 0x400000) 51 44 = 247 ∧
     (granary (xmem 1 a 0) [] []).allocs.find? (fun b => b.sw == 7 && b.base * 2 ^ 21 == 0x400000) = some ⟨7, 2, 2, 7, 1⟩) := by decide

/-- A location of switch 7's allocation. -/
def granLoc : Nat := 2 * 2 ^ 52 + 247 * 2 ^ 44 + 0x400000

theorem witness_GranaryEvents_accesses :
    (let r : Req := flying .load (.sreg 5) (acc granLoc false 0)
     let s := ask { granary (xmem 0 0 0) [] [] with reqs := [r], cur := { sheaf with k := { kern with grp := 1 } } } [7, 0] [70 - 50] []
     s.reqs.find? (fun r => r.id == 20) = some r ∧ waitingWire r (fun n => n == 247) = [acc granLoc false 0] ∧ 7 ∉ s.lost ∧
     granaryOk s granLoc s.node (kernelOf s r.agent).jobkey (kernelOf s r.agent).grp = true ∧
     granaryOk s (granLoc + 2 ^ 22) s.node (kernelOf s r.agent).jobkey (kernelOf s r.agent).grp = false ∧
     waitingWire r (fun _ => true) = [acc granLoc false 0] ∧ 240 ≤ nodeOf granLoc) ∧
    (let s := ask (granary (xmem 0 0 0) [] []) [7, 5] [1, 7, 1, 0x400000] [1, 2]
     granaryOk s granLoc 5 7 1 = true ∧ granaryOk s (granLoc + 2 ^ 22) 5 7 1 = false ∧ granLoc % 32 + s.inp.tags.length ≤ 32 ∧ 5 ≠ s.node) ∧
    (let y := { xmem 0 0 0 with result := some 5 }
     let s := ask { demo with xmems := [y] } [70] [] []
     s.xmems.find? (fun y => y.id == 70) = some y ∧ y.agent = s.cur.id ∧ y.result = some 5 ∧ s.reqs.find? (fun r => r.id == 70) = none) := by
  decide

theorem witness_GranaryEvents_timeouts :
    (∀ t ∈ [9999999, 10000000],
      let r : Req := flying .load (.sreg 5) (acc granLoc false 0)
      let s := ask { granary (xmem 0 0 0) [] [] with reqs := [r], time := t } [20] [] []
      s.reqs.find? (fun r => r.id == 20) = some r ∧ waitingWire r (fun _ => true) = [acc granLoc false 0] ∧ 240 ≤ nodeOf granLoc ∧
      away s 20 247 = true ∧ (r.since + 10000000 ≤ s.time ↔ t = 10000000)) ∧
    (let s := ask (granary (xmem 0 0 0) [] []) [70] [] []
     s.reqs.find? (fun r => r.id == 70) = none ∧ s.xmems.find? (fun y => y.id == 70 && y.result.isNone) = some (xmem 0 0 0) ∧
     (∀ q ∈ s.sent, q.req ≠ some 70)) ∧
    (∀ t ∈ [9999999, 10000000],
      let a : Ask := ⟨60, .op 59 [0], [⟨0x10008, granLoc, false, false, 0, 0, 0, 8⟩], [], 0, 0, false, none⟩
      let s := ask { demo with asks := [a], time := t } [60] [] []
      s.reqs.find? (fun r => r.id == 60) = none ∧ s.xmems.find? (fun y => y.id == 60 && y.result.isNone) = none ∧
      s.calls.find? (fun c => c.id == 60) = none ∧ s.asks.find? (fun b => b.id == 60) = some a ∧ a.dead = false ∧ a.val = none ∧
      s.inp.a.getD 1 0 ≠ 1 ∧ (a.since + 10000000 ≤ s.time ↔ t = 10000000)) ∧
    (7 ∉ demo.lost ∧ demo.reqs = []) := by decide

/-- A group of this device, rank 1, with nodes 5 and 9, over the data page. -/
def member (a data tags : List Nat) : State :=
  ask { demo with groups := [(1, some ⟨7, 1, true, 3, 4, 0x30000, 0x10000, 2, [5, 0, 9]⟩)],
                  swGroups := (List.range 8).map (fun k => ⟨k, 1, 7, [0, 5, 9]⟩) } a data tags

theorem witness_FabricRequests :
    (∀ d ∈ [[8, 7, 1, 0, 64, 0], [0, 7, 1, 32, 64, 0]], 7 < d.getD 0 0 ∨ supported (d.getD 0 0 % 4) (d.getD 4 0) (d.getD 3 0) (d.getD 4 0) (d.getD 5 0) = false) ∧
    (∀ d ∈ [[0, 7, 1, 0xFF00, 256, 0], [1, 7, 1, 0, 64, 2 ^ 64 - 1], [2, 7, 1, 8, 0, 0], [2, 7, 1, 8, 6, 2]],
      supported (d.getD 0 0 % 4) (d.getD 4 0) (d.getD 3 0) (d.getD 4 0) (d.getD 5 0) = true) ∧
    (let s := member [9] [1, 7, 1, 0, 64, 2 ^ 64 - 1] (List.range 64)
     (∀ off ∈ [0, 0xFF00, 8], packetOk s (portFor s s.node off) 9 7 1 = true ∧ packetOk s (portFor s s.node off) 9 8 1 = false) ∧
     supported 0 256 (hbmEnd - 256) 256 0 = true ∧ hbmEnd - 256 + 256 ≤ hbmEnd ∧ hbmEnd < hbmEnd + 256 ∧ devAccept s 8 7 1 = false ∧ (groupFor s 1).map (·.winLen) = some 0x10000 ∧ 64 ≤ s.inp.tags.length ∧
     mine 0x30000 = true ∧ mine 0x30020 = true ∧ rdTags s true 0x30008 8 = none ∧ 0x30008 % 32 + 8 ≤ 32) := by decide

/-- A call of the sheaf on the group: a move of 8 bytes, on its register or, untimed, its barrier. -/
def call_ (num : Nat) (firsts : List Nat) (err : Nat) (paused : Option Nat) (desc : Nat) : Call :=
  ⟨80, partyOf demo, true, 15, 1, BitVec.ofNat 32 num, BitVec.ofNat 512 desc, none, true, firsts, [], false, [], [], 0, [], false, none, 0, false, false, false, paused,
   false, 0, false, err, none⟩

def calling (c : Call) (a data tags : List Nat) : State := { member a data tags with calls := [c] }

/-- An all-gather of two words from 0x10000 to the scratch window. -/
def gather : Nat := 0x10000 + 0x10000000 <<< 64 + 2 <<< 128 + 2 <<< 280 + 1 <<< 290

theorem witness_CollectivePackets_first : ∀ num ∈ [3, 4],
    let s := calling (call_ 3 [2] 0 none (2 <<< 280)) [5, 31] [7, 1, num, 2, 0, 0, 0, 0] []
    packetOk s 31 5 7 1 = true ∧ packetOk s 3 5 7 1 = true ∧ packetOk s 31 5 8 1 = false ∧ (callBy s 1 num).isSome = decide (num = 3) ∧
    (notIssued s 1 num = decide (num = 4)) ∧ (((groupFor s 1).map (·.nodes)).getD []).idxOf 5 = 0 ∧ 0 ∉ (call_ 3 [2] 0 none 0).firsts := by
  decide +kernel

theorem witness_CollectivePackets_contributions :
    (∀ node ∈ [0, 9], let s := calling (call_ 3 [0, 2] 0 none gather) [5, 31] [7, 1, 3, 0, 0, node, 1, 1, 2, 3, 4, 5, 6, 7, 8] []
      packetOk s 31 5 7 1 = true ∧ (s.inp.data.getD 5 0 = s.node ↔ node = 0) ∧ callBy s 1 3 = some (call_ 3 [0, 2] 0 none gather) ∧
      (let c := call_ 3 [0, 2] 0 none gather
       c.err = 0 ∧ 0 ≠ (c.group s).rank ∧ 0 + 8 ≤ (c.part (c.group s).size 0 (c.group s).rank).2)) ∧
    (let s := member [5, 31] [7, 1, 3, 0, 0, 0, 0] []
     callBy s 1 3 = none ∧ callErr s (groupFor s 1) gather = 0) := by decide +kernel

theorem witness_CollectivePackets_pauses : ∀ q ∈ [none, some 5],
    let c := call_ 3 [0, 2] 0 q (2 <<< 280 + 1 <<< 300)
    let s := { calling c [80] [] [] with time := 1000000, grat := ⟨2, 0, 100, [], []⟩ }
    s.calls.find? (fun c => c.id == 80) = some c ∧ c.paused = q ∧ c.timed = true ∧ (c.group s).pbudget = 2 ∧ findStook s c.party.stook ≠ none ∧
    5 + 2 * (s.grat.nslot * (2500 * 2 ^ s.grat.width)) ≤ s.time ∧ 5 + 1000 * 2 ≤ s.time ∧ s.grat.epoch ≤ s.time ∧ 0 < s.grat.nslot := by
  decide +kernel

theorem witness_CollectiveProgress_call :
    (let c := call_ 3 [0, 2] 0 none gather
     let s := { calling c [80] [] [] with tlb := pages }
     s.calls.find? (fun c => c.id == 80) = some c ∧ s.calls.map (fun b => if b.id = c.id then c else b) = s.calls ∧
     findStook s c.party.stook ≠ none ∧ edgeDone s c.party = true ∧ c.matched s = true ∧ c.isHead s = true ∧ c.timed = false ∧ c.op = 2 ∧
     c.announced = true ∧ c.starting = none ∧
     (let y := { c with party := stampIf c.starting.isNone s c.party, starting := some (c.timed && c.starting.getD false) }
      eGot (engRead (putCall s y) y.party c.id [1] .rd (c.src + wd (c.part 3 1 1).1) (c.part 3 1 1).2)
        (fun b _ => decide (b.length = 8)) = true) ∧ ∀ e ∈ s.early, ¬(e.handle = c.handle ∧ e.num = c.num)) ∧
    (∀ timed ∈ [0, 1], let c := { call_ 3 [0, 2] 0 none (gather + timed <<< 300) with
       started := timed = 0, recv := [(2, 0, List.replicate 8 (7, none))], sent := [(0, 8), (2, 8)] }
     let s := { calling c [80] [] [] with tlb := pages }
     s.calls.map (fun b => if b.id = c.id then c else b) = s.calls ∧ edgeDone s c.party = true ∧ c.matched s = true ∧ c.isHead s = true ∧
     (c.started = true ∨ (c.timed = true ∧ c.starting = none)) ∧ c.allSent s = true ∧ c.todo = [] ∧ s.inp.data = [] ∧
     eGot (engRange s c.party .wr (c.dst + wd (c.place 3 2)) 8) (fun l _ => match l with
       | [q] => decide (q.len = 8) && mine q.loc && decide (q.loc % 32 + q.len ≤ 32)
       | _ => false) = true) ∧
    (let c := call_ 3 [0] 4 none gather
     let s := calling c [80] [] []
     c.err ≠ 0 ∧ c.matched s = false ∧ c.isHead s = true ∧ findStook s 1 = some stk ∧ stk.held.length < 16) ∧
    (let c := { call_ 3 [0, 2] 0 none gather with started := true, sent := [(0, 8), (2, 8)], credited := 24 }
     let s := calling c [80] [] []
     c.recv = [] ∧ c.planned 3 ≤ c.credited ∧ c.allSent s = true) ∧
    (let c := call_ 3 [] 0 none (3 <<< 284 + 1 <<< 128)
     c.op = 0 ∧ c.wfmt = 3 ∧ c.rop = 0 ∧ c.count = 1) := by decide +kernel

/-- A timed all-reduce that has started, with 64 bytes of its own, and one quota entry for node 5 by way of it in slot 1. -/
def reducing : State :=
  let c := { call_ 3 [0, 2] 0 none (3 <<< 284 + 16 <<< 128 + 1 <<< 300) with started := true, own := List.replicate 64 (0, none) }
  { calling c [1] [] [] with
    time := 100 + 2500 + 800, sync := 1, slotAt := 100 + 2500 + 1, ports := [(31, { Port.reset with st := 2 })],
    grat := ⟨2, 0, 100, [List.replicate 16 255, List.replicate 15 255 ++ [5]], [7 <<< 64 + 5 <<< 56 + 5 <<< 48 + 1 <<< 42 + 32]⟩ }

theorem witness_CollectiveProgress_slots :
    occNow reducing = some (100 + 2500, 1) ∧ reducing.slotAt = 100 + 2500 + 1 ∧ reducing.slotSent = false ∧ 100 + 2500 + 800 ≤ reducing.time ∧
    reducing.relays = [] ∧ reducing.grat.quota.map quotaEntry = [(7, 5, 5, 1, 0, 32)] ∧ matchedWith reducing 1 5 = true ∧
    (reducing.calls.all (fun c => c.timed && decide (c.party.k.jobkey = 7) && decide (rankAt reducing c 5 = some (0, 5)) && c.started &&
      mayGo reducing c (100 + 2500) && c.folds && decide (0 < min (32 - queuedFor reducing 7 5 5 0) ((c.part 3 1 0).2 - c.sentTo 0)))) = true ∧ reducing.calls.length = 1 ∧
    occNow demo = none := by decide +kernel

/-- A call that passes the checks made at issue. -/
theorem witness_RequestsAndCallsIssued_checks : callErr demo (some ⟨7, 1, true, 3, 0, 0x30000, 0x10000, 0, [5, 0, 9]⟩) gather = 0 ∧ fld gather 283 280 ≠ 5 ∧
    fld (gather + 1 <<< 301) 511 301 ≠ 0 := by decide +kernel

/-! ### Witnesses: the mailbox, power, reset and the host (23, 25, 27) -/

theorem witness_MailboxPowerAndReset :
    (255 ≤ 255 ∧ hbmEnd - 128 + 128 ≤ hbmEnd ∧ hbmEnd < hbmEnd - 127 + 128) ∧
    (let req := 0x1000 + 0x10000 <<< 136 + 0x10 <<< 64 + 0x40000 <<< 192
     fld req 191 136 % 65536 = 0 ∧ fld req 191 136 + fld req 127 64 ≤ hbmEnd ∧ fld req 127 64 ≠ 0) ∧
    (∀ m ∈ [1200, 1300, 1800], 1200 ≤ m ∧ m ≤ 1800 ∧ m % 100 = 0) ∧ demo.power < 2 ∧
    (let s := { State.reset with time := 1000000 }
     idle s = true ∧ s.power < 2 ∧ s.busyAt + 1000000 ≤ s.time) ∧
    (idle { demo with power := 2 } = false) ∧ (demo.halted = false ∧ demo.rbBase + demo.rbLen ≤ hbmEnd) ∧ (ask State.reset [0, 0] [] []).cfgVer = 0 := by decide

theorem witness_HostAccesses :
    (∀ p ∈ [(0, [64]), (1, (List.range 32)), (2, [0, 8, 5]), (2, [2, 4, 5, 6]), (3, []), (4, []), (5, []), (6, []), (7, [5]), (8, [])],
      let s := ask demo [p.1, 0x30000] p.2 []
      s.latent = [] ∧ s.bootFail = false ∧ s.inp.a.getD 0 0 = p.1) ∧ 0x30000 + 64 ≤ hbmEnd ∧ hbmEnd < (hbmEnd - 63) + 64 ∧
    rdTags demo true 0x30000 8 = none ∧ 0x30000 % 32 = 0 ∧ locClass (2 ^ 52 + 0x1234) = 1 := by decide

/-! ### Witnesses: words (02) -/

theorem witness_DecodeInvertsEncode : (Instr.sliw 7 (-1)).WellFormed = true ∧ encode (.sliw 7 (-1)) ≠ [] ∧
    (Instr.trap 0).WellFormed = true ∧ encode (.trap 0) ≠ [] := by decide

theorem witness_EncodeInvertsDecode : 0x16380000 < 2 ^ 32 ∧ 0xFFFFFFFF < 2 ^ 32 ∧ decodeWord 0x16380000 0xFFFFFFFF = .ok (.sliw 7 (-1)) ∧
    decodeWord 0 0xFFFFFFFF = .ok (.trap 0) :=
  ⟨by decide, by decide, rfl, rfl⟩

theorem witness_SpecWordsDecode : fld 0x4C000000 31 25 = 0x26 ∧ fld 0xDE000000 31 25 = 0x6F ∧ fld 0xFFFFFFFF 31 25 = 0x7F := by decide

/-- R98, R104: a walk that reads a table sector with an uncorrectable error detects it, and the access parks under KIND 4. -/
theorem test_walk_detects_error :
    let s := { at_ 0x20000 with tlb := [], latent := [(ctx1.root.toNat / 32, 2)] }
    translate s (whoOf s.cur) 0x20000 = .bad 4 0 0 ∧
    (parkSlot s 1 0x20000 4 0 0 0).latent = [] ∧ (parkSlot s 1 0x20000 4 0 0 0).faults.map (·.kind) = [4] ∧
    (rdTags (parkSlot s 1 0x20000 4 0 0 0) true ctx1.root.toNat 8).isSome = true := by decide

theorem witness_Branches_words : fld 0x21FFFFFF 31 25 = 0x10 ∧ fld 0x22000001 31 25 = 0x11 ∧ (fld 0x24002000 31 25 = 0x12 ∧ fld 0x24002000 24 19 = 0) ∧
    (fld 0x2607E000 31 25 = 0x13 ∧ fld 0x2607E000 24 19 = 0) ∧ (fld 0x28A00000 31 25 = 0x14 ∧ fld 0x28A00000 24 21 = 5) ∧
    (fld 0x28C00000 31 25 = 0x14 ∧ fld 0x28C00000 24 21 = 6) := by decide

theorem witness_SortingAndMerging_words : (fld 0xB2040200 31 25 = 0x59 ∧ fld 0xB2040200 8 0 = 0) ∧ (fld 0xB4040200 31 25 = 0x5A ∧ fld 0xB4040200 8 0 = 0) ∧
    (fld 0xB6040202 31 25 = 0x5B ∧ fld 0xB6040202 0 0 = 0) ∧ (fld 0xB8040202 31 25 = 0x5C ∧ fld 0xB8040202 0 0 = 0) ∧
    (fld 0xBA040202 31 25 = 0x5D ∧ fld 0xBA040202 0 0 = 0) := by decide

/-! ### Witnesses: further forms of the same statements -/

theorem witness_StepRunsDecodedInstruction_caches : demo.cached.length ≤ cachedCap := by decide

theorem witness_UnhandledTraps_subset : program.cur.kind = .copySeq ∧ canIssue program = true ∧ Instr.rft.WellFormed = true ∧
    (encode .rft).head? = some 0x34800000 ∧ engineWord 0x34800000 = false ∧ engineWord 0x34000000 = false := by decide

theorem witness_ScalarOperations_program :
    let s := { program with cur := { program.cur with s := [(1, 7)], md := 0x4000 } }
    ready { sr := [1, 2], sw := [3], eng := true } s = true ∧ getS s 2 = 0 ∧ s.cur.md.getLsbD 14 = true ∧ s.cur.kind ≠ .sheaf := by decide

/-- Lanes 0 and 31 hold one address in V2 and V3. -/
def two_ (et : Nat) : State :=
  { one_ et with cur := { (one_ et).cur with
    pri := { Slot.free with live := true, pc := 0x1000, mask := 0x80000001 },
    v := [(vkey 2 0, 0x10008), (vkey 4 0, 9), (vkey 2 31, 0x10008), (vkey 4 31, 7)] } }

theorem witness_Atomics_lanes : ∀ et ∈ [0, 3], calm (two_ et) ∧ activeLanes (two_ et) = [0, 31] ∧ ∃ l u,
    checkAccs (two_ et) (whoOf (two_ et).cur) .at (atSize et) (atSize et) ((activeLanes (two_ et)).map (atLane (two_ et) et 62 2 4))
      (atLimit .add et) = .ok l u ∧
    ∀ x ∈ l, (mine x.1.loc && decide (x.1.loc % 32 + atSize et ≤ 32) && !x.1.pr && x.1.coh && (rdTags (two_ et) true x.1.loc (atSize et)).isNone) = true := by
  intro et h
  simp only [List.mem_cons, List.not_mem_nil, or_false] at h
  rcases h with rfl | rfl <;>
    exact ⟨⟨rfl, rfl, rfl, rfl, rfl, rfl, rfl⟩, by decide, of_passes (by decide)⟩

theorem witness_Atomics_combined :
    let x : Acc := { acc granLoc false 3 with lane := 2, size := 4 }
    let y : Acc := { x with lane := 9, data := 5 }
    let r := flying (.atomic AtOp.add.code 0) (.vreg 62 4 false) x
    AtOp.add.code ≤ 5 ∧
    (wired { r with accs := [x, y] }).filter (fun b => b.loc == x.loc) = [] ++ x :: [y] ∧
    (wired { r with accs := [x, y] }).filter (fun b => b.loc == x.loc) = [x] ++ y :: [] ∧
    wireAccs r.op (wired { r with accs := [x, y] }) = [{ x with data := 8 }] := by decide

theorem witness_CacheMaintenance_uncached : ready { sr := [1], sys := true, cls := some .st } (at_ 0x10000000) = true ∧
    ready { sr := [1], cls := some .st } (at_ 0x10000000) = true ∧ calm (at_ 0x10000000) ∧
    getS (at_ 0x10000000) 1 = 0x10000000 := ⟨by decide, by decide, ⟨rfl, rfl, rfl, rfl, rfl, rfl, rfl⟩, by decide⟩

/-- Lanes 0 and 31 with ranks in V2 and offsets in V4 and V5. -/
def remotes (r0 r1 : Lane) (o0 o1 : Lane) (et : Nat) : State :=
  { grouped 0 with cur := { (two_ et).cur with v := [(vkey 2 0, r0), (vkey 4 0, o0), (vkey 2 31, r1), (vkey 4 31, o1)], k := { kern with grp := 1 } } }

theorem witness_RemoteAccesses_lanes :
    (let s := remotes 1 0 0x100 0x20 4
     etOf s = 4 ∧ activeLanes s = [0, 31] ∧ devAccept s s.node s.cur.k.jobkey s.cur.k.grp = true ∧
     ready { vr := [2, 4, 5], vw := [6], cls := some .ld } s = true ∧ ready { vr := [2, 4, 5, 6], vw := [], cls := some .st } s = true ∧
     (groupFor s 1).map (fun g => (g.winLen, g.nodes.getD 1 9, g.nodes.getD 0 9)) = some (0x10000, s.node, 5) ∧
     (∀ n ∈ [5, 0, 9], n < 240) ∧ mine (0x30000 + 0x100) = true ∧ (0x30000 + 0x100) % 32 + 2 ≤ 32 ∧ rdTags s true (0x30000 + 0x100) 2 = none) ∧
    (let s := remotes 1 1 0x100 0x101 6
     etOf s = 6 ∧ mine (0x30000 + 0x101) = true ∧ (0x30000 + 0x101) % 32 + 1 ≤ 32 ∧ rdTags s true (0x30000 + 0x101) 1 = none ∧
     ready { vr := [2, 4, 5], vw := [6], cls := some .ld } s = true) ∧
    (let s := remotes 3 1 0 0x10000 0
     [0, 31].filter (fun l => decide (3 ≤ (getV s 2 l).toNat) || decide (0x10000 < (getV2 s 4 l).toNat + 4)) = [0, 31] ∧
     (getV2 s 4 0).toNat % 4 = 0 ∧ (getV2 s 4 31).toNat % 4 = 0) ∧
    (let s := remotes 0 0 0 1 0
     [0, 31].filter (fun l => (getV2 s 4 l).toNat % 4 ≠ 0) = [31]) ∧
    (let s := { remotes 1 1 0 0x20 0 with cur := { (remotes 1 1 0 0x20 0).cur with k := { kern with grp := 1, jobkey := 8 } } }
     devAccept s s.node s.cur.k.jobkey s.cur.k.grp = false ∧ (groupFor s 1).isSome = true) := by decide

theorem witness_MemoryEvents_more :
    (let a := acc (2 * 2 ^ 52 + 239 * 2 ^ 44) false 0
     let s := ask { demo with reqs := [flying .load (.sreg 63) a] } [20] [5] [2 ^ 13]
     away s 20 (nodeOf a.loc) = true ∧ s.inp.tags.getD 0 0 = 2 ^ 13) ∧
    (let s := { demo with pins := [⟨3, 0x30000, [(1, 1)], true⟩], cached := [(0x30000 / 32, some ⟨9, none, true⟩)] }
     (smGet none s.cached (0x30000 / 32)).any (·.dirty) = true ∧ rdByte s true 0x30000 = 9 ∧ rdByte s false 0x30000 = 0) := by decide

theorem witness_EngineEvents_calm :
    (copying 0 0 false).asks = [] ∧ (copy (partyOf (at_ 0)) 0 0 false).todo = [] ∧ (copy (partyOf (at_ 0)) 0 0 false).park = none ∧
    (copy (partyOf (at_ 0)) 0 0 false).got = [] ∧ (follower 1).park = none ∧ (stream (.aclr (-5)) false).asks = [] ∧
    (stream (.aclr (-5)) true).asks = [] := by decide +kernel

theorem witness_ReliabilityEvents_power : demo.power ≠ 2 ∧ demo.bootFail = false ∧ ({ demo with power := 2 } : State).power = 2 ∧
    ({ demo with bootFail := true } : State).bootFail = true := by decide

theorem witness_FabricRequests_pa : ∀ d ∈ [[4, 0, 0, 0x30000, 64, 0], [5, 0, 0, 0x30000, 64, 2 ^ 64 - 1], [6, 0, 0, 0x30000, 6, 2], [6, 0, 0, 0x30000, 0, 0]],
    let s := member [9] d (List.range 64)
    let size := if d.getD 0 0 % 4 = 2 then atSize (d.getD 5 0) else d.getD 4 0
    4 ≤ d.getD 0 0 ∧ d.getD 0 0 < 7 ∧ supported (d.getD 0 0 % 4) (d.getD 4 0) (d.getD 3 0) (d.getD 4 0) (d.getD 5 0) = true ∧
    d.getD 3 0 + size ≤ hbmEnd ∧ mine (d.getD 3 0) = true ∧ mine (d.getD 3 0 + 32) = true ∧ locClass (d.getD 3 0) ≠ 1 ∧ d.getD 3 0 % 32 = 0 ∧
    rdTags s true (d.getD 3 0) 8 = none := by decide

theorem witness_CollectivePackets_relays : ∀ n ∈ [0, 1],
    let r : Relay := ⟨9, 1, []⟩
    let s := { member [5, 31] [7, 1, 3, 0, 0, 9, 1] [] with relays := List.replicate (n * (Config.relayBuffers 1 + 1)) r }
    packetOk s 31 5 7 1 = true ∧ 9 ≠ s.node ∧ (n = 0 → (s.relays.filter (fun r => r.slot = 1)).length ≤ Config.relayBuffers 1) ∧
    (n = 1 → Config.relayBuffers 1 < (s.relays.filter (fun r => r.slot = 1)).length) := by
  intro n h
  simp only [List.mem_cons, List.not_mem_nil, or_false] at h
  rcases h with rfl | rfl
  · exact ⟨by decide, by decide, fun _ => by simp, by simp⟩
  · refine ⟨rfl, by decide, by simp, fun _ => ?_⟩
    simp

theorem witness_MailboxPowerAndReset_boot :
    chmapOf 0xA9876543211 = none ∧ chmapOf 0xA9876543210 = some [0, 1, 2, 3, 4, 5, 6, 7, 8, 9, 10] ∧ demo.bootFail = false ∧
    (spillAll demo).stooks.any (fun k => partAsking (spillAll demo) [2, k.id]) = false ∧
    (let a : Ask := ⟨60, .op 59 [0], [], [], 0, 0, false, none⟩
     partAsking { demo with asks := [a] } [2, 1] = false) ∧ ¬(0 < demo.cfgVer) := by decide +kernel

theorem witness_HostAccesses_registers :
    (∀ c ∈ [0x200, 0x201, 0x1000, 0x13E0, 0x1800], deviceCreg c = true) ∧ deviceCreg 0x210 = false ∧ deviceCreg 0x30 = false ∧
    demo.remap = none ∧ (∀ n, n < 11 → dieDeclared demo n = false) ∧ (wd 0xA9876543210).toNat = chmapWord demo.chmap ∧
    oneMove demo 0xFA876543210 = some 9 ∧ oneMove demo 0xFA876543201 = none ∧
    (writeLink (portNow demo 0) 0 2 0xFE).isSome = true ∧ (writeLink (portNow demo 0) 0 2 0xFF).isNone = true := by decide

end Sys2Proof.Tests
end

section
/-!
PROOFS. Registers and lanes (R22 to R24, R27, R43 step 5): reads after writes of S and M registers, the lanes that take part in
an instruction, and the check of V register numbers that comes before an instruction's own rule.
-/
namespace Sys2Proof.Machine

open Sys2Proof

/-! ### Bits of masks -/

theorem bit_and (x y : Word) (l : Nat) : bit (x &&& y) l = (bit x l && bit y l) := BitVec.getLsbD_and

theorem bit_xor (x y : Word) (l : Nat) : bit (x ^^^ y) l = (bit x l ^^ bit y l) := BitVec.getLsbD_xor

/-! ### Mask registers (R24) -/

/-- An M register reads zero at and above bit W: a listed value is cut by the lanes that exist, and M0 is those lanes. -/
theorem bit_getM_beyond (s : State) (n l : Nat) (hw : wOf s ≤ l) (hl : l < 64) : bit (getM s n) l = false := by
  have hall : bit (allLanes (wOf s)) l = false := by simp [bit_allLanes _ _ hl, hw]
  by_cases hn : n = 0
  · rw [hn, getM_zero, hall]
  · have hget : getM s n = smGet 0 s.cur.m n &&& allLanes (wOf s) := if_neg hn
    rw [hget, bit_and, hall, Bool.and_false]

/-- An M register other than M0 reads what was written, cut to the lanes that exist. -/
theorem getM_setM_same (s : State) (n : Nat) (v : Word) (hn : n ≠ 0) : getM (setM s n v) n = v &&& allLanes (wOf s) := by
  have hset : getM (setM s n v) n = (v &&& allLanes (wOf s)) &&& allLanes (wOf s) := by
    simp only [getM, getMA, setM, hn, if_false, smGet_smPut_same]; rfl
  rw [hset, BitVec.and_assoc, BitVec.and_self]

/-- Below W, a mask cut to the lanes that exist keeps its bits. -/
theorem bit_and_allLanes (v : Word) (w l : Nat) (hw : l < w) (hl : l < 64) : bit (v &&& allLanes w) l = bit v l := by
  simp [bit_and, bit_allLanes w l hl, hw]

/-! ### The active lanes (R27) -/

/-- The guard of a lane that exists is the guard register's bit, negated under MD.GN. -/
theorem bit_guardOf (s : State) (l : Nat) (hw : l < wOf s) :
    bit (guardOf s) l = (bit (getM s (fld s.cur.md.toNat 3 0)) l != s.cur.md.getLsbD 4) := by
  have hl : l < 64 := Nat.lt_of_lt_of_le hw (wOf_le s)
  unfold guardOf
  cases hgn : s.cur.md.getLsbD 4 with
  | false => simp
  | true => simp [bit_xor, bit_allLanes _ _ hl, hw]

/-- A lane is active where it exists, the slot's mask holds it and the guard lets it through. -/
theorem mem_activeLanes (s : State) (l : Nat) :
    l ∈ activeLanes s ↔ l < wOf s ∧ bit (slotOf s).mask l = true ∧
      (bit (getM s (fld s.cur.md.toNat 3 0)) l != s.cur.md.getLsbD 4) = true := by
  unfold activeLanes activeOf
  rw [List.mem_filter, List.mem_range, bit_and, Bool.and_eq_true]
  exact and_congr_right fun hw => by rw [bit_guardOf s l hw]

/-! ### V registers beyond the count (R22, R43 step 5) -/

/-- Where nothing but a V register's number holds an instruction back, the checks answer ILLEGAL. The number is checked
before the scoreboard (R43), so no pending V register matters. -/
theorem precheck_vreg_beyond {i : Instr} {u : Use} {s : State} (h : ready { u with vr := [], vw := [] } s = true)
    (hp : poisonHit (slotOf s) u = none) (hv : ∃ n ∈ u.vr ++ u.vw, s.cur.k.vregs ≤ n) :
    precheck i u s = some (illegal s i) := by
  have hc := ready_canIssue h
  have hw := ready_wait h
  have hpriv : ¬ (u.sys = true ∧ s.cur.priv = false) := by
    simp only [ready, Bool.and_eq_true, Bool.or_eq_true, Bool.not_eq_true'] at h
    obtain ⟨⟨⟨⟨_, hs⟩, _⟩, _⟩, _⟩ := h
    rcases hs with hs | hs <;> simp [hs]
  have hreg : (u.vr.any (fun n => decide (s.cur.k.vregs ≤ n)) ||
      u.vw.any (fun n => decide (s.cur.k.vregs ≤ n))) = true := by
    rw [← List.any_append]
    simpa only [List.any_eq_true, decide_eq_true_eq] using hv
  simp [precheck, hc, hw, hp, hpriv, hreg]

/-- A sheaf's instruction that names a V register at or beyond the count traps ILLEGAL, whatever its own rule is. -/
theorem run_vreg_beyond {i : Instr} {u : Use} {f : State → Issue} {s : State}
    (h : ready { u with vr := [], vw := [] } s = true) (hp : poisonHit (slotOf s) u = none) (hk : s.cur.kind = .sheaf)
    (hv : ∃ n ∈ u.vr ++ u.vw, s.cur.k.vregs ≤ n) :
    run i u f s = .next (raiseTrap s (illegalTrap s (word0 i))) := by
  have hissue : issueOf i u f s = illegal s i := by simp [issueOf, precheck_vreg_beyond h hp hv]
  have heng : notForEngine s.cur u = false := by simp [notForEngine, hk]
  unfold run
  rw [if_neg (ready_kind h), if_neg (by simp [heng]), hissue, settle_illegal s i (ready_wait h)]

/-! ### The obligation -/

/-- Settles O9, by the rules of register reads after writes, of the active lanes and of the check of V register numbers. -/
theorem registersAndLanes : Obligations.RegistersAndLanes := by
  refine ⟨⟨fun s n m v => ⟨getS_zero s, setS_zero s v, getSA_putSA s.cur n m v, getM_zero s, setM_zero s v,
    bit_getM_beyond s n, fun hn l hw hl => ?_, getM_setM_ne s n m v⟩, mem_activeLanes⟩,
    fun i u f s h hp hk hv => run_vreg_beyond h hp hk hv⟩
  rw [getM_setM_same s n v hn, bit_and_allLanes v _ l hw hl]

end Sys2Proof.Machine
end

section
/-!
PROOFS. The scalar unit (R142 to R145): the values of its operations of two registers, of one register and of an immediate,
the scalar divisions with their events, the constant loads, and the decoder's answer for each of their words.
-/
namespace Sys2Proof.Machine

open Sys2Proof

/-! ### Values (R142) -/

theorem truth_beq (x y : Word) : truth (x == y) = if x = y then 1 else 0 := truth_decide (x = y)

theorem truth_bne (x y : Word) : truth (x != y) = if x = y then 0 else 1 := by
  by_cases h : x = y <;> simp [truth, h]

/-- The leading zeros of a word number at most 64. -/
theorem clzWord_le (x : Word) : clzWord x ≤ 64 := by
  unfold clzWord; split <;> omega

/-- The highest one of a word that is not zero lies below bit 64. -/
theorem log2_toNat_lt {x : Word} (hx : x ≠ 0) : x.toNat.log2 < 64 :=
  (Nat.log2_lt (Nat.ne_of_gt (BitVec.toNat_pos_of_ne_zero hx))).2 x.isLt

/-- Every bit counted as a leading zero is zero. -/
theorem bit_above_clzWord (x : Word) (i : Nat) (hi : 64 - clzWord x ≤ i) : bit x i = false := by
  by_cases hx : x = 0
  · simp [bit, hx]
  · have hlog := log2_toNat_lt hx
    have hclz : clzWord x = 63 - x.toNat.log2 := if_neg hx
    have hlt : x.toNat.log2 < i := by omega
    exact Nat.testBit_lt_two_pow ((Nat.log2_lt (Nat.ne_of_gt (BitVec.toNat_pos_of_ne_zero hx))).1 hlt)

/-- The bit below the leading zeros is one. -/
theorem bit_below_clzWord (x : Word) (h : clzWord x < 64) : bit x (63 - clzWord x) = true := by
  have hx : x ≠ 0 := fun h0 => by simp [clzWord, h0] at h
  have hlog := log2_toNat_lt hx
  have hclz : clzWord x = 63 - x.toNat.log2 := if_neg hx
  rw [show 63 - clzWord x = x.toNat.log2 by omega]
  exact Nat.testBit_log2 (Nat.ne_of_gt (BitVec.toNat_pos_of_ne_zero hx))

/-- The ones of the low n bits, counted by halving, are the bits below n that are set. -/
theorem popNat_eq_length_filter (n x : Nat) : popNat n x = ((List.range n).filter x.testBit).length := by
  induction n generalizing x with
  | zero => rfl
  | succ n ih =>
    have hrest : ((List.range n).map Nat.succ).filter x.testBit = ((List.range n).filter (x / 2).testBit).map Nat.succ := by
      rw [List.filter_map]
      congr 2
      funext i
      exact Nat.testBit_succ x i
    rw [popNat, List.range_succ_eq_map, List.filter_cons, hrest, ih, Nat.testBit_zero]
    rcases Nat.mod_two_eq_zero_or_one x with hx | hx <;> simp [hx, Nat.add_comm]

/-- An instruction whose meaning is an operation of two registers writes that operation's value. -/
theorem salu_value {o : Out} {i : Instr} {d a b : Nat} {f : Word → Word → Word} {s : State} {v : Word}
    (h : ready { sr := [a, b], sw := [d], eng := true } s = true) (ho : o = salu i d a b f s)
    (hv : f (getS s a) (getS s b) = v) : o = .next (advance (setS s d v)) := by
  rw [ho, salu_next h, hv]

/-- An instruction whose meaning is an operation of one register writes that operation's value. -/
theorem salu1_value {o : Out} {i : Instr} {d a : Nat} {f : Word → Word} {s : State} {v : Word}
    (h : ready { sr := [a], sw := [d], eng := true } s = true) (ho : o = salu1 i d a f s) (hv : f (getS s a) = v) :
    o = .next (advance (setS s d v)) := by
  rw [ho, salu1_next h, hv]

/-! ### Divisions (R143) -/

/-- A signed division overflows exactly where -2^63 is divided by -1. -/
theorem divOv_iff (x y : Word) : divOv x y = true ↔ x.toInt = -2 ^ 63 ∧ y.toInt = -1 := by
  have hx : x = BitVec.ofNat 64 (2 ^ 63) ↔ x.toInt = -2 ^ 63 := BitVec.toInt_inj.symm
  have hy : y = BitVec.allOnes 64 ↔ y.toInt = -1 := BitVec.toInt_inj.symm
  simp only [divOv, Bool.and_eq_true, decide_eq_true_eq, hx, hy]

/-- What follows the event `f` of a scalar division `i` that writes q to Sd: the flag and DIVMASK := 0, and where MD.DZT is
set the DIVZ trap after them, or an engine program's stop (R143, R265). -/
def divEvent (s : State) (i : Instr) (d : Nat) (q : Word) (f : BitVec 8) : State :=
  let t := onCur (advance (setS s d q)) (fun a => { a with sstat := a.sstat ||| f, divmask := 0 })
  if s.cur.md.getLsbD 14 = false then t
  else if s.cur.kind = .sheaf then raiseTrap t ⟨DIVZ, pcOf s + 4, pcOf s, wd (word0 i), 0⟩ else stopEngine s DIVZ

/-- A division's end with an event, in a sheaf and in an engine program. -/
theorem settle_divideEnd_event (s : State) (i : Instr) (d : Nat) (q : Word) (f : BitVec 8) (hf : f ≠ 0) :
    settle s (divideEnd s i d q f) = divEvent s i d q f := by
  unfold divideEnd divEvent
  cases hd : s.cur.md.getLsbD 14 <;> simp only [hf, dztOf, hd, if_false, if_true] <;> rfl

/-- A division whose rule raises no flag writes its value and goes on. -/
theorem sdivide_value {o : Out} {i : Instr} {d a b : Nat} {f : Word → Word → Word × BitVec 8} {s : State} {q : Word}
    (h : ready { sr := [a, b], sw := [d], eng := true } s = true) (ho : o = sdivide i d a b f s)
    (hf : f (getS s a) (getS s b) = (q, 0)) : o = .next (advance (setS s d q)) := by
  rw [ho, sdivide_next h, hf, divideEnd_plain, settle_done]

/-- A division whose rule raises a flag writes its value and meets the event. -/
theorem sdivide_event {o : Out} {i : Instr} {d a b : Nat} {f : Word → Word → Word × BitVec 8} {s : State} {q : Word}
    {x : BitVec 8} (h : ready { sr := [a, b], sw := [d], eng := true } s = true) (ho : o = sdivide i d a b f s)
    (hf : f (getS s a) (getS s b) = (q, x)) (hx : x ≠ 0) : o = .next (divEvent s i d q x) := by
  rw [ho, sdivide_next h, hf, settle_divideEnd_event s i d q x hx]

section
variable {o : Out} {i : Instr} {s : State} {d a b : Nat} {f : Word → Word → Word × BitVec 8} {z v q : Word}
  (h : ready { sr := [a, b], sw := [d], eng := true } s = true) (ho : o = sdivide i d a b f s)
include h ho

/-- A signed division: by zero, with overflow, or ordinary. -/
theorem sdivide_signed (hf : f (getS s a) (getS s b) =
      if getS s b = 0 then (z, fDZ) else if divOv (getS s a) (getS s b) then (v, fDOV) else (q, 0)) :
    o = if getS s b = 0 then .next (divEvent s i d z fDZ)
      else if (getS s a).toInt = -2 ^ 63 ∧ (getS s b).toInt = -1 then .next (divEvent s i d v fDOV)
      else .next (advance (setS s d q)) := by
  by_cases hz : getS s b = 0
  · rw [if_pos hz]
    exact sdivide_event h ho (by rw [hf, if_pos hz]) (by decide)
  · rw [if_neg hz] at hf ⊢
    by_cases hov : (getS s a).toInt = -2 ^ 63 ∧ (getS s b).toInt = -1
    · rw [if_pos hov]
      exact sdivide_event h ho (by rw [hf, if_pos ((divOv_iff _ _).2 hov)]) (by decide)
    · rw [if_neg hov]
      exact sdivide_value h ho (by rw [hf, if_neg (mt (divOv_iff _ _).1 hov)])

/-- An unsigned division: by zero, or ordinary. -/
theorem sdivide_unsigned (hf : f (getS s a) (getS s b) = if getS s b = 0 then (z, fDZ) else (q, 0)) :
    o = if getS s b = 0 then .next (divEvent s i d z fDZ) else .next (advance (setS s d q)) := by
  by_cases hz : getS s b = 0
  · rw [if_pos hz]
    exact sdivide_event h ho (by rw [hf, if_pos hz]) (by decide)
  · rw [if_neg hz]
    exact sdivide_value h ho (by rw [hf, if_neg hz])

end

section
variable {s : State} {d a b : Nat} (h : ready { sr := [a, b], sw := [d], eng := true } s = true)
include h

theorem exec_sdiv_cases : exec (.sdiv d a b) s =
    if getS s b = 0 then .next (divEvent s (.sdiv d a b) d (BitVec.allOnes 64) fDZ)
    else if (getS s a).toInt = -2 ^ 63 ∧ (getS s b).toInt = -1 then
      .next (divEvent s (.sdiv d a b) d (BitVec.ofInt 64 (-2 ^ 63)) fDOV)
    else .next (advance (setS s d (BitVec.ofInt 64 ((getS s a).toInt.tdiv (getS s b).toInt)))) :=
  sdivide_signed h (exec_sdiv ..) rfl

theorem exec_srem_cases : exec (.srem d a b) s =
    if getS s b = 0 then .next (divEvent s (.srem d a b) d (getS s a) fDZ)
    else if (getS s a).toInt = -2 ^ 63 ∧ (getS s b).toInt = -1 then .next (divEvent s (.srem d a b) d 0 fDOV)
    else .next (advance (setS s d (BitVec.ofInt 64 ((getS s a).toInt.tmod (getS s b).toInt)))) :=
  sdivide_signed h (exec_srem ..) rfl

theorem exec_sdivu_cases : exec (.sdivu d a b) s =
    if getS s b = 0 then .next (divEvent s (.sdivu d a b) d (BitVec.allOnes 64) fDZ)
    else .next (advance (setS s d (BitVec.ofNat 64 ((getS s a).toNat / (getS s b).toNat)))) :=
  sdivide_unsigned h (exec_sdivu ..) rfl

theorem exec_sremu_cases : exec (.sremu d a b) s =
    if getS s b = 0 then .next (divEvent s (.sremu d a b) d (getS s a) fDZ)
    else .next (advance (setS s d (BitVec.ofNat 64 ((getS s a).toNat % (getS s b).toNat)))) :=
  sdivide_unsigned h (exec_sremu ..) rfl

end

/-! ### Words (R142, R144, R145) -/

/-- Major opcode 0x01 is the SALU. -/
theorem decodeWord_salu {w : Nat} (w1 : Nat) (h : fld w 31 25 = 0x01) : decodeWord w w1 = decodeSalu w := by
  unfold decodeWord; rw [h]; rfl

/-- Sub-operations 0 to 22 of the SALU, in their order. -/
theorem decodeSalu_binary (w : Nat) (i : Instr) :
    let d := fld w 24 19
    let a := fld w 18 13
    let b := fld w 12 7
    [Instr.sadd d a b, .ssub d a b, .smul d a b, .smulh d a b, .smulhu d a b, .sdiv d a b, .sdivu d a b, .srem d a b,
      .sremu d a b, .sand d a b, .sor d a b, .sxor d a b, .sshl d a b, .sshr d a b, .ssar d a b, .smin d a b, .sminu d a b,
      .smax d a b, .smaxu d a b, .sseq d a b, .ssne d a b, .sslt d a b, .ssltu d a b][fld w 6 0]? = some i →
    decodeSalu w = .ok i := by
  intro d a b h
  obtain ⟨hlt, rfl⟩ := List.getElem?_eq_some_iff.1 h
  unfold decodeSalu
  generalize fld w 6 0 = n at hlt
  change n < 23 at hlt
  match n, hlt with
  | 0, _ | 1, _ | 2, _ | 3, _ | 4, _ | 5, _ | 6, _ | 7, _ | 8, _ | 9, _ | 10, _ | 11, _
  | 12, _ | 13, _ | 14, _ | 15, _ | 16, _ | 17, _ | 18, _ | 19, _ | 20, _ | 21, _ | 22, _ => rfl
  | n + 23, h => exact absurd h (by omega)

/-- Sub-operations 25 to 127 of the SALU are reserved. -/
theorem decodeSalu_reserved (w : Nat) (h : 25 ≤ fld w 6 0) : decodeSalu w = .error .reservedCode := by
  obtain ⟨n, hn⟩ := Nat.exists_eq_add_of_le' h
  unfold decodeSalu; rw [hn]; rfl

/-- SCLZ and SPOPC have no second source: their sb field is zero (R42). -/
theorem decodeSalu_unary (w : Nat) :
    (fld w 6 0 = 23 → decodeSalu w = zeroBits (fld w 12 7) (.sclz (fld w 24 19) (fld w 18 13))) ∧
    (fld w 6 0 = 24 → decodeSalu w = zeroBits (fld w 12 7) (.spopc (fld w 24 19) (fld w 18 13))) := by
  unfold decodeSalu
  exact ⟨fun h => by rw [h]; rfl, fun h => by rw [h]; rfl⟩

/-- Settles O13: each operation is its value written by the shared rules of the SALU, and each word is its row of the table. -/
theorem scalarOperations : Obligations.ScalarOperations := by
  refine ⟨⟨?binary, ?unary, ?words, ?reserved, ?mustBeZero⟩, ?divide⟩
  case binary =>
    intro s d a b h
    exact ⟨salu_value h (exec_sadd ..) rfl, salu_value h (exec_ssub ..) rfl, salu_value h (exec_smul ..) rfl,
      salu_value h (exec_smulh ..) rfl, salu_value h (exec_smulhu ..) rfl, salu_value h (exec_sand ..) rfl,
      salu_value h (exec_sor ..) rfl, salu_value h (exec_sxor ..) rfl, salu_value h (exec_sshl ..) rfl,
      salu_value h (exec_sshr ..) rfl, salu_value h (exec_ssar ..) rfl, salu_value h (exec_smin ..) rfl,
      salu_value h (exec_sminu ..) rfl, salu_value h (exec_smax ..) rfl, salu_value h (exec_smaxu ..) rfl,
      salu_value h (exec_sseq ..) (truth_beq _ _), salu_value h (exec_ssne ..) (truth_bne _ _), salu_value h (exec_sslt ..) (truth_decide _),
      salu_value h (exec_ssltu ..) (truth_decide _)⟩
  case unary =>
    intro s d a h
    refine ⟨⟨clzWord (getS s a), salu1_value h (exec_sclz ..) rfl, clzWord_le _, fun i hi _ => bit_above_clzWord _ i hi, bit_below_clzWord _⟩,
      salu1_value h (exec_spopc ..) ?_⟩
    rw [popNat_eq_length_filter]; rfl
  case words =>
    intro w w1 hw
    rw [decodeWord_salu w1 hw]
    refine ⟨decodeSalu_binary w, fun hb => ⟨fun h => ?_, fun h => ?_⟩⟩
    · rw [(decodeSalu_unary w).1 h, hb]; rfl
    · rw [(decodeSalu_unary w).2 h, hb]; rfl
  case reserved =>
    intro w w1 hw h
    rw [decodeWord_salu w1 hw, decodeSalu_reserved w h]
  case mustBeZero =>
    intro w w1 hw h hb
    rw [decodeWord_salu w1 hw]
    rcases h with h | h
    · rw [(decodeSalu_unary w).1 h]; exact if_neg hb
    · rw [(decodeSalu_unary w).2 h]; exact if_neg hb
  case divide =>
    intro s d a b h
    exact ⟨exec_sdiv_cases h, exec_srem_cases h, exec_sdivu_cases h, exec_sremu_cases h⟩

/-! ### Immediate forms and constant loads (R144, R145, R34) -/

/-- The words of Form D (R36), each with its major opcode. -/
theorem decodeWord_formD (w w1 : Nat) :
    (fld w 31 25 = 0x02 → decodeWord w w1 = formD w .saddi) ∧ (fld w 31 25 = 0x03 → decodeWord w w1 = formD w .sandi) ∧
    (fld w 31 25 = 0x04 → decodeWord w w1 = formD w .sori) ∧ (fld w 31 25 = 0x05 → decodeWord w w1 = formD w .sxori) ∧
    (fld w 31 25 = 0x09 → decodeWord w w1 = formD w .sslti) := by
  unfold decodeWord
  refine ⟨?_, ?_, ?_, ?_, ?_⟩ <;> intro h <;> rw [h] <;> rfl

/-- The words of the shifts of Form D (R39), each with its major opcode. -/
theorem decodeWord_formDsh (w w1 : Nat) :
    (fld w 31 25 = 0x06 → decodeWord w w1 = formDsh w .sshli) ∧ (fld w 31 25 = 0x07 → decodeWord w w1 = formDsh w .sshri) ∧
    (fld w 31 25 = 0x08 → decodeWord w w1 = formDsh w .ssari) := by
  unfold decodeWord
  refine ⟨?_, ?_, ?_⟩ <;> intro h <;> rw [h] <;> rfl

theorem formDsh_in_range (w : Nat) (v : Nat → Nat → Nat → Instr) (h : fld w 12 0 < 64) :
    formDsh w v = .ok (v (fld w 24 19) (fld w 18 13) (fld w 12 0)) := if_pos (decide_eq_true h)

theorem formDsh_out_of_range (w : Nat) (v : Nat → Nat → Nat → Instr) (h : 64 ≤ fld w 12 0) :
    formDsh w v = .error .excluded := if_neg (by simpa using h)

/-- The words of the constant loads, each with its major opcode. -/
theorem decodeWord_constant (w w1 : Nat) :
    (fld w 31 25 = 0x0A → decodeWord w w1 = zeroBits (fld w 18 13) (.sli (fld w 24 19) (sx 13 (fld w 12 0)))) ∧
    (fld w 31 25 = 0x0B → decodeWord w w1 = zeroBits (fld w 18 0) (.sliw (fld w 24 19) (sx 32 (fld w1 31 0)))) ∧
    (fld w 31 25 = 0x0C → decodeWord w w1 = zeroBits (fld w 18 0) (.slih (fld w 24 19) (fld w1 31 0))) := by
  unfold decodeWord
  refine ⟨?_, ?_, ?_⟩ <;> intro h <;> rw [h] <;> rfl

theorem zeroBits_zero {z : Nat} (h : z = 0) (i : Instr) : zeroBits z i = .ok i := if_pos h

theorem advance_setS (s : State) (d : Nat) (v : Word) : advance (setS s d v) = setPc (setS s d v) (pcOf s + 4) := by
  rw [advance, pcOf_setS]

theorem advance2_setS (s : State) (d : Nat) (v : Word) : advance2 (setS s d v) = setPc (setS s d v) (pcOf s + 8) := by
  rw [advance2, pcOf_setS]

/-- The number that SLIH writes is the immediate above the low half of the register. -/
theorem slih_value (x : Word) (n : Nat) (hn : n < 2 ^ 32) :
    wd (n * 2 ^ 32 + x.toNat % 2 ^ 32) = BitVec.ofNat 32 n ++ x.extractLsb' 0 32 := by
  have hlow : x.toNat % 2 ^ 32 < 2 ^ 32 := Nat.mod_lt _ (by decide)
  apply BitVec.eq_of_toNat_eq
  rw [BitVec.toNat_append, BitVec.extractLsb'_toNat, BitVec.toNat_ofNat, Nat.mod_eq_of_lt hn, Nat.shiftRight_zero,
    ← Nat.shiftLeft_add_eq_or_of_lt hlow, Nat.shiftLeft_eq, wd, BitVec.toNat_ofNat, Nat.mod_eq_of_lt (by omega)]

/-- Settles O14: each form is its value written by the shared rule of the SALU, and each word is its row of the table. -/
theorem immediatesAndConstants : Obligations.ImmediatesAndConstants := by
  refine ⟨⟨?values, ?words, ?excluded⟩, ?constants⟩
  case values =>
    intro s d a k n h
    exact ⟨salu1_value h (exec_saddi ..) rfl, salu1_value h (exec_sandi ..) rfl, salu1_value h (exec_sori ..) rfl,
      salu1_value h (exec_sxori ..) rfl, salu1_value h (exec_sslti ..) (truth_decide _), salu1_value h (exec_sshli ..) rfl,
      salu1_value h (exec_sshri ..) rfl, salu1_value h (exec_ssari ..) rfl⟩
  case words =>
    intro w w1
    obtain ⟨hadd, hand, hor, hxor, hslt⟩ := decodeWord_formD w w1
    obtain ⟨hshl, hshr, hsar⟩ := decodeWord_formDsh w w1
    simp only [List.forall_mem_cons, List.not_mem_nil, false_imp_iff, implies_true, and_true]
    exact ⟨⟨hadd, hand, hor, hxor, hslt⟩, fun h hk => (hshl h).trans (formDsh_in_range w _ hk),
      fun h hk => (hshr h).trans (formDsh_in_range w _ hk), fun h hk => (hsar h).trans (formDsh_in_range w _ hk)⟩
  case excluded =>
    intro w w1 h hk
    obtain ⟨hshl, hshr, hsar⟩ := decodeWord_formDsh w w1
    rcases h with h | h | h
    · rw [hshl h, formDsh_out_of_range w _ hk]
    · rw [hshr h, formDsh_out_of_range w _ hk]
    · rw [hsar h, formDsh_out_of_range w _ hk]
  case constants =>
    intro s d n m k
    refine ⟨fun h => ⟨?_, ?_⟩, fun h hk => ?_, fun w w1 h hz => ?_, fun w w1 h hz => ?_, fun w w1 h hz => ?_⟩
    · rw [← advance_setS]; exact run_done _ _ h rfl
    · rw [← advance2_setS]; exact run_done _ _ h rfl
    · rw [← slih_value _ _ hk, ← advance2_setS]; exact run_done _ _ h rfl
    · rw [(decodeWord_constant w w1).2.2 h, zeroBits_zero hz]
    · rw [(decodeWord_constant w w1).1 h, zeroBits_zero hz]
    · rw [(decodeWord_constant w w1).2.1 h, zeroBits_zero hz]

end Sys2Proof.Machine
end

section
/-!
PROOFS. Branches and calls (R38, R150 to R153): where the slot goes on, the link that a call writes, the ALIGN trap of a jump,
and the decoder's answer for each of their words.
-/
namespace Sys2Proof.Machine

open Sys2Proof

/-- A conditional branch moves the program counter, to its target or to the next word, and does nothing else. -/
theorem branchIf_done (s : State) (t : Bool) (o : Int) :
    branchIf s t o = .done (setPc s (if t then target (pcOf s) o else pcOf s + 4)) := by
  cases t <;> rfl

/-- An instruction whose own rule is a conditional branch, in a slot that is ready. -/
theorem run_branchIf {u : Use} {s : State} {f : State → Issue} {i : Instr} {t : Bool} {o : Int} (h : ready u s = true)
    (hf : f s = branchIf s t o) : run i u f s = .next (setPc s (if t then target (pcOf s) o else pcOf s + 4)) :=
  run_done i f h (hf.trans (branchIf_done s t o))

/-- A jump to a multiple of 4 goes there, with S62 written first where it is a call. -/
theorem jumpTo_aligned (s : State) {t : Word} (link : Bool) (h : t.toNat % 4 = 0) :
    jumpTo s t link = .done (setPc (if link then setS s 62 (pcOf s + 4) else s) t) := if_neg fun hne => hne h

/-- A jump to any other address traps ALIGN with the target in TADDR, and writes nothing. -/
theorem jumpTo_unaligned (s : State) {t : Word} (link : Bool) (h : t.toNat % 4 ≠ 0) :
    jumpTo s t link = .trap ⟨ALIGN, pcOf s, t, 0, 0⟩ := if_pos h

/-- The words of the branches that have no reserved code, each with its major opcode. -/
theorem decodeWord_jumps (w w1 : Nat) :
    (fld w 31 25 = 0x10 → decodeWord w w1 = .ok (.bra (sx 25 (fld w 24 0)))) ∧
    (fld w 31 25 = 0x11 → decodeWord w w1 = .ok (.call (sx 25 (fld w 24 0)))) ∧
    (fld w 31 25 = 0x12 → decodeWord w w1 = zeroBits (fld w 24 19) (.jmp (fld w 18 13) (sx 13 (fld w 12 0)))) ∧
    (fld w 31 25 = 0x13 → decodeWord w w1 = zeroBits (fld w 24 19) (.callr (fld w 18 13) (sx 13 (fld w 12 0)))) := by
  unfold decodeWord
  refine ⟨?_, ?_, ?_, ?_⟩ <;> intro h <;> rw [h] <;> rfl

/-- Major opcode 0x14 is BC, whose condition is below 6. -/
theorem decodeWord_bc {w : Nat} (w1 : Nat) (h : fld w 31 25 = 0x14) : decodeWord w w1 =
    coded (decide (fld w 24 21 < 6)) (.bc (fld w 24 21) (fld w 20 20) (fld w 19 14) (sx 14 (fld w 13 0))) := by
  unfold decodeWord; rw [h]; rfl

/-- Settles O19: a conditional branch is a move of the program counter, and a jump one or the ALIGN trap. -/
theorem branches : Obligations.Branches := by
  intro s a k h o
  refine ⟨fun hr => run_done _ _ hr rfl, fun hr => ⟨run_branchIf hr rfl, run_branchIf hr rfl⟩, fun hr => ⟨?bra, ?_⟩,
    fun hr => ?jumps, fun w w1 => ?words⟩
  case bra =>
    have hr' : ready { eng := true } s = true := ready_mono hr (by simp) (by simp) (by simp) (by simp) (by simp) (by simp) (by simp)
    exact run_done _ _ hr' rfl
  · exact ⟨run_branchIf hr rfl, run_branchIf hr rfl, run_branchIf hr rfl, run_branchIf hr rfl, run_branchIf hr rfl,
      run_branchIf hr rfl⟩
  case jumps =>
    have hr' : ready { sr := [a] } s = true := ready_mono hr (by simp) (by simp) (by simp) (by simp) (by simp) (by simp) (by simp)
    exact ⟨fun ht => ⟨run_done _ _ hr' (jumpTo_aligned s false ht), run_done _ _ hr (jumpTo_aligned s true ht)⟩,
      fun ht _ => ⟨run_trap _ _ _ hr' (jumpTo_unaligned s false ht), run_trap _ _ _ hr (jumpTo_unaligned s true ht)⟩⟩
  case words =>
    obtain ⟨hbra, hcall, hjmp, hcallr⟩ := decodeWord_jumps w w1
    refine ⟨hbra, hcall, fun h hz => (hjmp h).trans (zeroBits_zero hz _), fun h hz => (hcallr h).trans (zeroBits_zero hz _),
      fun h hc => ?_, fun h hc => ?_⟩
    · rw [decodeWord_bc w1 h]; exact if_pos (decide_eq_true hc)
    · rw [decodeWord_bc w1 h]; exact if_neg (by simpa using hc)

end Sys2Proof.Machine
end

section
/-!
PROOFS. Sorting and merging (R190 to R193): ranks number the lanes, so the lanes by rank are a stable sort; the merge's source
indices are the positions of the rule's procedure; 32-bit indices in one register or two; the refusals and the words.
-/
namespace Sys2Proof.Machine

open Sys2Proof

/-! ### Ranks (R191) -/

/-- The order that ranks count: by key, and by lane among equal keys. -/
def keyBefore (ks : List Int) (j l : Nat) : Bool :=
  ks.getD j 0 < ks.getD l 0 || (ks.getD j 0 = ks.getD l 0 && j < l)

theorem keyBefore_iff (ks : List Int) (j l : Nat) :
    keyBefore ks j l = true ↔ ks.getD j 0 < ks.getD l 0 ∨ (ks.getD j 0 = ks.getD l 0 ∧ j < l) := by
  simp [keyBefore]

/-- The lanes before a lane. -/
def lanesBefore (ks : List Int) (l : Nat) : List Nat := (List.range ks.length).filter (keyBefore ks · l)

/-- A lane's rank is the number of lanes before it. -/
theorem length_lanesBefore (ks : List Int) (l : Nat) : (lanesBefore ks l).length = rankOf ks l := rfl

theorem mem_lanesBefore {ks : List Int} {i l : Nat} :
    i ∈ lanesBefore ks l ↔ i < ks.length ∧ keyBefore ks i l = true := by
  rw [lanesBefore, List.mem_filter, List.mem_range]

/-- A lane is not before itself, so that it and those before it are distinct. -/
theorem nodup_cons_lanesBefore (ks : List Int) (l : Nat) : (l :: lanesBefore ks l).Nodup := by
  refine List.nodup_cons.2 ⟨fun h => ?_, List.Pairwise.filter _ List.nodup_range⟩
  have hself := (keyBefore_iff ks l l).1 (mem_lanesBefore.1 h).2
  omega

/-- A lane before another has the lower rank: it and those before it are before the other. -/
theorem rankOf_lt_of_keyBefore {ks : List Int} {j l : Nat} (hj : j < ks.length) (h : keyBefore ks j l = true) :
    rankOf ks j < rankOf ks l := by
  refine (nodup_cons_lanesBefore ks j).length_le_of_subset (l₂ := lanesBefore ks l) fun i hi => ?_
  rcases List.mem_cons.1 hi with rfl | hi
  · exact mem_lanesBefore.2 ⟨hj, h⟩
  · obtain ⟨hlt, hb⟩ := mem_lanesBefore.1 hi
    rw [keyBefore_iff] at hb h
    exact mem_lanesBefore.2 ⟨hlt, (keyBefore_iff ks i l).2 (by omega)⟩

/-- A rank is below the number of lanes, as a lane and those before it are lanes. -/
theorem rankOf_lt_length {ks : List Int} {l : Nat} (hl : l < ks.length) : rankOf ks l < ks.length := by
  have hle := (nodup_cons_lanesBefore ks l).length_le_of_subset (l₂ := List.range ks.length) fun i hi => by
    rcases List.mem_cons.1 hi with rfl | hi
    · exact List.mem_range.2 hl
    · exact List.mem_range.2 (mem_lanesBefore.1 hi).1
  rwa [List.length_range] at hle

/-- Of two lanes one is before the other. -/
theorem keyBefore_total (ks : List Int) {j l : Nat} (h : j ≠ l) : keyBefore ks j l = true ∨ keyBefore ks l j = true := by
  rw [keyBefore_iff, keyBefore_iff]
  omega

/-- Distinct lanes have distinct ranks. -/
theorem rankOf_ne {ks : List Int} {j l : Nat} (hj : j < ks.length) (hl : l < ks.length) (h : j ≠ l) :
    rankOf ks j ≠ rankOf ks l := by
  rcases keyBefore_total ks h with hb | hb
  · exact Nat.ne_of_lt (rankOf_lt_of_keyBefore hj hb)
  · exact Nat.ne_of_gt (rankOf_lt_of_keyBefore hl hb)

/-- A lane of lower rank is before: the other way round its rank would be the higher. -/
theorem keyBefore_of_rankOf_lt {ks : List Int} {j l : Nat} (hl : l < ks.length) (h : rankOf ks j < rankOf ks l) :
    keyBefore ks j l = true := by
  have hne : j ≠ l := fun e => Nat.lt_irrefl _ (e ▸ h)
  exact (keyBefore_total ks hne).resolve_right fun hb => Nat.lt_asymm h (rankOf_lt_of_keyBefore hl hb)

/-- Every rank is some lane's: the ranks are distinct, below the number of lanes, and as many, so that none is missing. -/
theorem exists_rankOf_eq {ks : List Int} {p : Nat} (hp : p < ks.length) : ∃ l, l < ks.length ∧ rankOf ks l = p := by
  have hranks : ((List.range ks.length).map (rankOf ks)).Nodup := List.pairwise_map.2
    (List.nodup_range.imp_of_mem fun hj hl => rankOf_ne (List.mem_range.1 hj) (List.mem_range.1 hl))
  by_cases hmem : p ∈ (List.range ks.length).map (rankOf ks)
  · obtain ⟨l, hl, hr⟩ := List.mem_map.1 hmem
    exact ⟨l, List.mem_range.1 hl, hr⟩
  · have hle := (List.nodup_cons.2 ⟨hmem, hranks⟩).length_le_of_subset (l₂ := List.range ks.length) fun i hi => by
      rcases List.mem_cons.1 hi with rfl | hi
      · exact List.mem_range.2 hp
      · obtain ⟨l, hl, rfl⟩ := List.mem_map.1 hi
        exact List.mem_range.2 (rankOf_lt_length (List.mem_range.1 hl))
    rw [List.length_cons, List.length_map, List.length_range] at hle
    exact absurd hle (Nat.not_succ_le_self _)

/-- The lane of rank p exists and has that rank. -/
theorem lanesByRank_spec {ks : List Int} {p : Nat} (hp : p < ks.length) :
    lanesByRank ks p < ks.length ∧ rankOf ks (lanesByRank ks p) = p := by
  obtain ⟨l, hl, hr⟩ := exists_rankOf_eq hp
  have hsome : ((List.range ks.length).find? (fun l => rankOf ks l == p)).isSome :=
    List.find?_isSome.2 ⟨l, List.mem_range.2 hl, by simpa using hr⟩
  obtain ⟨m, hm⟩ := Option.isSome_iff_exists.1 hsome
  have hval : lanesByRank ks p = m := by rw [lanesByRank, hm]; rfl
  rw [hval]
  exact ⟨List.mem_range.1 (List.mem_of_find?_eq_some hm), by simpa using List.find?_some hm⟩

/-- The lanes by rank are in order. -/
theorem lanesByRank_sorted {ks : List Int} {p q : Nat} (hpq : p < q) (hq : q < ks.length) :
    keyBefore ks (lanesByRank ks p) (lanesByRank ks q) = true := by
  obtain ⟨-, hrp⟩ := lanesByRank_spec (Nat.lt_trans hpq hq)
  obtain ⟨hlq, hrq⟩ := lanesByRank_spec hq
  exact keyBefore_of_rankOf_lt hlq (by rwa [hrp, hrq])

/-! ### The keys of a register (R190) -/

theorem length_keysOf (s : State) (a : Nat) : (keysOf s a).length = wOf s := by simp [keysOf]

theorem keysOf_getD (s : State) (a : Nat) {l : Nat} (hl : l < wOf s) :
    (keysOf s a).getD l 0 = keyOrd (etOf s) (rawV s (etOf s) a l) := by
  simp [keysOf, List.getD_eq_getElem?_getD, List.getElem?_map, List.getElem?_range hl]

/-- The lanes of Va by rank are lanes, by key, and by lane among equal keys. -/
theorem lanesByRank_keysOf (s : State) (a : Nat) :
    let key := fun l => keyOrd (etOf s) (rawV s (etOf s) a l)
    let π := lanesByRank (keysOf s a)
    (∀ p, p < wOf s → π p < wOf s) ∧
    (∀ p q, p < q → q < wOf s → key (π p) < key (π q) ∨ (key (π p) = key (π q) ∧ π p < π q)) := by
  intro key π
  have hlt : ∀ p, p < wOf s → π p < wOf s := fun p hp => by
    obtain ⟨h, -⟩ := lanesByRank_spec (ks := keysOf s a) (by rwa [length_keysOf])
    rwa [length_keysOf] at h
  refine ⟨hlt, fun p q hpq hq => ?_⟩
  have hsorted := lanesByRank_sorted (ks := keysOf s a) hpq (by rwa [length_keysOf])
  rwa [keyBefore_iff, keysOf_getD s a (hlt p (Nat.lt_trans hpq hq)), keysOf_getD s a (hlt q hq)] at hsorted

/-! ### The merge (R192) -/

/-- The test of R192's procedure, where x is how many elements of Va and of Vb it has taken: the next one is Va's. -/
def takesA (w : Nat) (ka kb : List Int) (x : Nat × Nat) : Bool :=
  x.2 = w ∨ (x.1 < w ∧ ¬(kb.getD x.2 0 < ka.getD x.1 0))

/-- Where Vb has no element left, the next one is Va's. -/
theorem ne_of_not_takesA {w : Nat} {ka kb : List Int} {x : Nat × Nat} (h : ¬ takesA w ka kb x = true) : x.2 ≠ w :=
  fun e => h (decide_eq_true (.inl e))

/-- The source index of the next element. -/
def srcAt (w : Nat) (ka kb : List Int) (x : Nat × Nat) : Nat := if takesA w ka kb x then x.1 else w + x.2

/-- The counts after the next element. -/
def mergeStep (w : Nat) (ka kb : List Int) (x : Nat × Nat) : Nat × Nat :=
  if takesA w ka kb x then (x.1 + 1, x.2) else (x.1, x.2 + 1)

/-- The counts before element p. -/
def takenAt (w : Nat) (ka kb : List Int) : Nat → Nat × Nat
  | 0 => (0, 0)
  | p + 1 => mergeStep w ka kb (takenAt w ka kb p)

theorem takenAt_succ (w : Nat) (ka kb : List Int) (p : Nat) :
    takenAt w ka kb (p + 1) = mergeStep w ka kb (takenAt w ka kb p) := rfl

/-- A merge begins with its next element. -/
theorem mergeSrc_succ (w : Nat) (ka kb : List Int) (n : Nat) (x : Nat × Nat) :
    mergeSrc w ka kb (n + 1) x.1 x.2 =
      srcAt w ka kb x :: mergeSrc w ka kb n (mergeStep w ka kb x).1 (mergeStep w ka kb x).2 := by
  by_cases h : takesA w ka kb x = true
  · rw [mergeSrc, if_pos (of_decide_eq_true h), srcAt, mergeStep, if_pos h, if_pos h]
  · rw [mergeSrc, if_neg (mt decide_eq_true h), srcAt, mergeStep, if_neg h, if_neg h]

/-- Element p of what follows the first q elements is element q + p. -/
theorem mergeSrc_getD (w : Nat) (ka kb : List Int) {n p : Nat} (hp : p < n) (q : Nat) :
    (mergeSrc w ka kb n (takenAt w ka kb q).1 (takenAt w ka kb q).2).getD p 0 =
      srcAt w ka kb (takenAt w ka kb (q + p)) := by
  induction n generalizing p q with
  | zero => omega
  | succ n ih =>
    rw [mergeSrc_succ]
    cases p with
    | zero => rfl
    | succ p => rw [List.getD_cons_succ, ← takenAt_succ, ih (by omega), Nat.add_right_comm, Nat.add_assoc]

/-- p elements are taken before element p, of Vb no more than there are. -/
theorem takenAt_bounds (w : Nat) (ka kb : List Int) (p : Nat) :
    (takenAt w ka kb p).1 + (takenAt w ka kb p).2 = p ∧ (takenAt w ka kb p).2 ≤ w := by
  induction p with
  | zero => exact ⟨rfl, Nat.zero_le w⟩
  | succ p ih =>
    obtain ⟨hsum, hle⟩ := ih
    rw [takenAt_succ, mergeStep]
    split
    · exact ⟨by simp only; omega, hle⟩
    · next h =>
      have hne := ne_of_not_takesA h
      exact ⟨by simp only; omega, by simp only; omega⟩

/-- The source index of an element of the merge. -/
theorem mergeOf_getD (s : State) (a b : Nat) {p : Nat} (hp : p < 2 * wOf s) :
    (mergeOf s a b).getD p 0 =
      srcAt (wOf s) (keysOf s a) (keysOf s b) (takenAt (wOf s) (keysOf s a) (keysOf s b) p) :=
  (mergeSrc_getD _ _ _ hp 0).trans (by rw [Nat.zero_add])

/-- A source index names one of the 2 W lanes. -/
theorem mergeOf_getD_lt (s : State) (a b : Nat) {p : Nat} (hp : p < 2 * wOf s) : (mergeOf s a b).getD p 0 < 2 * wOf s := by
  obtain ⟨hsum, hle⟩ := takenAt_bounds (wOf s) (keysOf s a) (keysOf s b) p
  rw [mergeOf_getD s a b hp, srcAt]
  split
  · omega
  · next h =>
    have hne := ne_of_not_takesA h
    omega

/-- The test of the procedure, on the lanes' keys. -/
theorem takesA_keysOf (s : State) (a b : Nat) {x : Nat × Nat} (hx : x.2 ≤ wOf s) :
    takesA (wOf s) (keysOf s a) (keysOf s b) x = true ↔
      x.2 = wOf s ∨ (x.1 < wOf s ∧
        ¬ keyOrd (etOf s) (rawV s (etOf s) b x.2) < keyOrd (etOf s) (rawV s (etOf s) a x.1)) := by
  rw [takesA, decide_eq_true_iff]
  by_cases hb : x.2 = wOf s
  · simp [hb]
  · simp only [hb, false_or]
    exact and_congr_right fun ha => by rw [keysOf_getD s a ha, keysOf_getD s b (by omega)]

/-- The source indices and the counts are those of R192's procedure. -/
theorem mergeOf_procedure (s : State) (a b p : Nat) (hp : p < 2 * wOf s) :
    let key := fun r l => keyOrd (etOf s) (rawV s (etOf s) r l)
    let src := fun p => (mergeOf s a b).getD p 0
    let ia := fun p => (takenAt (wOf s) (keysOf s a) (keysOf s b) p).1
    let ib := fun p => (takenAt (wOf s) (keysOf s a) (keysOf s b) p).2
    if ib p = wOf s ∨ (ia p < wOf s ∧ ¬ key b (ib p) < key a (ia p)) then
      src p = ia p ∧ ia (p + 1) = ia p + 1 ∧ ib (p + 1) = ib p
    else src p = wOf s + ib p ∧ ia (p + 1) = ia p ∧ ib (p + 1) = ib p + 1 := by
  intro key src ia ib
  obtain ⟨-, hle⟩ := takenAt_bounds (wOf s) (keysOf s a) (keysOf s b) p
  have htest := takesA_keysOf s a b hle
  simp only [src, ia, ib, mergeOf_getD s a b hp, takenAt_succ, srcAt, mergeStep]
  split
  · next h => simp only [htest.2 h, if_true, and_self]
  · next h => simp only [mt htest.1 h, Bool.false_eq_true, if_false, and_self]

/-! ### Indices in 32-bit registers (R191, R193) -/

/-- The state with other contents of the V registers. -/
def withV (s : State) (v : List (Nat × Lane)) : State := { s with cur := { s.cur with v := v } }

/-- Lane indices written to a register change V registers alone. -/
theorem putLanes_eq_withV (s : State) (d : Nat) (l : List (Nat × Nat)) : ∃ v, putLanes s d l = withV s v := by
  induction l generalizing s with
  | nil => exact ⟨s.cur.v, rfl⟩
  | cons p l ih =>
    obtain ⟨v, hv⟩ := ih (setV s d p.1 (BitVec.ofNat 32 p.2))
    exact ⟨v, hv⟩

/-- The lanes that indices are written to hold them, and every other lane and register is as before. -/
theorem getV_putLanes (s : State) (d : Nat) (g : Nat → Nat) {act : List Nat} (hact : ∀ l ∈ act, l < 64) (n : Nat) {l : Nat}
    (hl : l < 64) : getV (putLanes s d (act.map (fun p => (p, g p)))) n l =
      if n = d ∧ l ∈ act then BitVec.ofNat 32 (g l) else getV s n l := by
  induction act generalizing s with
  | nil => simp [putLanes, onCur]
  | cons k act ih =>
    rw [List.forall_mem_cons] at hact
    obtain ⟨hk, hact⟩ := hact
    have hstep : putLanes s d ((k :: act).map (fun p => (p, g p))) =
        putLanes (setV s d k (BitVec.ofNat 32 (g k))) d (act.map (fun p => (p, g p))) := rfl
    have hget : getV (setV s d k (BitVec.ofNat 32 (g k))) n l =
        if n = d ∧ l = k then BitVec.ofNat 32 (g k) else getV s n l := laneA_putVA s.cur d k n l _ hk hl
    rw [hstep, ih _ hact, hget]
    by_cases hlk : l = k <;> by_cases hn : n = d <;> simp [hlk, hn]

/-- No flags leave the flags as they were. -/
theorem foldl_or_zero {n : Nat} (l : List Nat) (x : BitVec n) : l.foldl (fun y _ => y ||| 0) x = x := by
  induction l with
  | nil => rfl
  | cons k l ih => rw [List.foldl_cons, show x ||| 0 = x from BitVec.or_zero, ih]

/-- An instruction that changes V registers alone and goes on has written its lanes, where they hold its plain results and
every other lane and register is as before. -/
theorem lanesWritten_withV {s : State} {v : List (Nat × Lane)} {et d : Nat} {act : List Nat} {g : Nat → Word}
    (hval : ∀ l ∈ act, holds (withV s v) et d l (g l))
    (hkeep : ∀ n l, l < 64 → (n ∉ regs (is64 et) d ∨ l ∉ act) → getV (withV s v) n l = getV s n l) :
    LanesWritten s (advance (withV s v)) et d act (fun l => { val := g l }) := by
  have hsans : sansRegs (advance (withV s v)).cur = sansRegs s.cur := sansRegs_setPc (withV s v) _
  have hstat : (advance (withV s v)).cur.sstat = s.cur.sstat :=
    (congrArg Agent.sstat hsans : (sansRegs _).sstat = (sansRegs s.cur).sstat)
  have hdiv : (advance (withV s v)).cur.divmask = s.cur.divmask :=
    (congrArg Agent.divmask hsans : (sansRegs _).divmask = (sansRegs s.cur).divmask)
  have hbytes : sameBytes s (withV s v) := sameBytes_cur rfl rfl rfl rfl rfl rfl rfl
  obtain ⟨-, -, -, -, -, -, hpc⟩ := regFrame_setPc (withV s v) (pcOf (withV s v) + 4)
  exact {
    result := fun l hl => by simpa only [holds, getV2, getV_advance] using hval l hl
    other := fun n l hl h => by rw [getV_advance, hkeep n l hl h]
    flags := hstat.trans (foldl_or_zero act _).symm
    divmask := by simp [hdiv]
    next := pcOf_advance _
    agent := by rw [← hstat, ← hdiv]; exact hsans
    sregs := fun n _ => getS_advance _ n
    mregs := fun n _ => getM_advance _ n
    device := rfl
    bytes := fun c l => (hpc c l).trans (hbytes c l) }

/-- Lane indices in one register are elements of type N32. -/
theorem lanesWritten_putLanes (s : State) (d : Nat) (g : Nat → Nat) {act : List Nat} (hact : ∀ l ∈ act, l < 64) :
    LanesWritten s (advance (putLanes s d (act.map (fun p => (p, g p))))) 1 d act (fun p => { val := wd (g p) }) := by
  have hget := fun n {l} (hl : l < 64) => getV_putLanes s d g hact n hl
  obtain ⟨v, hv⟩ := putLanes_eq_withV s d (act.map (fun p => (p, g p)))
  rw [hv] at hget ⊢
  refine lanesWritten_withV (fun l hl => ?_) (fun n l hl h => ?_)
  · have hlow : (wd (g l)).setWidth 32 = BitVec.ofNat 32 (g l) := by
      rw [wd, BitVec.setWidth_ofNat_of_le (by decide)]
    show getV _ d l = _
    rw [hget d (hact l hl), if_pos ⟨rfl, hl⟩, hlow]
  · rw [hget n hl, if_neg]
    rintro ⟨rfl, hmem⟩
    exact h.elim (fun hn => hn (List.mem_singleton_self n)) (fun hn => hn hmem)

/-- A 64-bit element of two 32-bit numbers. -/
theorem wd_pair {x y : Nat} (hx : x < 2 ^ 32) : wd (x + 2 ^ 32 * y) = BitVec.ofNat 32 y ++ BitVec.ofNat 32 x := by
  apply BitVec.eq_of_toNat_eq
  rw [BitVec.toNat_append, ← Nat.shiftLeft_add_eq_or_of_lt (BitVec.isLt _), Nat.shiftLeft_eq, wd]
  simp only [BitVec.toNat_ofNat]
  omega

/-- Lane indices in two registers, one above the other, are elements of type N64. -/
theorem lanesWritten_putLanes_pair (s : State) (d : Nat) (g h : Nat → Nat) {act : List Nat} (hact : ∀ l ∈ act, l < 64)
    (hg : ∀ l ∈ act, g l < 2 ^ 32) :
    LanesWritten s
      (advance (putLanes (putLanes s d (act.map (fun p => (p, g p)))) (d + 1) (act.map (fun p => (p, h p))))) 3 d act
      (fun p => { val := wd (g p + 2 ^ 32 * h p) }) := by
  have hget : ∀ n {l}, l < 64 →
      getV (putLanes (putLanes s d (act.map (fun p => (p, g p)))) (d + 1) (act.map (fun p => (p, h p)))) n l =
        if n = d + 1 ∧ l ∈ act then BitVec.ofNat 32 (h l)
        else if n = d ∧ l ∈ act then BitVec.ofNat 32 (g l) else getV s n l := fun n l hl => by
    rw [getV_putLanes _ _ h hact n hl, getV_putLanes s d g hact n hl]
  obtain ⟨v, hv⟩ := putLanes_eq_withV s d (act.map (fun p => (p, g p)))
  obtain ⟨u, hu⟩ := putLanes_eq_withV (putLanes s d (act.map (fun p => (p, g p)))) (d + 1) (act.map (fun p => (p, h p)))
  have hboth : withV (withV s v) u = withV s u := rfl
  rw [hu, hv, hboth] at hget ⊢
  refine lanesWritten_withV (fun l hl => ?_) (fun n l hl hn => ?_)
  · show getV2 _ d l = _
    rw [getV2, hget _ (hact l hl), hget _ (hact l hl), if_pos ⟨rfl, hl⟩, if_neg (by omega), if_pos ⟨rfl, hl⟩,
      wd_pair (hg l hl)]
  · have hpair : regs (is64 3) d = [d, d + 1] := rfl
    rw [hpair] at hn
    have h1 : ¬ (n = d + 1 ∧ l ∈ act) := fun ⟨e, hmem⟩ => by simp [e, hmem] at hn
    have h0 : ¬ (n = d ∧ l ∈ act) := fun ⟨e, hmem⟩ => by simp [e, hmem] at hn
    rw [hget n hl, if_neg h1, if_neg h0]

/-! ### Completion -/

/-- Where no lane met an event, no trap follows. -/
theorem lanesOut_plain (s t : State) (i : Instr) (act : List Nat) (g : Nat → Word) :
    lanesOut s t i act (fun l => { val := g l }) = t := by simp [lanesOut]

/-- An instruction whose own rule is the end of a vector instruction over the active lanes completes. -/
theorem completesLanes_of_lanesEnd {i : Instr} {u : Use} {r : State → Issue} {s : State} {et d : Nat} {f : Nat → LRes}
    (h : ready u s = true) (hu : u.eng = false) (hx : exec i s = run i u r s)
    (hr : r s = lanesEnd s i et d ((activeLanes s).map (fun l => (l, f l)))) :
    completesLanes s i et d (activeLanes s) f := by
  obtain ⟨t, hset, hw⟩ :=
    lanesEnd_written s i et d (activeLanes s) f (activeLanes_lt s) (activeLanes_nodup s) (ready_sheaf h hu)
  exact ⟨t, by rw [hx, run_ready i r h, hr, hset], hw⟩

/-- An instruction whose own rule goes on with its plain lane results written completes. -/
theorem completesLanes_of_done {i : Instr} {u : Use} {r : State → Issue} {s t : State} {et d : Nat} {g : Nat → Word}
    (h : ready u s = true) (hx : exec i s = run i u r s) (hr : r s = .done t)
    (hw : LanesWritten s t et d (activeLanes s) (fun l => { val := g l })) :
    completesLanes s i et d (activeLanes s) (fun l => { val := g l }) :=
  ⟨t, by rw [hx, run_done i r h hr, lanesOut_plain], hw⟩

/-! ### SORT and SORTI (R190, R191) -/

section
variable {s : State} {d a : Nat}

theorem exec_sort_illegal (h : ready { vr := regs (is64 (etOf s)) a, vw := regs (is64 (etOf s)) d } s = true)
    (hbad : ¬((okKey (etOf s) = true ∧ (is64 (etOf s) = true → a % 2 = 0)) ∧ (is64 (etOf s) = true → d % 2 = 0))) :
    exec (.sort d a) s = .next (raiseTrap s (illegalTrap s (word0 (.sort d a)))) := by
  have hrefuse : okKey (etOf s) = false ∨ (is64 (etOf s) = true ∧ (a % 2 = 1 ∨ d % 2 = 1)) := by grind
  rw [exec_sort]
  exact run_illegal _ _ h (if_pos hrefuse)

theorem exec_sorti_illegal (h : ready { vr := regs (is64 (etOf s)) a, vw := [d] } s = true)
    (hbad : ¬(okKey (etOf s) = true ∧ (is64 (etOf s) = true → a % 2 = 0))) :
    exec (.sorti d a) s = .next (raiseTrap s (illegalTrap s (word0 (.sorti d a)))) := by
  have hrefuse : okKey (etOf s) = false ∨ (is64 (etOf s) = true ∧ a % 2 = 1) := by grind
  rw [exec_sorti]
  exact run_illegal _ _ h (if_pos hrefuse)

theorem exec_sort_completes (hk : okKey (etOf s) = true) (ha : is64 (etOf s) = true → a % 2 = 0)
    (h : ready { vr := regs (is64 (etOf s)) a, vw := regs (is64 (etOf s)) d } s = true)
    (hd : is64 (etOf s) = true → d % 2 = 0) :
    completesLanes s (.sort d a) (etOf s) d (activeLanes s)
      (fun p => { val := rawV s (etOf s) a (lanesByRank (keysOf s a) p) }) :=
  completesLanes_of_lanesEnd h rfl (exec_sort ..) (if_neg (by grind))

theorem exec_sorti_completes (hk : okKey (etOf s) = true) (ha : is64 (etOf s) = true → a % 2 = 0)
    (h : ready { vr := regs (is64 (etOf s)) a, vw := [d] } s = true) :
    completesLanes s (.sorti d a) 1 d (activeLanes s) (fun p => { val := wd (lanesByRank (keysOf s a) p) }) :=
  completesLanes_of_done h (exec_sorti ..) (if_neg (by grind)) (lanesWritten_putLanes s d _ (activeLanes_lt s))

end

/-! ### MRGLO, MRGHI and MRGI (R190, R192, R193) -/

section
variable {s : State} {i : Instr} {d a b : Nat} {off : State → Nat}

theorem mergeHalf_illegal
    (h : ready { vr := regs (is64 (etOf s)) a ++ regs (is64 (etOf s)) b, vw := regs (is64 (etOf s)) d } s = true)
    (hbad : ¬((okKey (etOf s) = true ∧ (is64 (etOf s) = true → a % 2 = 0 ∧ b % 2 = 0)) ∧
      (is64 (etOf s) = true → d % 2 = 0))) :
    mergeHalf i d a b off s = .next (raiseTrap s (illegalTrap s (word0 i))) := by
  have hrefuse : okKey (etOf s) = false ∨ (is64 (etOf s) = true ∧ (a % 2 = 1 ∨ b % 2 = 1 ∨ d % 2 = 1)) := by grind
  exact run_illegal _ _ h (if_pos hrefuse)

theorem exec_mrgi_illegal
    (h : ready { vr := regs (is64 (etOf s)) a ++ regs (is64 (etOf s)) b, vw := [d, d + 1] } s = true)
    (hbad : ¬((okKey (etOf s) = true ∧ (is64 (etOf s) = true → a % 2 = 0 ∧ b % 2 = 0)) ∧ d % 2 = 0)) :
    exec (.mrgi d a b) s = .next (raiseTrap s (illegalTrap s (word0 (.mrgi d a b)))) := by
  have hrefuse : okKey (etOf s) = false ∨ d % 2 = 1 ∨ (is64 (etOf s) = true ∧ (a % 2 = 1 ∨ b % 2 = 1)) := by grind
  rw [exec_mrgi]
  exact run_illegal _ _ h (if_pos hrefuse)

theorem mergeHalf_completes (hk : okKey (etOf s) = true) (hab : is64 (etOf s) = true → a % 2 = 0 ∧ b % 2 = 0)
    (h : ready { vr := regs (is64 (etOf s)) a ++ regs (is64 (etOf s)) b, vw := regs (is64 (etOf s)) d } s = true)
    (hd : is64 (etOf s) = true → d % 2 = 0) (hx : exec i s = mergeHalf i d a b off s) :
    completesLanes s i (etOf s) d (activeLanes s)
      (fun p => { val := mergeElem s a b ((mergeOf s a b).getD (off s + p) 0) }) :=
  completesLanes_of_lanesEnd h rfl hx (if_neg (by grind))

theorem exec_mrgi_completes (hk : okKey (etOf s) = true) (hab : is64 (etOf s) = true → a % 2 = 0 ∧ b % 2 = 0)
    (h : ready { vr := regs (is64 (etOf s)) a ++ regs (is64 (etOf s)) b, vw := [d, d + 1] } s = true) (hd : d % 2 = 0) :
    completesLanes s (.mrgi d a b) 3 d (activeLanes s)
      (fun p => { val := wd ((mergeOf s a b).getD p 0 + 2 ^ 32 * (mergeOf s a b).getD (wOf s + p) 0) }) := by
  have hsrc : ∀ l ∈ activeLanes s, (mergeOf s a b).getD l 0 < 2 ^ 32 := fun l hl => by
    obtain ⟨hlw, -⟩ := (mem_activeLanes s l).1 hl
    have hlt := mergeOf_getD_lt s a b (p := l) (by omega)
    have hw := wOf_le s
    omega
  exact completesLanes_of_done h (exec_mrgi ..) (if_neg (by grind))
    (lanesWritten_putLanes_pair s d _ _ (activeLanes_lt s) hsrc)

end

/-! ### Words (02) -/

/-- The words of the sorts and the merges, each with its major opcode. -/
theorem decodeWord_sorts (w w1 : Nat) :
    (fld w 31 25 = 0x59 → decodeWord w w1 = zeroBits (fld w 8 0) (.sort (fld w 24 17) (fld w 16 9))) ∧
    (fld w 31 25 = 0x5A → decodeWord w w1 = zeroBits (fld w 8 0) (.sorti (fld w 24 17) (fld w 16 9))) ∧
    (fld w 31 25 = 0x5B → decodeWord w w1 = formA0 w .mrglo) ∧ (fld w 31 25 = 0x5C → decodeWord w w1 = formA0 w .mrghi) ∧
    (fld w 31 25 = 0x5D → decodeWord w w1 = formA0 w .mrgi) := by
  unfold decodeWord
  refine ⟨?_, ?_, ?_, ?_, ?_⟩ <;> intro h <;> rw [h] <;> rfl

/-! ### The obligation -/

/-- Settles O28: ranks number the lanes in order, and the model's source indices follow the rule's procedure step by step. -/
theorem sortingAndMerging : Obligations.SortingAndMerging := by
  refine ⟨?sorts, ?merges, ?words⟩
  case sorts =>
    intro s d a
    refine ⟨exec_sort_illegal, exec_sorti_illegal, fun ⟨hk, ha⟩ => ?_⟩
    obtain ⟨hlane, hsorted⟩ := lanesByRank_keysOf s a
    exact ⟨lanesByRank (keysOf s a), hlane, hsorted, exec_sort_completes hk ha, exec_sorti_completes hk ha⟩
  case merges =>
    intro s d a b
    refine ⟨fun h hbad => ⟨(exec_mrglo ..).trans (mergeHalf_illegal h hbad), (exec_mrghi ..).trans (mergeHalf_illegal h hbad)⟩,
      exec_mrgi_illegal, fun ⟨hk, hab⟩ => ?_⟩
    refine ⟨fun p => (mergeOf s a b).getD p 0, fun p => (takenAt (wOf s) (keysOf s a) (keysOf s b) p).1,
      fun p => (takenAt (wOf s) (keysOf s a) (keysOf s b) p).2, rfl, rfl, mergeOf_procedure s a b,
      fun h hd => ⟨?_, mergeHalf_completes hk hab h hd (exec_mrghi ..)⟩, exec_mrgi_completes hk hab⟩
    simpa only [Nat.zero_add, mergeElem] using mergeHalf_completes (off := fun _ => 0) hk hab h hd (exec_mrglo d a b s)
  case words =>
    intro w w1
    obtain ⟨hsort, hsorti, hlo, hhi, hmrgi⟩ := decodeWord_sorts w w1
    exact ⟨fun h hz => (hsort h).trans (zeroBits_zero hz _), fun h hz => (hsorti h).trans (zeroBits_zero hz _),
      fun h hz => (hlo h).trans (zeroBits_zero hz _), fun h hz => (hhi h).trans (zeroBits_zero hz _),
      fun h hz => (hmrgi h).trans (zeroBits_zero hz _)⟩

end Sys2Proof.Machine
end

section
/-!
PROOFS. Reconstruction (R221, R222): the mixed-radix rebuilding is the Chinese remainder theorem, so that true residues are judged
GOOD in every mode, and in full range one wrong channel is found by the one exclusion that is legitimate and corrected.
-/
namespace Sys2Proof.Machine

open Sys2Proof

/-! ### Residues (R9) -/

theorem cast_modN (x : Int) {m : Nat} (hm : 0 < m) : (modN x m : Int) = x % m :=
  Int.toNat_of_nonneg (Int.emod_nonneg x (by omega))

theorem modN_lt (x : Int) {m : Nat} (hm : 0 < m) : modN x m < m := by
  have hcast := cast_modN x hm
  have hlt : x % m < m := Int.emod_lt_of_pos x (by omega)
  omega

theorem modN_natCast (v m : Nat) : modN v m = v % m := by
  rw [modN, ← Int.natCast_emod, Int.toNat_natCast]

/-- A multiple of the modulus leaves the residue as it is. -/
theorem modN_sub_of_dvd (x : Int) {p m : Nat} (h : m ∣ p) : modN (x - p) m = modN x m := by
  obtain ⟨c, rfl⟩ := h
  rw [modN, modN, Int.natCast_mul, Int.sub_mul_emod_self_left]

theorem dvd_sub_of_modN_eq {x y : Int} {m : Nat} (hm : 0 < m) (h : modN x m = modN y m) : (m : Int) ∣ x - y := by
  have hx := cast_modN x hm
  have hy := cast_modN y hm
  exact Int.dvd_of_emod_eq_zero (Int.emod_eq_emod_iff_emod_sub_eq_zero.1 (by omega))

/-! ### Inverses (R221) -/

/-- The greatest common divisor is a sum of multiples (Bezout). -/
theorem exists_bezout (a b : Nat) : ∃ x y : Int, a * x + b * y = Nat.gcd a b := by
  induction a, b using Nat.gcd.induction with
  | H0 b => exact ⟨0, 1, by rw [Nat.gcd_zero_left]; omega⟩
  | H1 a b _ ih =>
    obtain ⟨x, y, hxy⟩ := ih
    refine ⟨y - (b / a : Nat) * x, x, ?_⟩
    have hdiv : (b : Int) = a * (b / a : Nat) + (b % a : Nat) := by
      rw [← Int.natCast_mul, ← Int.natCast_add, Nat.div_add_mod]
    rw [Nat.gcd_rec, ← hxy]
    grind

theorem exists_mul_mod_eq_one {a m : Nat} (h : a.Coprime m) (hm : 0 < m) : ∃ i, i < m ∧ a * i % m = 1 % m := by
  obtain ⟨x, y, hxy⟩ := exists_bezout a m
  rw [h.gcd_eq_one] at hxy
  refine ⟨modN x m, modN_lt x hm, Int.ofNat_inj.1 ?_⟩
  rw [Int.natCast_emod, Int.natCast_mul, cast_modN x hm, Int.natCast_emod, ← hxy, Int.add_mul_emod_self_left,
    Int.mul_emod, Int.emod_emod, ← Int.mul_emod]

theorem mul_invMod {a m : Nat} (h : a.Coprime m) (hm : 0 < m) : a * invMod a m % m = 1 % m := by
  obtain ⟨i, hi, hinv⟩ := exists_mul_mod_eq_one h hm
  have hsome : ((List.range m).find? (fun i => a * i % m = 1 % m)).isSome :=
    List.find?_isSome.2 ⟨i, List.mem_range.2 hi, decide_eq_true hinv⟩
  obtain ⟨b, hb⟩ := Option.isSome_iff_exists.1 hsome
  have htrue := List.find?_some hb
  rw [invMod, hb]
  exact of_decide_eq_true htrue

/-! ### The mixed-radix sum (R221) -/

/-- One mixed-radix digit brings v to the residue x of the next channel. -/
theorem crt_digit_mod {x m v p : Nat} (hm : 0 < m) (hp : p.Coprime m) :
    (v + modN ((x : Int) - v) m * invMod (p % m) m % m * p) % m = x % m := by
  have hinv : p * invMod (p % m) m % m = 1 % m := by
    have hcop : (p % m).Coprime m := by rwa [Nat.Coprime, ← Nat.gcd_rec, Nat.gcd_comm]
    rw [← Nat.mod_mul_mod, mul_invMod hcop hm]
  have hstep : (v + modN ((x : Int) - v) m) % m = x % m := by
    refine Int.ofNat_inj.1 ?_
    rw [Int.natCast_emod, Int.natCast_add, cast_modN _ hm, Int.add_emod_emod, Int.natCast_emod]
    congr 1
    omega
  generalize modN ((x : Int) - v) m = d at hstep ⊢
  generalize invMod (p % m) m = e at hinv ⊢
  calc (v + d * e % m * p) % m = (v + d * (p * e % m)) % m := by
        rw [Nat.add_mod, Nat.mod_mul_mod, ← Nat.add_mod, Nat.mul_assoc, Nat.mul_comm e, Nat.add_mod, ← Nat.mul_mod_mod,
          ← Nat.add_mod]
    _ = (v + d * 1) % m := by rw [hinv, Nat.add_mod, Nat.mul_mod_mod, ← Nat.add_mod]
    _ = x % m := by rw [Nat.mul_one, hstep]

theorem crtGo_snd (l : List (Nat × Nat)) (v p : Nat) : (crtGo l v p).2 = p * (l.map Prod.snd).prod := by
  induction l generalizing v p with
  | nil => exact (Nat.mul_one p).symm
  | cons q r ih => rw [crtGo, ih, List.map_cons, List.prod_cons, Nat.mul_assoc]

theorem crtGo_lt {l : List (Nat × Nat)} {v p : Nat} (hl : ∀ q ∈ l, 0 < q.2) (hv : v < p) :
    (crtGo l v p).1 < (crtGo l v p).2 := by
  induction l generalizing v p with
  | nil => exact hv
  | cons q r ih =>
    obtain ⟨hm, hr⟩ := List.forall_mem_cons.1 hl
    refine ih hr ?_
    calc _ < p + _ := Nat.add_lt_add_right hv _
      _ = (_ + 1) * p := by rw [Nat.succ_mul, Nat.add_comm]
      _ ≤ q.2 * p := Nat.mul_le_mul_right p (Nat.mod_lt _ hm)
      _ = p * q.2 := Nat.mul_comm ..

/-- Later digits change the sum by multiples of the product so far. -/
theorem crtGo_mod_start (l : List (Nat × Nat)) {v p m : Nat} (hm : m ∣ p) : (crtGo l v p).1 % m = v % m := by
  induction l generalizing v p with
  | nil => rfl
  | cons q r ih =>
    rw [crtGo, ih (Nat.dvd_mul_right_of_dvd hm _)]
    obtain ⟨c, rfl⟩ := hm
    rw [Nat.mul_left_comm, Nat.add_mul_mod_self_left]

theorem crtGo_mod {l : List (Nat × Nat)} {v p : Nat} (hl : l.Pairwise (fun q t => q.2.Coprime t.2))
    (hp : ∀ q ∈ l, 0 < q.2 ∧ p.Coprime q.2) : ∀ q ∈ l, (crtGo l v p).1 % q.2 = q.1 % q.2 := by
  induction l generalizing v p with
  | nil => exact fun _ h => absurd h List.not_mem_nil
  | cons q r ih =>
    obtain ⟨hqr, hr⟩ := List.pairwise_cons.1 hl
    obtain ⟨⟨hm, hpq⟩, hpr⟩ := List.forall_mem_cons.1 hp
    refine List.forall_mem_cons.2 ⟨?_, ih hr fun t ht => ⟨(hpr t ht).1, (hpr t ht).2.mul_left (hqr t ht)⟩⟩
    rw [crtGo, crtGo_mod_start r (Nat.dvd_mul_left ..), crt_digit_mod hm hpq]

/-! ### Products -/

theorem dvd_prod_of_mem {l : List Nat} {n : Nat} (h : n ∈ l) : n ∣ l.prod := by
  obtain ⟨l, r, rfl⟩ := List.append_of_mem h
  rw [List.prod_append_nat, List.prod_cons]
  exact Nat.dvd_mul_left_of_dvd (Nat.dvd_mul_right ..) _

theorem coprime_prod {l : List Nat} {n : Nat} (h : ∀ m ∈ l, n.Coprime m) : n.Coprime l.prod := by
  induction l with
  | nil => exact Nat.coprime_one_right n
  | cons m r ih =>
    obtain ⟨hm, hr⟩ := List.forall_mem_cons.1 h
    rw [List.prod_cons]
    exact hm.mul_right (ih hr)

/-- What pairwise coprime numbers divide, their product divides. -/
theorem prod_dvd_of_coprime {l : List Nat} {n : Nat} (hl : l.Pairwise Nat.Coprime) (h : ∀ m ∈ l, m ∣ n) : l.prod ∣ n := by
  induction l with
  | nil => exact Nat.one_dvd n
  | cons m r ih =>
    obtain ⟨hmr, hr⟩ := List.pairwise_cons.1 hl
    obtain ⟨hm, hn⟩ := List.forall_mem_cons.1 h
    rw [List.prod_cons]
    exact (coprime_prod hmr).mul_dvd_of_dvd_of_dvd hm (ih hr hn)

theorem prod_mod_two {l : List Nat} (h : ∀ m ∈ l, m % 2 = 1) : l.prod % 2 = 1 := by
  induction l with
  | nil => rfl
  | cons m r ih =>
    obtain ⟨hm, hr⟩ := List.forall_mem_cons.1 h
    rw [List.prod_cons, Nat.mul_mod, hm, ih hr]

/-! ### The signed integer (R221) -/

section
variable {l : List (Nat × Nat)}

/-- The signed integer lies in the half range of an odd product on either side of zero. -/
theorem two_mul_natAbs_crt_lt (hl : ∀ q ∈ l, 0 < q.2) (hodd : (l.map Prod.snd).prod % 2 = 1) :
    2 * (crt l).natAbs < (l.map Prod.snd).prod := by
  have hlt := crtGo_lt hl Nat.zero_lt_one
  have hprod := crtGo_snd l 0 1
  simp only [crt]
  split <;> omega

theorem modN_crt (hl : l.Pairwise (fun q t => q.2.Coprime t.2)) (hm : ∀ q ∈ l, 0 < q.2) {q : Nat × Nat} (hq : q ∈ l) :
    modN (crt l) q.2 = q.1 % q.2 := by
  have hgo : modN (crtGo l 0 1).1 q.2 = q.1 % q.2 := by
    rw [modN_natCast, crtGo_mod hl (fun t ht => ⟨hm t ht, Nat.coprime_one_left _⟩) q hq]
  have hdvd : q.2 ∣ (crtGo l 0 1).2 := by
    rw [crtGo_snd, Nat.one_mul]
    exact dvd_prod_of_mem (List.mem_map_of_mem hq)
  simp only [crt]
  split
  · rw [modN_sub_of_dvd _ hdvd, hgo]
  · exact hgo

end

/-! ### Channels (R194, R195) -/

/-- Distinct logical channels. -/
structure Channels (chans : List Nat) : Prop where
  nodup : chans.Nodup
  lt_ten : ∀ k ∈ chans, k < 10

/-- The product of the moduli of some channels. -/
def chanProd (chans : List Nat) : Nat := (chans.map modulus).prod

/-- Some channels hold the residues of an integer. -/
def Agrees (res : List Nat) (chans : List Nat) (v : Int) : Prop := ∀ k ∈ chans, res.getD k 0 = modN v (modulus k)

/-- Some channels hold residues below their moduli. -/
def Reduced (res : List Nat) (chans : List Nat) : Prop := ∀ k ∈ chans, res.getD k 0 < modulus k

theorem modulus_pos : ∀ k < 10, 0 < modulus k := by decide

theorem modulus_mod_two : ∀ k < 10, modulus k % 2 = 1 := by decide

theorem coprime_modulus : ∀ i < 10, ∀ j < 10, i ≠ j → (modulus i).Coprime (modulus j) := by decide

theorem channels_modeChans (mode : Nat) : Channels (modeChans mode) := by
  unfold modeChans infoChans checkChans
  split <;> exact ⟨by decide, by decide⟩

theorem mem_modeChans {mode k : Nat} : k ∈ modeChans mode ↔ k ∈ infoChans mode ∨ k ∈ checkChans mode := List.mem_append

section
variable {chans : List Nat}

theorem Channels.pairwise_coprime (h : Channels chans) :
    chans.Pairwise (fun i j => (modulus i).Coprime (modulus j)) :=
  h.nodup.imp_of_mem fun hi hj hne => coprime_modulus _ (h.lt_ten _ hi) _ (h.lt_ten _ hj) hne

theorem Channels.sublist {part : List Nat} (h : Channels chans) (hs : part.Sublist chans) : Channels part :=
  ⟨h.nodup.sublist hs, fun k hk => h.lt_ten k (hs.subset hk)⟩

theorem Channels.modulus_pos (h : Channels chans) {k : Nat} (hk : k ∈ chans) : 0 < modulus k :=
  Machine.modulus_pos k (h.lt_ten k hk)

theorem Channels.chanProd_mod_two (h : Channels chans) : chanProd chans % 2 = 1 :=
  prod_mod_two (List.forall_mem_map.2 fun k hk => modulus_mod_two k (h.lt_ten k hk))

theorem channels_infoChans (mode : Nat) : Channels (infoChans mode) :=
  (channels_modeChans mode).sublist (List.sublist_append_left ..)

/-! ### Rebuilding (R221) -/

variable {res : List Nat} {u v : Int}

/-- The Chinese remainder theorem: what some channels say fixes an integer up to the product of their moduli. -/
theorem eq_of_agrees (h : Channels chans) (hu : Agrees res chans u) (hv : Agrees res chans v)
    (hlt : (u - v).natAbs < chanProd chans) : u = v := by
  have hdvd : chanProd chans ∣ (u - v).natAbs := prod_dvd_of_coprime (List.pairwise_map.2 h.pairwise_coprime) <|
    List.forall_mem_map.2 fun k hk =>
      Int.ofNat_dvd_left.1 (dvd_sub_of_modN_eq (h.modulus_pos hk) ((hu k hk).symm.trans (hv k hk)))
  have hzero := Nat.eq_zero_of_dvd_of_lt hdvd hlt
  omega

theorem Agrees.reduced (h : Channels chans) (hv : Agrees res chans v) : Reduced res chans := fun k hk => by
  rw [hv k hk]
  exact modN_lt v (h.modulus_pos hk)

/-- The (residue, modulus) pairs that the rebuilding takes. -/
def residuePairs (res chans : List Nat) : List (Nat × Nat) := chans.map (fun k => (res.getD k 0, modulus k))

theorem pos_of_mem_residuePairs (h : Channels chans) : ∀ q ∈ residuePairs res chans, 0 < q.2 :=
  List.forall_mem_map.2 fun _ hk => h.modulus_pos hk

theorem prod_residuePairs (res chans : List Nat) : ((residuePairs res chans).map Prod.snd).prod = chanProd chans := by
  rw [residuePairs, List.map_map]
  rfl

theorem agrees_rebuild (h : Channels chans) (hres : Reduced res chans) : Agrees res chans (rebuild res chans) := by
  intro k hk
  have hmod := modN_crt (q := (res.getD k 0, modulus k)) (List.pairwise_map.2 h.pairwise_coprime)
    (pos_of_mem_residuePairs h) (List.mem_map_of_mem hk)
  exact (hmod.trans (Nat.mod_eq_of_lt (hres k hk))).symm

theorem two_mul_natAbs_rebuild_lt (h : Channels chans) : 2 * (rebuild res chans).natAbs < chanProd chans := by
  have hlt := two_mul_natAbs_crt_lt (pos_of_mem_residuePairs (res := res) h)
  rw [prod_residuePairs] at hlt
  exact hlt h.chanProd_mod_two

theorem rebuild_eq_of_agrees (h : Channels chans) (hv : Agrees res chans v) (hlt : 2 * v.natAbs < chanProd chans) :
    rebuild res chans = v := by
  have hr := two_mul_natAbs_rebuild_lt (res := res) h
  exact eq_of_agrees h (agrees_rebuild h (hv.reduced h)) hv (by omega)

end

/-! ### The signed range (R195, R197) -/

theorem rangeProd_eq_chanProd (mode : Nat) : rangeProd mode = chanProd (infoChans mode) := by
  rw [rangeProd, chanProd, List.prod_eq_foldl, List.foldl_map]

theorem inRange_iff (mode : Nat) (v : Int) : inRange mode v = true ↔ 2 * v.natAbs < chanProd (infoChans mode) := by
  have hodd := (channels_infoChans mode).chanProd_mod_two
  rw [inRange, rangeProd_eq_chanProd, Bool.and_eq_true, decide_eq_true_iff, decide_eq_true_iff]
  omega

theorem legit_iff {mode w : Nat} {v : Int} : legit mode v w = true ↔ inRange mode v = true ∧ boundedBy v w = true :=
  Bool.and_eq_true_iff

/-! ### Judging (R221) -/

/-- The check channels of a mode confirm the integer that its information channels give, and below the threshold so does the
witness. -/
def Consistent (mode : Nat) (res : List Nat) (w : Nat) : Prop :=
  (∀ k ∈ checkChans mode, modN (rebuild res (infoChans mode)) (modulus k) = res.getD k 0) ∧
    (w < threshold mode → legit mode (rebuild res (infoChans mode)) w = true)

/-- The channels of a full-range element but one, which an exclusion rebuilds from. -/
def otherChans (j : Nat) : List Nat := (modeChans 0).filter (· ≠ j)

section
variable {mode w : Nat} {res : List Nat}

/-- The thresher's test (R221). -/
theorem consistent_iff : Consistent mode res w ↔
    (let ok := (checkChans mode).all (fun k => modN (rebuild res (infoChans mode)) (modulus k) = res.getD k 0)
      if w < threshold mode then ok && legit mode (rebuild res (infoChans mode)) w else ok) = true := by
  unfold Consistent
  by_cases hw : w < threshold mode
  · simp only [hw, if_pos, true_implies, Bool.and_eq_true, List.all_eq_true, decide_eq_true_eq]
  · simp only [hw, if_false, false_implies, and_true, List.all_eq_true, decide_eq_true_eq]

theorem judge_of_consistent (h : Consistent mode res w) :
    judge mode res w = (.good (rebuild res (infoChans mode)), false) :=
  if_pos (consistent_iff.1 h)

/-- An inconsistent full-range element below the threshold is corrected where one exclusion alone is legitimate. -/
theorem judge_of_single_exclusion {j : Nat} (hw : w < threshold 0) (h : ¬Consistent 0 res w)
    (hcand : (List.range 10).filter (fun j => legit 0 (rebuild res (otherChans j)) w) = [j]) :
    judge 0 res w = (.corr (rebuild res (otherChans j)) j, false) := by
  unfold otherChans at hcand ⊢
  unfold judge
  dsimp only
  rw [if_neg (mt consistent_iff.2 h), if_neg (Nat.not_le.2 hw), if_neg (fun hne => hne rfl), hcand]

/-- An integer of the mode's range that the witness allows is what its residues give, in every mode. -/
theorem consistent_of_agrees {v : Int} (hrange : inRange mode v = true)
    (hbound : w < threshold mode → boundedBy v w = true) (hres : Agrees res (modeChans mode) v) :
    rebuild res (infoChans mode) = v ∧ Consistent mode res w := by
  have hinfo : Agrees res (infoChans mode) v := fun k hk => hres k (mem_modeChans.2 (.inl hk))
  have hx := rebuild_eq_of_agrees (channels_infoChans mode) hinfo ((inRange_iff mode v).1 hrange)
  refine ⟨hx, fun k hk => ?_, fun hw => ?_⟩ <;> rw [hx]
  · exact (hres k (mem_modeChans.2 (.inr hk))).symm
  · exact legit_iff.2 ⟨hrange, hbound hw⟩

/-- The integer that the channels of a consistent element give agrees with all of them. -/
theorem Consistent.agrees (h : Consistent mode res w) (hres : Reduced res (modeChans mode)) :
    Agrees res (modeChans mode) (rebuild res (infoChans mode)) := by
  intro k hk
  rcases mem_modeChans.1 hk with hinfo | hcheck
  · exact agrees_rebuild (channels_infoChans mode) (fun i hi => hres i (mem_modeChans.2 (.inl hi))) k hinfo
  · exact (h.1 k hcheck).symm

end

/-! ### Exclusions in full range (R221, R222) -/

theorem filter_range_eq_singleton {n k : Nat} {p : Nat → Bool} (hk : k < n) (hp : p k = true)
    (huniq : ∀ j < n, p j = true → j = k) : (List.range n).filter p = [k] := by
  have hiff : ∀ j ∈ List.range n, p j = (j == k) := fun j hj =>
    Bool.eq_iff_iff.2 ⟨fun h => beq_iff_eq.2 (huniq j (List.mem_range.1 hj) h), fun h => beq_iff_eq.1 h ▸ hp⟩
  rw [List.filter_congr hiff, List.filter_beq, List.nodup_range.count, if_pos (List.mem_range.2 hk)]
  rfl

theorem modeChans_zero : modeChans 0 = List.range 10 := rfl

theorem mem_modeChans_zero (k : Nat) : k ∈ modeChans 0 ↔ k < 10 := by
  rw [modeChans_zero, List.mem_range]

theorem mem_otherChans {j k : Nat} : k ∈ otherChans j ↔ k < 10 ∧ k ≠ j := by
  rw [otherChans, List.mem_filter, mem_modeChans_zero, decide_eq_true_iff]

theorem channels_otherChans (j : Nat) : Channels (otherChans j) := (channels_modeChans 0).sublist List.filter_sublist

/-- Nine channels span at least the signed range, and so do the eight that two exclusions share: both check moduli exceed every
information modulus. -/
theorem chanProd_infoChans_le_otherChans : ∀ j < 10, chanProd (infoChans 0) ≤ chanProd (otherChans j) := by decide

theorem chanProd_infoChans_le_shared :
    ∀ i < 10, ∀ j < 10, chanProd (infoChans 0) ≤ chanProd ((otherChans i).filter (· ≠ j)) := by decide

section
variable {res : List Nat} {u v : Int} {w i j k : Nat}

/-- Two integers of the signed range that agree with the element but for one channel each are equal. -/
theorem eq_of_agrees_otherChans (hi : i < 10) (hj : j < 10) (hu : Agrees res (otherChans i) u)
    (hv : Agrees res (otherChans j) v) (hru : inRange 0 u = true) (hrv : inRange 0 v = true) : u = v := by
  rw [inRange_iff] at hru hrv
  have hshared := chanProd_infoChans_le_shared i hi j hj
  refine eq_of_agrees (chans := (otherChans i).filter (· ≠ j)) (res := res)
    ((channels_otherChans i).sublist List.filter_sublist) (fun k hk => ?_) (fun k hk => ?_) (by omega)
  · exact hu k (List.mem_filter.1 hk).1
  · obtain ⟨hk, hkj⟩ := List.mem_filter.1 hk
    exact hv k (mem_otherChans.2 ⟨(mem_otherChans.1 hk).1, of_decide_eq_true hkj⟩)

/-- No two exclusions are legitimate where the element is inconsistent: they would give one integer, which every channel
confirms. -/
theorem eq_of_legit_exclusions (hres : Reduced res (modeChans 0)) (hincon : ¬Consistent 0 res w) (hi : i < 10)
    (hj : j < 10) (hli : legit 0 (rebuild res (otherChans i)) w = true)
    (hlj : legit 0 (rebuild res (otherChans j)) w = true) : i = j := by
  have hai := agrees_rebuild (channels_otherChans i) (fun k hk => hres k (List.mem_filter.1 hk).1)
  have haj := agrees_rebuild (channels_otherChans j) (fun k hk => hres k (List.mem_filter.1 hk).1)
  obtain ⟨hri, hbi⟩ := legit_iff.1 hli
  obtain ⟨hrj, -⟩ := legit_iff.1 hlj
  have heq := eq_of_agrees_otherChans hi hj hai haj hri hrj
  by_cases hij : i = j
  · exact hij
  refine absurd (consistent_of_agrees hri (fun _ => hbi) fun k hk => ?_).2 hincon
  have hk := (mem_modeChans_zero k).1 hk
  by_cases hki : k = i
  · rw [heq]
    exact haj k (mem_otherChans.2 ⟨hk, hki ▸ hij⟩)
  · exact hai k (mem_otherChans.2 ⟨hk, hki⟩)

/-- An element is inconsistent where all its residues but one are those of a legitimate integer. -/
theorem not_consistent_of_wrong_residue (hw : w < threshold 0) (hv : legit 0 v w = true) (hk : k < 10)
    (hright : Agrees res (otherChans k) v) (hres : Reduced res (modeChans 0)) (hwrong : res.getD k 0 ≠ modN v (modulus k)) :
    ¬Consistent 0 res w := by
  intro hcon
  have hall := hcon.agrees hres
  have heq := eq_of_agrees_otherChans hk hk (fun i hi => hall i (List.mem_filter.1 hi).1) hright
    (legit_iff.1 (hcon.2 hw)).1 (legit_iff.1 hv).1
  rw [heq] at hall
  exact hwrong (hall k ((mem_modeChans_zero k).2 hk))

theorem rebuild_otherChans (hk : k < 10) (hright : Agrees res (otherChans k) v) (hv : inRange 0 v = true) :
    rebuild res (otherChans k) = v :=
  rebuild_eq_of_agrees (channels_otherChans k) hright
    (Nat.lt_of_lt_of_le ((inRange_iff 0 v).1 hv) (chanProd_infoChans_le_otherChans k hk))

/-- One wrong residue below its modulus leaves all residues below theirs. -/
theorem reduced_of_agrees_otherChans (hright : Agrees res (otherChans k) v) (hlt : res.getD k 0 < modulus k) :
    Reduced res (modeChans 0) := by
  intro j hj
  by_cases hjk : j = k
  · rwa [hjk]
  · exact hright.reduced (channels_otherChans k) j (mem_otherChans.2 ⟨(mem_modeChans_zero j).1 hj, hjk⟩)

end

/-! ### The obligation -/

/-- Settles O45, by the Chinese remainder theorem: eight channels already fix an integer of the signed range, so that a legitimate
exclusion gives the true value and no second one can be legitimate. -/
theorem singleChannelCorrection : Obligations.SingleChannelCorrection := by
  refine ⟨?good, ?unique, ?corrected⟩
  case good =>
    intro mode v w res _ hrange hbound hres
    obtain ⟨hx, hcon⟩ := consistent_of_agrees hrange hbound hres
    rw [judge_of_consistent hcon, hx]
  case unique =>
    intro w i j res _ hlt hbad hi hj
    exact eq_of_legit_exclusions (fun k hk => hlt k ((mem_modeChans_zero k).1 hk))
      (fun hcon => hbad _ _ (judge_of_consistent hcon)) hi hj
  case corrected =>
    intro v w k res hw hv hk hright hlt hwrong
    have hagrees : Agrees res (otherChans k) v := fun j hj =>
      have ⟨hj, hjk⟩ := mem_otherChans.1 hj
      hright j hj hjk
    have hres := reduced_of_agrees_otherChans hagrees hlt
    have hvalue := rebuild_otherChans hk hagrees (legit_iff.1 hv).1
    have hincon := not_consistent_of_wrong_residue hw hv hk hagrees hres hwrong
    have hlegit : legit 0 (rebuild res (otherChans k)) w = true := by rwa [hvalue]
    have hcand := filter_range_eq_singleton (p := fun j => legit 0 (rebuild res (otherChans j)) w) hk hlegit
      fun j hj hl => eq_of_legit_exclusions hres hincon hj hk hl hlegit
    rw [judge_of_single_exclusion hw hincon hcand, hvalue]

end Sys2Proof.Machine
end

section
/-!
PROOFS. Traps and privilege (R31, R41, R375, R377): the return from a trap, the PRIV trap of every SYSTEM instruction at USER,
and the program traps with their words.
-/
namespace Sys2Proof.Machine

open Sys2Proof

/-! ### PRIV of SYSTEM instructions at USER (R41, R43 step 4) -/

/-- A slot that is ready meets no pending POISON trap (R111). -/
theorem ready_poisonHit {u : Use} {s : State} (h : ready u s = true) : poisonHit (slotOf s) u = none := by
  simp only [ready, Bool.and_eq_true, Option.isNone_iff_eq_none] at h
  obtain ⟨⟨⟨⟨⟨_, hpoison⟩, _⟩, _⟩, _⟩, _⟩ := h
  exact hpoison

/-- Where a slot at USER may issue (an instruction that touches v) and no pending POISON trap is met, the checks of a SYSTEM
instruction answer PRIV. The privilege is checked before V register numbers and the scoreboard (R43), so that no other operand
matters. -/
theorem precheck_user {i : Instr} {u v : Use} {s : State} (h : ready v s = true) (hp : poisonHit (slotOf s) u = none)
    (hpriv : s.cur.priv = false) (hsys : u.sys = true) : precheck i u s = some (.trap ⟨PRIV, pcOf s, 0, 0, 0⟩) := by
  have hc := ready_canIssue h
  have hw := ready_wait h
  simp [precheck, hc, hw, hp, hsys, hpriv, pcOf]

/-- A SYSTEM instruction of a sheaf at USER traps PRIV, whatever its own rule is. -/
theorem run_user {i : Instr} {u v : Use} {f : State → Issue} {s : State} (h : ready v s = true)
    (hp : poisonHit (slotOf s) u = none) (hk : s.cur.kind = .sheaf) (hpriv : s.cur.priv = false) (hsys : u.sys = true) :
    run i u f s = .next (raiseTrap s ⟨PRIV, pcOf s, 0, 0, 0⟩) := by
  have hissue : issueOf i u f s = .trap ⟨PRIV, pcOf s, 0, 0, 0⟩ := by simp [issueOf, precheck_user h hp hpriv hsys]
  have heng : notForEngine s.cur u = false := by simp [notForEngine, hk]
  unfold run
  rw [if_neg (ready_kind h), if_neg (by simp [heng]), hissue, settle_trap s _ (ready_wait h)]

/-! ### Words of the program traps (R377) -/

/-- The word of an instruction whose one field is its low bits. -/
theorem word1_low (m n : Nat) : word1 m 0 n = m + n := by simp [word1]

/-- Major opcode 0x1A is SYS (R41). -/
theorem decodeWord_sys {w : Nat} (w1 : Nat) (h : fld w 31 25 = 0x1A) : decodeWord w w1 = decodeSys w := by
  unfold decodeWord; rw [h]; rfl

/-- BRK and SYSC use imm14 alone: their sa field is zero (R41). -/
theorem decodeSys_programTraps (w : Nat) :
    (fld w 24 20 = 14 → decodeSys w = zeroBits (fld w 19 14) (.brk (fld w 13 0))) ∧
    (fld w 24 20 = 15 → decodeSys w = zeroBits (fld w 19 14) (.sysc (fld w 13 0))) := by
  unfold decodeSys
  exact ⟨fun h => by rw [h]; rfl, fun h => by rw [h]; rfl⟩

theorem zeroBits_ne_zero {z : Nat} (h : z ≠ 0) (i : Instr) : zeroBits z i = .error .mustBeZero := if_neg h

/-! ### The obligation -/

/-- Settles O12: RFT by its own rule, the SYSTEM instructions at USER by the one check of privilege that they share, and the
program traps by their own rules, with the decoder's answers for their words. -/
theorem trapsAndPrivilege : Obligations.TrapsAndPrivilege := by
  refine ⟨⟨fun s h => ⟨?returns, ?illegal⟩, ?user⟩, fun s n h hk => ?programTraps⟩
  case returns => exact fun hm => run_done _ _ h (if_pos hm)
  case illegal => exact fun hm _ => run_illegal _ _ h (if_neg (by simp [hm]))
  case user =>
    intro s a d c h hk hpriv
    have hnone : ready {} s = true := ready_mono h (by simp) (by simp) (by simp) (by simp) (by simp) (by simp) (by simp)
    have hp0 := ready_poisonHit hnone
    have hpa := ready_poisonHit h
    exact ⟨run_user h hp0 hk hpriv rfl, run_user h hp0 hk hpriv rfl, run_user h hpa hk hpriv rfl, run_user h hp0 hk hpriv rfl,
      run_user h hpa hk hpriv rfl, run_user h hpa hk hpriv rfl,
      fun hc => ⟨run_user h hp0 hk hpriv hc, run_user h hpa hk hpriv hc⟩⟩
  case programTraps =>
    refine ⟨fun hn => run_trap _ _ _ h (if_neg hn), run_illegal _ _ h (if_pos rfl), run_trap _ _ _ h rfl, run_trap _ _ _ h rfl,
      fun _ => ?_, fun _ => ?_, fun _ => ?_, fun w w1 hw hsub hsa => ?_⟩
    · exact congrArg ([·]) ((word1_low 0 n).trans (Nat.zero_add n))
    · exact congrArg ([·]) (word1_low 0x34E00000 n)
    · exact congrArg ([·]) (word1_low 0x34F00000 n)
    · obtain ⟨hbrk, hsysc⟩ := decodeSys_programTraps w
      rw [decodeWord_sys w1 hw]
      rcases hsub with hsub | hsub
      · rw [hbrk hsub, zeroBits_ne_zero hsa]
      · rw [hsysc hsub, zeroBits_ne_zero hsa]

end Sys2Proof.Machine
end
